-- ==== Sys2Proof/Word.lean ====
section
/-! DEFINITION. The word types of the part: bytes and 188-byte transport packets, and the moduli of its two time scales. -/

namespace Sys2Proof

/-- A byte of a frame, a packet or a flash page. -/
abbrev Byte := BitVec 8

/-- A transport packet as its bytes (00_scope section 8: 188 bytes, the first 0x47 in an accepted one). -/
abbrev Pkt := List Byte

/-- N_CLK = 2^33 × 300, the modulus of values in ticks (R32). -/
def nClk : Nat := 2576980377600

/-- N_PTS = 2^33, the modulus of presentation times (R32). -/
def nPts : Nat := 8589934592

end Sys2Proof
end

