-- ==== Sys2Proof/Machine/Bytes.lean ====
section
/-! DEFINITION. Byte order, modular time and the sparse tables: the helpers every layer uses. -/

namespace Sys2Proof.Machine

/-! ### Bytes and fields (R200, R205, R206) -/

/-- `n` bytes of `v`, least significant byte first. -/
def leBytes : Nat → Nat → List Byte
  | 0, _ => []
  | n + 1, v => BitVec.ofNat 8 v :: leBytes n (v / 256)

/-- The number whose bytes, least significant first, are given. -/
def leVal : List Byte → Nat
  | [] => 0
  | b :: r => b.toNat + 256 * leVal r

/-- The number whose bytes, most significant first, are given. -/
def beVal (l : List Byte) : Nat := l.foldl (fun v b => 256 * v + b.toNat) 0

/-- `n` bytes of `l` from offset `off`. -/
def slice (l : List Byte) (off n : Nat) : List Byte := (l.drop off).take n

/-- The field of `n` bytes at offset `off`, least significant byte first. -/
def leField (l : List Byte) (off n : Nat) : Nat := leVal (slice l off n)

/-- The byte at an offset, 0 beyond the end. -/
def byteAt (l : List Byte) (off : Nat) : Byte := l.getD off 0

/-- The sum of the bytes as unsigned values. -/
def byteSum (l : List Byte) : Nat := l.foldl (fun v b => v + b.toNat) 0

/-- How many bit positions of the bytes read 0 (R206). -/
def zeroBits (l : List Byte) : Nat :=
  l.foldl (fun v b => v + ((List.range 8).filter (fun j => !b.getLsbD j)).length) 0

/-! ### Modular time (R32) -/

/-- The signed difference of `a` and `b` modulo `n`: congruent to a − b, in −n/2 … n/2 − 1. -/
def sdiff (n a b : Nat) : Int :=
  let d := ((a : Int) - b) % n
  if 2 * d < n then d else d - n

/-- `a` is at or after `b` modulo `n`. -/
def atOrAfter (n a b : Nat) : Bool := decide (0 ≤ sdiff n a b)

/-- a + b modulo n. -/
def addMod (n a b : Nat) : Nat := (a + b) % n

/-- a − b modulo n, in 0 … n − 1. -/
def subMod (n a b : Nat) : Nat := (a + (n - b % n)) % n

/-- a + d modulo n for a signed d. -/
def addSigned (n a : Nat) (d : Int) : Nat := (((a : Int) + d) % n).toNat

/-- Quotient rounded up. -/
def ceilDiv (a b : Nat) : Nat := (a + b - 1) / b

/-! ### Sparse tables

A table lists key and value, keys strictly rising, no value equal to the table's default `d`: equal tables
are equal lists. -/

/-- A sparse table from keys to values. -/
abbrev Table (α : Type) := List (Nat × α)

/-- The value at a key: the default where the table lists none. -/
def Table.get {α : Type} (d : α) : Table α → Nat → α
  | [], _ => d
  | (j, v) :: r, k => if j = k then v else Table.get d r k

/-- Put a value in its place, before the first greater key. -/
def Table.insert {α : Type} (k : Nat) (v : α) : Table α → Table α
  | [] => [(k, v)]
  | (j, w) :: r => if k < j then (k, v) :: (j, w) :: r else (j, w) :: Table.insert k v r

/-- The table with the key's value replaced; a default value is not listed. -/
def Table.set {α : Type} [DecidableEq α] (d : α) (t : Table α) (k : Nat) (v : α) : Table α :=
  let t' := t.filter (fun e => e.1 != k)
  if v = d then t' else Table.insert k v t'

/-- The canonical form: keys strictly rising, no listed default. -/
def Table.wf {α : Type} [DecidableEq α] (d : α) : Table α → Bool
  | [] => true
  | [(_, v)] => decide (v ≠ d)
  | (j, v) :: (k, w) :: r => decide (v ≠ d) && decide (j < k) && Table.wf d ((k, w) :: r)

/-- The keys a table lists, rising in a canonical table. -/
def Table.keys {α : Type} (t : Table α) : List Nat := t.map (·.1)

/-- The values a table of optional records lists, by rising key. -/
def Table.vals {α : Type} (t : Table (Option α)) : List α := t.filterMap (·.2)

end Sys2Proof.Machine
end

