-- ==== Sys2Proof/Syntax.lean ====
section
/-! DEFINITION. The commands of the part: one constructor of Instr for each row of spec/opcode_table.json. -/

namespace Sys2Proof

/-- The three control ports (R187). -/
inductive PortId where
  | tp | pp | ap
  deriving DecidableEq, Repr

/-- What a page read gives (R116): one of the three outcomes, `good` with the data area of 8,192 bytes, or the page as it
was read, its data area and its 432 bytes of sector ECC, which the channel's check has still to judge. -/
inductive ReadOutcome where
  | erased
  | good (data : List Byte)
  | uncorrectable
  | page (area ecc : List Byte)
  deriving DecidableEq, Repr

/-- One component position of a command body: PID and kind code (R201). -/
structure CompPos where
  pid : Nat
  kind : Nat
  deriving DecidableEq, Repr

/-- Parameters of Configure Lane (R2, R201); `none` is an absent field. -/
structure LaneArgs where
  lane : Nat
  rOut : Option Nat
  delay : Option Nat
  pool : Option Nat
  lateLimit : Option Nat
  preroll : Option Nat
  seekLimit : Option Nat
  rounding : Option Nat
  lockWindow : Option Nat
  lossTimeout : Option Nat
  res : Nat
  deriving DecidableEq, Repr

/-- Parameters of Configure Service (R8, R201): `positions` are the 8 component positions of the body. -/
structure ServiceArgs where
  svc : Nat
  lane : Nat
  count : Nat
  handling : Nat
  ceiling : Nat
  pcrPid : Nat
  cuePid : Option Nat
  res : Nat
  positions : List CompPos
  deriving DecidableEq, Repr

/-- Parameters of Add Entry (R50, R201): `pod` is the 4 clip id positions of the body. -/
structure EntryArgs where
  svc : Nat
  trigKind : Nat
  retKind : Nat
  podCount : Nat
  trigValue : Nat
  duration : Nat
  window : Nat
  pod : List Nat
  res : Nat
  deriving DecidableEq, Repr

/-- Parameters of Ingest Open (R154, R201). -/
structure IngestArgs where
  clip : Nat
  rate : Nat
  kDecl : Nat
  count : Nat
  pcrIndex : Nat
  res : Nat
  positions : List CompPos
  deriving DecidableEq, Repr

/-- Parameters of Alert Activate (R174, R201): `targets` is the 48 target positions of the body. -/
structure AlertArgs where
  alert : Nat
  clip : Nat
  duration : Nat
  loop : Nat
  count : Nat
  res : Nat
  targets : List Nat
  deriving DecidableEq, Repr

/-- The rows of spec/opcode_table.json. The rows of commands stand for the arrival, whole and with a good
check byte, of the command's frame at port `p` (log 37). -/
inductive Instr where
  | resetnAssert
  | resetnRelease
  | lowsupplyAssert
  | lowsupplyRelease
  | refLost
  | refRestored
  | restoreCountGap
  | packetArrival (lane : Fin 4) (bytes : Pkt)
  | inputLost (lane : Fin 4)
  | pcrLossTimeout (svc : Fin 48)
  | slot (lane : Fin 4)
  | timeTrigger (entry : Fin 256)
  | searchOverdue (svc : Fin 48)
  | seekTimerExpiry (svc : Fin 48)
  | returnOverdue (svc : Fin 48)
  | alertExpiry (record : Fin 4)
  | pageReadComplete (outcome : ReadOutcome) (marker : Byte)
  | programComplete (pass : Bool)
  | eraseComplete (pass : Bool)
  | block0EraseComplete (pass : Bool)
  | flashOpTimeout
  | frameRefused (p : PortId) (body : List Byte) (chk : Byte)
  | frameGap (p : PortId)
  | framingError (p : PortId)
  | replySent (p : PortId)
  | identify (p : PortId) (res : Nat)
  | readStatus (p : PortId) (res : Nat)
  | portRate (p : PortId) (rate res : Nat)
  | readEvents (p : PortId) (count res : Nat)
  | watch (p : PortId) (members : BitVec 48) (res : Nat)
  | configureLane (p : PortId) (a : LaneArgs)
  | configureService (p : PortId) (a : ServiceArgs)
  | setMasks (p : PortId) (svc : Nat) (masks : BitVec 16) (res : Nat)
  | clearConditions (p : PortId) (svc : Nat) (conds : BitVec 16) (res : Nat)
  | readService (p : PortId) (svc res : Nat)
  | clearService (p : PortId) (svc form res : Nat)
  | addEntry (p : PortId) (a : EntryArgs)
  | cancelEntry (p : PortId) (entry res : Nat)
  | readEntry (p : PortId) (entry res : Nat)
  | ingestOpen (p : PortId) (a : IngestArgs)
  | ingestData (p : PortId) (data : List Byte)
  | ingestClose (p : PortId) (checksum duration res : Nat)
  | ingestAbort (p : PortId) (res : Nat)
  | clipErase (p : PortId) (clip res : Nat)
  | clipChecksum (p : PortId) (clip res : Nat)
  | listDirectory (p : PortId) (start res : Nat)
  | readClip (p : PortId) (clip res : Nat)
  | alertPreload (p : PortId) (slot named clip res : Nat)
  | alertActivate (p : PortId) (a : AlertArgs)
  | alertCancel (p : PortId) (alert res : Nat)
  | protectionSet (p : PortId) (locks : BitVec 8) (res : Nat)
  | protectionRelease (p : PortId) (res : Nat)
  | readProtection (p : PortId) (res : Nat)
  | receiveByte (p : PortId) (b : Byte)
  deriving DecidableEq, Repr

end Sys2Proof
end

