-- ==== Sys2Proof/WellFormed.lean ====
section
/-! DEFINITION. The well-formed commands: every operand fits the field that carries it (R6, R200, R201). -/

namespace Sys2Proof

/-- A value fits `n` bytes. -/
def fits (n v : Nat) : Bool := decide (v < 256 ^ n)

/-- A present value fits `n` bytes and is not the absent encoding (R200). -/
def fitsOpt (n : Nat) : Option Nat → Bool
  | some v => decide (v + 1 < 256 ^ n)
  | none => true

/-- Eight component positions (R201). -/
def positionsOk (l : List CompPos) : Bool := l.length == 8 && l.all (fun c => fits 2 c.pid && fits 1 c.kind)

def LaneArgs.wf (a : LaneArgs) : Bool :=
  fits 1 a.lane && fitsOpt 2 a.rOut && fitsOpt 1 a.delay && fitsOpt 2 a.pool && fitsOpt 1 a.lateLimit
    && fitsOpt 2 a.preroll && fitsOpt 2 a.seekLimit && fitsOpt 1 a.rounding && fitsOpt 4 a.lockWindow
    && fitsOpt 2 a.lossTimeout && fits 2 a.res

def ServiceArgs.wf (a : ServiceArgs) : Bool :=
  fits 1 a.svc && fits 1 a.lane && fits 1 a.count && fits 1 a.handling && fits 2 a.ceiling && fits 2 a.pcrPid
    && fitsOpt 2 a.cuePid && fits 2 a.res && positionsOk a.positions

def EntryArgs.wf (a : EntryArgs) : Bool :=
  fits 1 a.svc && fits 1 a.trigKind && fits 1 a.retKind && fits 1 a.podCount && fits 6 a.trigValue && fits 4 a.duration
    && fits 4 a.window && a.pod.length == 4 && a.pod.all (fits 2) && fits 2 a.res

def IngestArgs.wf (a : IngestArgs) : Bool :=
  fits 2 a.clip && fits 2 a.rate && fits 4 a.kDecl && fits 1 a.count && fits 1 a.pcrIndex && fits 2 a.res
    && positionsOk a.positions

def AlertArgs.wf (a : AlertArgs) : Bool :=
  fits 2 a.alert && fits 2 a.clip && fits 2 a.duration && fits 1 a.loop && fits 1 a.count && fits 1 a.res
    && a.targets.length == 48 && a.targets.all (fits 1)

/-- A read carries a data area of 8,192 bytes when it is GOOD, and with it 432 bytes of ECC when it is still to be judged
(R115, R116, R206). -/
def ReadOutcome.wf : ReadOutcome → Bool
  | .good d => d.length == 8192
  | .page area ecc => area.length == 8192 && ecc.length == 432
  | .erased => true
  | .uncorrectable => true

/-- Every operand of a row fits its field. -/
def Instr.wf : Instr → Bool
  | .resetnAssert => true
  | .resetnRelease => true
  | .lowsupplyAssert => true
  | .lowsupplyRelease => true
  | .refLost => true
  | .refRestored => true
  | .restoreCountGap => true
  | .packetArrival _ b => b.length == 188
  | .inputLost _ => true
  | .pcrLossTimeout _ => true
  | .slot _ => true
  | .timeTrigger _ => true
  | .searchOverdue _ => true
  | .seekTimerExpiry _ => true
  | .returnOverdue _ => true
  | .alertExpiry _ => true
  | .pageReadComplete o _ => o.wf
  | .programComplete _ => true
  | .eraseComplete _ => true
  | .block0EraseComplete _ => true
  | .flashOpTimeout => true
  | .frameRefused _ body _ => decide (1 ≤ body.length ∧ body.length ≤ 1040)
  | .frameGap _ => true
  | .framingError _ => true
  | .replySent _ => true
  | .identify _ res => fits 1 res
  | .readStatus _ res => fits 1 res
  | .portRate _ rate res => fits 1 rate && fits 1 res
  | .readEvents _ count res => fits 1 count && fits 1 res
  | .watch _ _ res => fits 2 res
  | .configureLane _ a => a.wf
  | .configureService _ a => a.wf
  | .setMasks _ svc _ res => fits 1 svc && fits 1 res
  | .clearConditions _ svc _ res => fits 1 svc && fits 1 res
  | .readService _ svc res => fits 1 svc && fits 1 res
  | .clearService _ svc form res => fits 1 svc && fits 1 form && fits 1 res
  | .addEntry _ a => a.wf
  | .cancelEntry _ entry res => fits 2 entry && fits 1 res
  | .readEntry _ entry res => fits 2 entry && fits 1 res
  | .ingestOpen _ a => a.wf
  | .ingestData _ data => decide (1 ≤ data.length ∧ data.length ≤ 1024)
  | .ingestClose _ checksum duration res => fits 2 checksum && fits 4 duration && fits 2 res
  | .ingestAbort _ res => fits 1 res
  | .clipErase _ clip res => fits 2 clip && fits 1 res
  | .clipChecksum _ clip res => fits 2 clip && fits 1 res
  | .listDirectory _ start res => fits 2 start && fits 1 res
  | .readClip _ clip res => fits 2 clip && fits 1 res
  | .alertPreload _ j named clip res => fits 1 j && fits 1 named && fits 2 clip && fits 1 res
  | .alertActivate _ a => a.wf
  | .alertCancel _ alert res => fits 2 alert && fits 1 res
  | .protectionSet _ _ res => fits 1 res
  | .protectionRelease _ res => fits 1 res
  | .readProtection _ res => fits 1 res
  | .receiveByte _ _ => true

end Sys2Proof
end

