-- ==== Sys2Proof/Decode.lean ====
section
/-! DEFINITION. The command bodies of R201, read and written, and the decoder of table words (no row gives bits). -/

namespace Sys2Proof

open Sys2Proof.Machine

/-- No row of spec/opcode_table.json gives bits: no word spells a command. -/
def decodeTableWord (_nbits _w : Nat) : Option Instr := none

/-! ### Fields -/

/-- A field that may be absent, every byte 0xFF then (R200). -/
def optField (b : List Byte) (off n : Nat) : Option Nat :=
  let v := leField b off n
  if v + 1 = 256 ^ n then none else some v

/-- The bytes of a field that may be absent (R200). -/
def optBytes (n : Nat) : Option Nat → List Byte
  | some v => leBytes n v
  | none => List.replicate n 0xFF#8

/-- Component positions from an offset (R201). -/
def positionsAt (b : List Byte) : Nat → Nat → List CompPos
  | _, 0 => []
  | off, n + 1 => { pid := leField b off 2, kind := leField b (off + 2) 1 } :: positionsAt b (off + 3) n

/-- The bytes of component positions (R201). -/
def positionBytes (l : List CompPos) : List Byte := l.flatMap (fun c => leBytes 2 c.pid ++ leBytes 1 c.kind)

/-- Numbers of `w` bytes from an offset. -/
def numbersAt (b : List Byte) (w : Nat) : Nat → Nat → List Nat
  | _, 0 => []
  | off, n + 1 => leField b off w :: numbersAt b w (off + w) n

/-! ### Reading a body (R201) -/

/-- Parameters of Configure Lane. -/
def readLaneArgs (b : List Byte) : LaneArgs :=
  { lane := leField b 1 1, rOut := optField b 2 2, delay := optField b 4 1, pool := optField b 5 2,
    lateLimit := optField b 7 1, preroll := optField b 8 2, seekLimit := optField b 10 2, rounding := optField b 12 1,
    lockWindow := optField b 13 4, lossTimeout := optField b 17 2, res := leField b 19 2 }

/-- Parameters of Configure Service. -/
def readServiceArgs (b : List Byte) : ServiceArgs :=
  { svc := leField b 1 1, lane := leField b 2 1, count := leField b 3 1, handling := leField b 4 1,
    ceiling := leField b 5 2, pcrPid := leField b 7 2, cuePid := optField b 9 2, res := leField b 11 2,
    positions := positionsAt b 13 8 }

/-- Parameters of Add Entry. -/
def readEntryArgs (b : List Byte) : EntryArgs :=
  { svc := leField b 1 1, trigKind := leField b 2 1, retKind := leField b 3 1, podCount := leField b 4 1,
    trigValue := leField b 5 6, duration := leField b 11 4, window := leField b 15 4, pod := numbersAt b 2 19 4,
    res := leField b 27 2 }

/-- Parameters of Ingest Open. -/
def readIngestArgs (b : List Byte) : IngestArgs :=
  { clip := leField b 1 2, rate := leField b 3 2, kDecl := leField b 5 4, count := leField b 9 1,
    pcrIndex := leField b 10 1, res := leField b 11 2, positions := positionsAt b 13 8 }

/-- Parameters of Alert Activate. -/
def readAlertArgs (b : List Byte) : AlertArgs :=
  { alert := leField b 1 2, clip := leField b 3 2, duration := leField b 5 2, loop := leField b 7 1,
    count := leField b 8 1, res := leField b 9 1, targets := numbersAt b 1 10 48 }

/-- The command of a body, by its code and length (R201). -/
def decodeBody (p : PortId) (b : List Byte) : Option Instr :=
  let f := leField b
  match (b.headD 0).toNat, b.length with
  | 0x01, 2 => some (.identify p (f 1 1))
  | 0x02, 2 => some (.readStatus p (f 1 1))
  | 0x03, 3 => some (.portRate p (f 1 1) (f 2 1))
  | 0x04, 3 => some (.readEvents p (f 1 1) (f 2 1))
  | 0x05, 9 => some (.watch p (BitVec.ofNat 48 (f 1 6)) (f 7 2))
  | 0x10, 21 => some (.configureLane p (readLaneArgs b))
  | 0x11, 37 => some (.configureService p (readServiceArgs b))
  | 0x12, 5 => some (.setMasks p (f 1 1) (BitVec.ofNat 16 (f 2 2)) (f 4 1))
  | 0x13, 5 => some (.clearConditions p (f 1 1) (BitVec.ofNat 16 (f 2 2)) (f 4 1))
  | 0x14, 3 => some (.readService p (f 1 1) (f 2 1))
  | 0x15, 4 => some (.clearService p (f 1 1) (f 2 1) (f 3 1))
  | 0x20, 29 => some (.addEntry p (readEntryArgs b))
  | 0x21, 4 => some (.cancelEntry p (f 1 2) (f 3 1))
  | 0x22, 4 => some (.readEntry p (f 1 2) (f 3 1))
  | 0x30, 37 => some (.ingestOpen p (readIngestArgs b))
  | 0x31, n => if 2 ≤ n ∧ n ≤ 1025 then some (.ingestData p b.tail) else none
  | 0x32, 9 => some (.ingestClose p (f 1 2) (f 3 4) (f 7 2))
  | 0x33, 2 => some (.ingestAbort p (f 1 1))
  | 0x34, 4 => some (.clipErase p (f 1 2) (f 3 1))
  | 0x35, 4 => some (.clipChecksum p (f 1 2) (f 3 1))
  | 0x36, 4 => some (.listDirectory p (f 1 2) (f 3 1))
  | 0x37, 4 => some (.readClip p (f 1 2) (f 3 1))
  | 0x40, 6 => some (.alertPreload p (f 1 1) (f 2 1) (f 3 2) (f 5 1))
  | 0x41, 58 => some (.alertActivate p (readAlertArgs b))
  | 0x42, 4 => some (.alertCancel p (f 1 2) (f 3 1))
  | 0x43, 3 => some (.protectionSet p (BitVec.ofNat 8 (f 1 1)) (f 2 1))
  | 0x44, 2 => some (.protectionRelease p (f 1 1))
  | 0x45, 2 => some (.readProtection p (f 1 1))
  | _, _ => none

/-! ### Writing a body (R201) -/

/-- The body of a command; empty for a row that is no command. -/
def encodeBody : Instr → List Byte
  | .identify _ res => [0x01#8] ++ leBytes 1 res
  | .readStatus _ res => [0x02#8] ++ leBytes 1 res
  | .portRate _ rate res => [0x03#8] ++ leBytes 1 rate ++ leBytes 1 res
  | .readEvents _ count res => [0x04#8] ++ leBytes 1 count ++ leBytes 1 res
  | .watch _ m res => [0x05#8] ++ leBytes 6 m.toNat ++ leBytes 2 res
  | .configureLane _ a =>
    [0x10#8] ++ leBytes 1 a.lane ++ optBytes 2 a.rOut ++ optBytes 1 a.delay ++ optBytes 2 a.pool
      ++ optBytes 1 a.lateLimit ++ optBytes 2 a.preroll ++ optBytes 2 a.seekLimit ++ optBytes 1 a.rounding
      ++ optBytes 4 a.lockWindow ++ optBytes 2 a.lossTimeout ++ leBytes 2 a.res
  | .configureService _ a =>
    [0x11#8] ++ leBytes 1 a.svc ++ leBytes 1 a.lane ++ leBytes 1 a.count ++ leBytes 1 a.handling
      ++ leBytes 2 a.ceiling ++ leBytes 2 a.pcrPid ++ optBytes 2 a.cuePid ++ leBytes 2 a.res ++ positionBytes a.positions
  | .setMasks _ i m res => [0x12#8] ++ leBytes 1 i ++ leBytes 2 m.toNat ++ leBytes 1 res
  | .clearConditions _ i m res => [0x13#8] ++ leBytes 1 i ++ leBytes 2 m.toNat ++ leBytes 1 res
  | .readService _ i res => [0x14#8] ++ leBytes 1 i ++ leBytes 1 res
  | .clearService _ i form res => [0x15#8] ++ leBytes 1 i ++ leBytes 1 form ++ leBytes 1 res
  | .addEntry _ a =>
    [0x20#8] ++ leBytes 1 a.svc ++ leBytes 1 a.trigKind ++ leBytes 1 a.retKind ++ leBytes 1 a.podCount
      ++ leBytes 6 a.trigValue ++ leBytes 4 a.duration ++ leBytes 4 a.window ++ a.pod.flatMap (leBytes 2) ++ leBytes 2 a.res
  | .cancelEntry _ n res => [0x21#8] ++ leBytes 2 n ++ leBytes 1 res
  | .readEntry _ n res => [0x22#8] ++ leBytes 2 n ++ leBytes 1 res
  | .ingestOpen _ a =>
    [0x30#8] ++ leBytes 2 a.clip ++ leBytes 2 a.rate ++ leBytes 4 a.kDecl ++ leBytes 1 a.count ++ leBytes 1 a.pcrIndex
      ++ leBytes 2 a.res ++ positionBytes a.positions
  | .ingestData _ data => [0x31#8] ++ data
  | .ingestClose _ sum d res => [0x32#8] ++ leBytes 2 sum ++ leBytes 4 d ++ leBytes 2 res
  | .ingestAbort _ res => [0x33#8] ++ leBytes 1 res
  | .clipErase _ c res => [0x34#8] ++ leBytes 2 c ++ leBytes 1 res
  | .clipChecksum _ c res => [0x35#8] ++ leBytes 2 c ++ leBytes 1 res
  | .listDirectory _ c res => [0x36#8] ++ leBytes 2 c ++ leBytes 1 res
  | .readClip _ c res => [0x37#8] ++ leBytes 2 c ++ leBytes 1 res
  | .alertPreload _ j named c res => [0x40#8] ++ leBytes 1 j ++ leBytes 1 named ++ leBytes 2 c ++ leBytes 1 res
  | .alertActivate _ a =>
    [0x41#8] ++ leBytes 2 a.alert ++ leBytes 2 a.clip ++ leBytes 2 a.duration ++ leBytes 1 a.loop ++ leBytes 1 a.count
      ++ leBytes 1 a.res ++ a.targets.flatMap (leBytes 1)
  | .alertCancel _ id res => [0x42#8] ++ leBytes 2 id ++ leBytes 1 res
  | .protectionSet _ locks res => [0x43#8] ++ leBytes 1 locks.toNat ++ leBytes 1 res
  | .protectionRelease _ res => [0x44#8] ++ leBytes 1 res
  | .readProtection _ res => [0x45#8] ++ leBytes 1 res
  | .resetnAssert => []
  | .resetnRelease => []
  | .lowsupplyAssert => []
  | .lowsupplyRelease => []
  | .refLost => []
  | .refRestored => []
  | .restoreCountGap => []
  | .packetArrival _ _ => []
  | .inputLost _ => []
  | .pcrLossTimeout _ => []
  | .slot _ => []
  | .timeTrigger _ => []
  | .searchOverdue _ => []
  | .seekTimerExpiry _ => []
  | .returnOverdue _ => []
  | .alertExpiry _ => []
  | .pageReadComplete _ _ => []
  | .programComplete _ => []
  | .eraseComplete _ => []
  | .block0EraseComplete _ => []
  | .flashOpTimeout => []
  | .frameRefused _ _ _ => []
  | .frameGap _ => []
  | .framingError _ => []
  | .replySent _ => []
  | .receiveByte _ _ => []

/-- The port of a command; none for a row that is no command. -/
def commandPort : Instr → Option PortId
  | .identify p _ => some p
  | .readStatus p _ => some p
  | .portRate p _ _ => some p
  | .readEvents p _ _ => some p
  | .watch p _ _ => some p
  | .configureLane p _ => some p
  | .configureService p _ => some p
  | .setMasks p _ _ _ => some p
  | .clearConditions p _ _ _ => some p
  | .readService p _ _ => some p
  | .clearService p _ _ _ => some p
  | .addEntry p _ => some p
  | .cancelEntry p _ _ => some p
  | .readEntry p _ _ => some p
  | .ingestOpen p _ => some p
  | .ingestData p _ => some p
  | .ingestClose p _ _ _ => some p
  | .ingestAbort p _ => some p
  | .clipErase p _ _ => some p
  | .clipChecksum p _ _ => some p
  | .listDirectory p _ _ => some p
  | .readClip p _ _ => some p
  | .alertPreload p _ _ _ _ => some p
  | .alertActivate p _ => some p
  | .alertCancel p _ _ => some p
  | .protectionSet p _ _ => some p
  | .protectionRelease p _ => some p
  | .readProtection p _ => some p
  | _ => none

end Sys2Proof
end

