-- ==== Sys2Proof/Machine/Operands.lean ====
section
/-! DEFINITION. The fields of transport packets, PES headers and cue sections that the part reads and rewrites
(R205, R207). -/

namespace Sys2Proof.Machine

/-- PID of a packet (R207). -/
def pktPid (b : Pkt) : Nat := ((byteAt b 1).toNat % 32) * 256 + (byteAt b 2).toNat

/-- Transport error indicator (R207). -/
def pktTei (b : Pkt) : Bool := (byteAt b 1).getLsbD 7

/-- Payload-unit-start indicator (R207). -/
def pktPusi (b : Pkt) : Bool := (byteAt b 1).getLsbD 6

/-- Adaptation field control, 0 … 3 (R207). -/
def pktAfc (b : Pkt) : Nat := (byteAt b 3).toNat / 16 % 4

/-- Continuity counter (R207). -/
def pktCC (b : Pkt) : BitVec 4 := (byteAt b 3).setWidth 4

/-- Adaptation field length A; 0 when the control gives no adaptation field (R207). -/
def pktAfLen (b : Pkt) : Nat := if pktAfc b = 2 ∨ pktAfc b = 3 then (byteAt b 4).toNat else 0

/-- Offset of the first payload byte (R207). -/
def payloadAt (b : Pkt) : Nat := if pktAfc b = 1 then 4 else 5 + pktAfLen b

/-- The packet carries payload: control 01, or 11 with 5 + A below 188 (R207). -/
def hasPayload (b : Pkt) : Bool := pktAfc b == 1 || (pktAfc b == 3 && decide (5 + pktAfLen b < 188))

/-- The packet has an adaptation field of at least one byte (R207). -/
def hasAfFlags (b : Pkt) : Bool := (pktAfc b == 2 || pktAfc b == 3) && decide (1 ≤ pktAfLen b)

/-- Discontinuity indicator (R207). -/
def pktDisc (b : Pkt) : Bool := hasAfFlags b && (byteAt b 5).getLsbD 7

/-- The packet carries a PCR (R207). -/
def hasPcr (b : Pkt) : Bool := hasAfFlags b && (byteAt b 5).getLsbD 4

/-- Base of the PCR (R207). -/
def pcrBase (b : Pkt) : Nat := beVal (slice b 6 4) * 2 + (byteAt b 10).toNat / 128

/-- Extension of the PCR (R207). -/
def pcrExt (b : Pkt) : Nat := ((byteAt b 10).toNat % 2) * 256 + (byteAt b 11).toNat

/-- A packet's PCR as base and extension, when it carries one (R207). -/
def pktPcr (b : Pkt) : Option (Nat × Nat) := if hasPcr b then some (pcrBase b, pcrExt b) else none

/-- A 33-bit time of a PES header at an offset of the packet (R207). -/
def stampAt (b : Pkt) (o : Nat) : Nat :=
  ((byteAt b o).toNat / 2 % 8) * 1073741824 + (byteAt b (o + 1)).toNat * 4194304
    + ((byteAt b (o + 2)).toNat / 2) * 32768 + (byteAt b (o + 3)).toNat * 128 + (byteAt b (o + 4)).toNat / 2

/-- PTS and DTS of a PES start (00_scope section 8, R207). -/
structure Pes where
  pts : Nat
  dts : Option Nat
  deriving DecidableEq, Repr

/-- The payload begins with the PES start code prefix (R158, R207). -/
def hasPesPrefix (b : Pkt) : Bool :=
  hasPayload b && byteAt b (payloadAt b) == 0 && byteAt b (payloadAt b + 1) == 0
    && byteAt b (payloadAt b + 2) == 1 && decide (payloadAt b + 2 < b.length)

/-- The PES start of a packet: PUSI set and a PES header with a PTS, and the DTS where flagged, entirely within
the packet (R207). -/
def pktPes (b : Pkt) : Option Pes :=
  let o := payloadAt b
  let n := 188 - o
  let flags := (byteAt b (o + 7)).toNat / 64
  let h := (byteAt b (o + 8)).toNat
  if pktPusi b && hasPesPrefix b && decide (9 + h ≤ n) then
    if flags = 2 ∧ 5 ≤ h then some { pts := stampAt b (o + 9), dts := none }
    else if flags = 3 ∧ 10 ≤ h then some { pts := stampAt b (o + 9), dts := some (stampAt b (o + 14)) }
    else none
  else none

/-- A PES header begins in the packet and its own length field takes it past the packet's end (R158). -/
def splitHeader (b : Pkt) : Bool :=
  let o := payloadAt b
  pktPusi b && hasPesPrefix b && (decide (188 < o + 9) || decide (188 < o + 9 + (byteAt b (o + 8)).toNat))

/-- R6: the packet is kept from observation (transport error, or neither adaptation field nor payload). -/
def excluded (b : Pkt) : Bool := pktTei b || pktAfc b == 0

/-! ### Rewriting -/

/-- Replace the bytes from an offset. -/
def putAt (b : Pkt) (o : Nat) (v : List Byte) : Pkt := b.take o ++ v ++ b.drop (o + v.length)

/-- A packet with another continuity counter (R17, R18). -/
def setCC (b : Pkt) (c : BitVec 4) : Pkt :=
  putAt b 3 [((byteAt b 3) &&& 0xF0#8) ||| c.setWidth 8]

/-- A packet on another PID (R88). -/
def setPid (b : Pkt) (pid : Nat) : Pkt :=
  putAt b 1 [((byteAt b 1) &&& 0xE0#8) ||| BitVec.ofNat 8 (pid / 256 % 32), BitVec.ofNat 8 pid]

/-- A PES time written into the bit positions it stands in, the other bits kept (R207). -/
def setStamp (b : Pkt) (o v : Nat) : Pkt :=
  putAt b o
    [((byteAt b o) &&& 0xF1#8) ||| BitVec.ofNat 8 (v / 1073741824 % 8 * 2),
     BitVec.ofNat 8 (v / 4194304),
     ((byteAt b (o + 2)) &&& 0x01#8) ||| BitVec.ofNat 8 (v / 32768 % 128 * 2),
     BitVec.ofNat 8 (v / 128),
     ((byteAt b (o + 4)) &&& 0x01#8) ||| BitVec.ofNat 8 (v % 128 * 2)]

/-- A PCR value in ticks written into its bit positions, the other bits kept (R88, R207). -/
def setPcr (b : Pkt) (v : Nat) : Pkt :=
  let base := v / 300
  let ext := v % 300
  putAt b 6
    [BitVec.ofNat 8 (base / 33554432), BitVec.ofNat 8 (base / 131072), BitVec.ofNat 8 (base / 512),
     BitVec.ofNat 8 (base / 2),
     ((byteAt b 10) &&& 0x7E#8) ||| BitVec.ofNat 8 (base % 2 * 128 + ext / 256),
     BitVec.ofNat 8 ext]

/-- A clip packet rebased by Δ: every PTS, DTS and PCR it carries (R88). -/
def rebase (b : Pkt) (delta : Nat) : Pkt :=
  let o := payloadAt b
  let b1 := match pktPes b with
    | some p =>
      let b' := setStamp b (o + 9) (addMod nPts p.pts delta)
      match p.dts with
      | some d => setStamp b' (o + 14) (addMod nPts d delta)
      | none => b'
    | none => b
  match pktPcr b with
  | some (base, ext) => setPcr b1 (addMod nClk (base * 300 + ext) (300 * delta))
  | none => b1

/-- A PTS or DTS of the packet reaches N_PTS with Δ added (R88: WRAP). -/
def wraps (b : Pkt) (delta : Nat) : Bool :=
  match pktPes b with
  | some p => decide (nPts ≤ p.pts + delta) || (match p.dts with | some d => decide (nPts ≤ d + delta) | none => false)
  | none => false

/-- The null packet of the merger (R14). -/
def nullPacket : Pkt := [0x47#8, 0x1F#8, 0xFF#8, 0x10#8] ++ List.replicate 184 0xFF#8

end Sys2Proof.Machine
end

