-- ==== Sys2Proof/Config.lean ====
section
/-! DEFINITION. What an implementation fixes and the manual does not state: the free values (log 4, 11, 12, 13, 19), and the capacities. -/

namespace Sys2Proof.Config

/-- FREE VALUE (log 11). The part code that Identify reports (R196 gives it no value). -/
opaque partCode : BitVec 16

/-- FREE VALUE (log 11). What a field holds that the rules give no value in its case: chosen by the counter
`freeCtr` of State at the moment of the event or reply, and by the number of the field. -/
opaque freeField : Nat → Nat → BitVec 32

/-- FREE VALUE (log 12). The 54 bytes of sector ECC that a data program writes for the bytes the code covers. -/
opaque sectorEcc : List Byte → BitVec 432

/-- FREE VALUE (log 12). The bit errors that the code finds in the covered bytes of a sector with its ECC as read. -/
opaque sectorErrors : List Byte → List Byte → Nat

/-- FREE VALUE (log 12). A covered byte of a sector after the code has corrected it: by the covered bytes and the ECC as
read, and the byte's place among them. -/
opaque corrected : List Byte → List Byte → Nat → Byte

/-- FREE VALUE (log 13). The 384 mark bytes of block 0 when the scan's read of it gives no data: by `freeCtr` and offset. -/
opaque unreadBlock0 : Nat → Nat → Byte

/-- FREE VALUE (log 13). The bad-block marker position of a block whose scan read ends by the time limit: by `freeCtr` and block. -/
opaque unreadMarker : Nat → Nat → Byte

/-- FREE VALUE (log 4). Whether REFCLK, absent, brings an edge in a cycle of the backup oscillator: by `freeCtr`. -/
opaque refReturns : Nat → Bool

/-- FREE VALUE (log 19). S_eff of a level-3 cut at exhaustion whose S is absent, chosen by `freeCtr`. -/
opaque freePts : Nat → BitVec 33

end Sys2Proof.Config
end

