-- ==== Sys2Proof/Machine/State.lean ====
section
/-! DEFINITION. The state of the part as plain data, its reset value, and the reasons a step can stop. -/

namespace Sys2Proof.Machine

/-! ### Lanes (chapter 1) -/

/-- Lane mode (R1). -/
inductive LaneMode where
  | bypass | running
  deriving DecidableEq, Repr

/-- Rounding mode of a lane (R34). -/
inductive Rounding where
  | nearestEven | down | up | towardZero
  deriving DecidableEq, Repr

/-- A lane's settings (R2), each in the unit of R2's table. -/
structure LaneSettings where
  rOut : Nat
  delay : Nat
  pool : Nat
  lateLimit : Nat
  preroll : Nat
  seekLimit : Nat
  rounding : Rounding
  lockWindow : Nat
  lossTimeout : Nat
  deriving DecidableEq, Repr

/-- Settings after RESETN (R1, defaults of R2). -/
def LaneSettings.reset : LaneSettings :=
  { rOut := 0, delay := 0, pool := 0, lateLimit := 20, preroll := 500, seekLimit := 400,
    rounding := .nearestEven, lockWindow := 2700, lossTimeout := 150 }

/-- An element of the delay FIFO (R12). -/
structure FifoElem where
  pkt : Pkt
  stamp : Nat
  resume : Bool
  deriving DecidableEq, Repr

/-- Owner of an output PID (R16). -/
inductive PidOwner where
  | network
  | clip (svc : Nat)
  deriving DecidableEq, Repr

/-- An entry of the per-PID output table (R17). -/
structure PidEntry where
  lastCC : Option (BitVec 4)
  prevIn : Option (BitVec 4)
  offset : BitVec 4
  owner : PidOwner
  tail : Nat
  deriving DecidableEq, Repr

/-- The entry state of a PID (R17). -/
def PidEntry.entry : PidEntry :=
  { lastCC := none, prevIn := none, offset := 0, owner := .network, tail := 0 }

/-- One lane. `slotTime` is the time of the next slot, `slotNo` its number, `slotRem` the remainder of
slotNo × 27,000,000 modulo R_out (R13). `out` is the packet last sent on TOk. -/
structure Lane where
  mode : LaneMode
  cfg : LaneSettings
  fifo : List FifoElem
  pids : Table PidEntry
  overrun : Bool
  inputPresent : Bool
  inputTimer : Option Nat
  base : Nat
  slotNo : Nat
  slotRem : Nat
  slotTime : Nat
  out : Option Pkt
  deriving DecidableEq, Repr

/-- A lane after RESETN (R1). -/
def Lane.reset : Lane :=
  { mode := .bypass, cfg := LaneSettings.reset, fifo := [], pids := [], overrun := false,
    inputPresent := false, inputTimer := none, base := 0, slotNo := 0, slotRem := 0, slotTime := 0, out := none }

/-! ### Services (chapters 1, 2, 3, 5, 6) -/

/-- Component kind (R8). `other` is a code beyond the three, which only a seal read at the scan can hold (R121; log 40). -/
inductive CompKind where
  | video | audio | data
  | other (code : Nat)
  deriving DecidableEq, Repr

/-- A component: PID and kind. -/
structure Comp where
  pid : Nat
  kind : CompKind
  deriving DecidableEq, Repr

/-- A service definition (R8). `strip` is the cue handling STRIP. -/
structure ServiceDef where
  lane : Nat
  comps : List Comp
  pcrPid : Nat
  cuePid : Option Nat
  strip : Bool
  ceiling : Nat
  deriving DecidableEq, Repr

/-- Clock state (R23). -/
inductive ClockState where
  | unlocked | locked | holdover
  deriving DecidableEq, Repr

/-- The clock record of a service (R23). The loss timer holds the arrival tick of the last accepted PCR. -/
structure ClockRec where
  st : ClockState
  sigma : Nat
  cand : Option Nat
  lossTimer : Option Nat
  leads : List Int
  deriving DecidableEq, Repr

/-- The reset column of R23. -/
def ClockRec.reset : ClockRec :=
  { st := .unlocked, sigma := 0, cand := none, lossTimer := none, leads := [] }

/-- Cue kinds (R36). -/
inductive CueKind where
  | out | into | cancel
  deriving DecidableEq, Repr

/-- The content of a cue (R37). -/
structure CueContent where
  splice : Option Nat
  duration : Option Nat
  auto : Bool
  tag : Nat
  deriving DecidableEq, Repr

/-- A record of the cue memory (R38). -/
structure CueRec where
  id : Nat
  kind : CueKind
  content : CueContent
  deriving DecidableEq, Repr

/-- The ten conditions (R104), in the order of Set Masks. -/
inductive Cond where
  | wrap | latearm | forced | trunc | fill | drop | lost | hold | cuebad | unmap
  deriving DecidableEq, Repr

/-- Position of a condition (R201, Set Masks). -/
def Cond.pos : Cond → Nat
  | .wrap => 0 | .latearm => 1 | .forced => 2 | .trunc => 3 | .fill => 4
  | .drop => 5 | .lost => 6 | .hold => 7 | .cuebad => 8 | .unmap => 9

/-- Flags and masks of a service, one position per condition (R104). -/
structure CondRec where
  flags : BitVec 10
  masks : BitVec 10
  deriving DecidableEq, Repr

/-- Flags clear; masks 1 except LOST (R104). -/
def CondRec.reset : CondRec := { flags := 0#10, masks := 0b1110111111#10 }

/-- What the splice record keeps of one service component (R76, R80, R96, R99, R103, R16). `search`: its cut
search on the network is open. `mark`: its next packet carries the resume mark. `unsent`: its marked packet
has not been sent yet. `handedBack`: its PID went back to the network in this insertion. -/
structure CompState where
  replaced : Bool
  search : Bool
  mark : Bool
  unsent : Bool
  handedBack : Bool
  deriving DecidableEq, Repr

/-- A component in network state NETWORK with nothing open (R76). -/
def CompState.reset : CompState :=
  { replaced := false, search := false, mark := false, unsent := false, handedBack := false }

/-- The return of a service (R76). -/
inductive Ret where
  | idle
  | returning (e : Nat)
  | emergency
  deriving DecidableEq, Repr

/-- Who an instance plays for (R76). `ended`: its entry was PREEMPTED, and the outgoing instance plays on until
its components have stopped (R100; the number may name another entry by then). -/
inductive Owner where
  | entry (num : Nat)
  | alert (record : Nat)
  | ended
  deriving DecidableEq, Repr

/-- Phase of an instance (R76). -/
inductive Phase where
  | seeking | playing | ending
  deriving DecidableEq, Repr

/-- The two roles of a service's instances (R76). -/
inductive Role where
  | current | next
  deriving DecidableEq, Repr

/-- The seal values of a clip (R121). -/
structure Seal where
  rate : Nat
  k : Nat
  blocks : Nat
  comps : List Comp
  pcrIndex : Nat
  c0 : Nat
  endPts : Nat
  pcr0 : Nat
  checksum : Nat
  origin : PortId
  deriving DecidableEq, Repr

/-- A page of a clip in a read-ahead or preload slot: its clip page number and its packets. -/
structure Page where
  no : Nat
  pkts : List Pkt
  deriving DecidableEq, Repr

/-- An instance record (R76) with its part of the read-ahead store (R145) and the seek timer of its
search (R81). `accQ`, `accR`: quotient and remainder of k × 27,000,000 by P. -/
structure Inst where
  clip : Nat
  owner : Owner
  phase : Phase
  s : Option Nat
  sEff : Option Nat
  delta : Option Nat
  w : Option Nat
  k : Nat
  accQ : Nat
  accR : Nat
  map : List (Option Nat)
  stopped : List Bool
  wrapRaised : Bool
  seekLimit : Nat
  seekTimer : Option Nat
  overdue : Bool
  fetch : Nat
  pages : List Page
  sealVals : Seal
  chain : List Nat
  deriving DecidableEq, Repr

/-- The clip packet at a service's emission head (R76, R91). -/
structure HeadPkt where
  pkt : Pkt
  comp : Nat
  pid : Nat
  due : Nat
  w : Nat
  role : Role
  deriving DecidableEq, Repr

/-- A request for the next role that waits until the role is free (R77). -/
structure InstReq where
  clip : Nat
  owner : Owner
  s : Option Nat
  deriving DecidableEq, Repr

/-- The standing read request of a service's read-ahead (R137, R147). -/
structure RaReq where
  role : Role
  page : Nat
  deriving DecidableEq, Repr

/-- The splice record of a service (R76). `cut*`: the component cut searches of R80 and R82. `fixE`: E is
to be fixed at the next lead PES start (R43, R74, R180). -/
structure SpliceRec where
  comps : List CompState
  ret : Ret
  retBegun : Bool
  retOverdue : Bool
  retForced : Bool
  retTimer : Option Nat
  retSeek : Nat
  fixE : Bool
  cutX : Option Nat
  cutSeek : Nat
  cutTimer : Option Nat
  cutOverdue : Bool
  sigmaP : Option Nat
  head : Option HeadPkt
  cur : Option Inst
  nxt : Option Inst
  waiting : Option InstReq
  raReq : Option RaReq
  deriving DecidableEq, Repr

/-- The splice record of a service of `n` components after RESETN (R76). -/
def SpliceRec.reset (n : Nat) : SpliceRec :=
  { comps := List.replicate n CompState.reset, ret := .idle, retBegun := false, retOverdue := false,
    retForced := false, retTimer := none, retSeek := 0, fixE := false, cutX := none, cutSeek := 0,
    cutTimer := none, cutOverdue := false, sigmaP := none, head := none, cur := none, nxt := none,
    waiting := none, raReq := none }

/-- A service context (chapter 6). -/
structure Service where
  defn : Option ServiceDef
  clk : ClockRec
  cues : List CueRec
  cond : CondRec
  sp : SpliceRec
  deriving DecidableEq, Repr

/-- An unconfigured context (R9, R104). -/
def Service.reset : Service :=
  { defn := none, clk := ClockRec.reset, cues := [], cond := CondRec.reset, sp := SpliceRec.reset 0 }

/-! ### The schedule (chapter 4) -/

/-- Trigger of an entry (R48). -/
inductive Trigger where
  | cue (tag : Nat)
  | time (t : Nat)
  | now
  deriving DecidableEq, Repr

/-- Return mode of an entry (R48). -/
inductive RetMode where
  | cue
  | duration (d : Nat)
  | clipEnd
  deriving DecidableEq, Repr

/-- Waiting causes (R48). -/
inductive WaitCause where
  | held | pool | clock
  deriving DecidableEq, Repr

/-- State of an entry (R48). -/
inductive EntryState where
  | pending
  | waiting (c : WaitCause)
  | armed
  | active
  deriving DecidableEq, Repr

/-- The cue binding of a fired entry (R42); `flags` is the cue's flags byte (R203). -/
structure Binding where
  cueId : Nat
  flags : Byte
  splice : Option Nat
  duration : Option Nat
  auto : Bool
  deriving DecidableEq, Repr

/-- A schedule entry (R48). `xEnd`: the rebased end of the pod's last clip, from its cut (R99). `podEnded`: the end of the pod
has been reported (R94). -/
structure Entry where
  num : Nat
  origin : PortId
  svc : Nat
  trigger : Trigger
  pod : List Nat
  retMode : RetMode
  window : Nat
  st : EntryState
  a : Option Nat
  binding : Option Binding
  s : Option Nat
  sEff : Option Nat
  e : Option Nat
  commitment : Nat
  podIdx : Nat
  cancelled : Bool
  xEnd : Option Nat
  podEnded : Bool
  deriving DecidableEq, Repr

/-- Results of an entry (R72). -/
inductive EntryResult where
  | completed | truncated | preempted | cancelled | missed | superseded | faulted
  deriving DecidableEq, Repr

/-! ### Alerts (chapter 10) -/

/-- Status of an alert target (R170). -/
inductive TStatus where
  | held | deferred | otherAlert | unavailable | released
  deriving DecidableEq, Repr

/-- A target of an alert record (R170). -/
structure Target where
  svc : Nat
  status : TStatus
  s : Option Nat
  e : Option Nat
  cut : Bool
  byEmergency : Bool
  deriving DecidableEq, Repr

/-- State of an alert record (R170). -/
inductive AlertState where
  | idle | on | ending
  deriving DecidableEq, Repr

/-- End cause of an alert (R170, R171). -/
inductive EndCause where
  | none | expired | cancelled | vacated
  deriving DecidableEq, Repr

/-- An alert record (R170). The remaining time is `remTicks` less the ticks since `timer`, while it runs. -/
structure AlertRec where
  st : AlertState
  id : Nat
  targets : List Target
  clip : Nat
  duration : Nat
  loop : Bool
  timer : Option Nat
  remTicks : Nat
  cause : EndCause
  deriving DecidableEq, Repr

/-- An IDLE record (R170). -/
def AlertRec.idle : AlertRec :=
  { st := .idle, id := 0, targets := [], clip := 0, duration := 0, loop := false, timer := none,
    remTicks := 0, cause := .none }

/-- State of a preload slot (R172). -/
inductive PreloadState where
  | empty | filling | ready
  deriving DecidableEq, Repr

/-- A preload slot (R172). -/
structure Preload where
  st : PreloadState
  clip : Nat
  pages : List Page
  deriving DecidableEq, Repr

/-- An EMPTY slot (R172). -/
def Preload.empty : Preload := { st := .empty, clip := 0, pages := [] }

/-! ### The clip array (chapters 7, 8, 9) -/

/-- The two regions (R117). -/
inductive Region where
  | alert | main
  deriving DecidableEq, Repr

/-- State of a directory record (R125). -/
inductive ClipState where
  | ingesting | good | damaged
  deriving DecidableEq, Repr

/-- Marker state (R125). -/
inductive Marker where
  | none | queued | written | failed
  deriving DecidableEq, Repr

/-- Declared values of an ingest (R125, R154). -/
structure Declared where
  rate : Nat
  kDecl : Nat
  comps : List Comp
  pcrIndex : Nat
  deriving DecidableEq, Repr

/-- A clip directory record (R125): `decl` while INGESTING, `sealVals` when SEALED (`good`) or DAMAGED. -/
structure ClipRec where
  clip : Nat
  region : Region
  chain : List Nat
  st : ClipState
  decl : Option Declared
  sealVals : Option Seal
  marker : Marker
  refs : Nat
  deriving DecidableEq, Repr

/-- The requesters of the flash channel (R137). -/
inductive Requester where
  | readAhead (svc : Nat) (role : Role)
  | preload (slot : Nat)
  | ingest (p : PortId)
  | marker
  | protection
  | checksum (p : PortId)
  | scan
  | eraser (r : Region)
  | releaseEraser
  deriving DecidableEq, Repr

/-- The kinds of program (R119). -/
inductive ProgKind where
  | data (chainIdx first : Nat) (pkts : List Pkt)
  | sealing (v : Seal)
  | damage
  | badBlock
  | protection (ingest erase : Bool)
  deriving DecidableEq, Repr

/-- The kinds of flash operation (R136). -/
inductive OpKind where
  | read
  | program (k : ProgKind)
  | erase
  deriving DecidableEq, Repr

/-- The operation in flight (R136). `orphan`: what it was for has gone (R137, R152). `writes`: the bytes a
program puts on the channel, with their offsets in the page, the spare area from 8,192 (R206). -/
structure FlashOp where
  req : Requester
  kind : OpKind
  block : Nat
  page : Nat
  clip : Nat
  started : Nat
  orphan : Bool
  writes : List (Nat × List Byte)
  deriving DecidableEq, Repr

/-- Supply state (R144). -/
inductive Supply where
  | normal | low
  deriving DecidableEq, Repr

/-- A block on a dirty list, with the identity of the Clip Erase that placed it (R142). -/
structure Dirty where
  block : Nat
  job : Option Nat
  deriving DecidableEq, Repr

/-- A Clip Erase whose blocks are not all erased yet (R142, R165). -/
structure EraseJob where
  id : Nat
  p : PortId
  clip : Nat
  freed : Nat
  bad : Nat
  deriving DecidableEq, Repr

/-- The copy of the protection record (R130). -/
structure ProtCopy where
  ingestLock : Bool
  eraseLock : Bool
  count : Nat
  deriving DecidableEq, Repr

/-- A Protection Release in progress (R143, R185): block 0's outcome once erased, and the counts. -/
structure Release where
  block0 : Option Bool
  freed : Nat
  bad : Nat
  deriving DecidableEq, Repr

/-- A program of the marker queue (R137). -/
structure MarkerReq where
  damage : Bool
  block : Nat
  clip : Nat
  deriving DecidableEq, Repr

/-- What the scan notes of a block that is not free (R132). -/
inductive ScanClass where
  | bad
  | dirty
  | head (clip : Nat) (sealVals : Option Seal) (damaged : Bool)
  | member (clip idx : Nat)
  deriving DecidableEq, Repr

/-- The partial programs that page 0 of a block has been given since its last erase (R119). -/
structure PageMarks where
  sealing : Bool
  damage : Bool
  badBlock : Bool
  deriving DecidableEq, Repr

/-- None yet. -/
def PageMarks.none : PageMarks := { sealing := false, damage := false, badBlock := false }

/-- The flash channel's state (R136). `made`: the partial programs of each block's page 0, which R119 allows once each. -/
structure Flash where
  op : Option FlashOp
  rr : Table Nat
  supply : Supply
  freeA : List Nat
  freeM : List Nat
  dirtyA : List Dirty
  dirtyM : List Dirty
  bad : List Nat
  nextPage : Table Nat
  made : Table PageMarks
  prot : ProtCopy
  unusable : Bool
  release : Option Release
  markerQ : List MarkerReq
  protReq : Option (Bool × Bool)
  scanNext : Nat
  scanNotes : List (Nat × ScanClass)
  scanProt : ProtCopy
  scanMark0 : Bool
  jobs : List EraseJob
  deriving DecidableEq, Repr

/-- The flash channel after RESETN, before its first grant (R136; log 8 for what the scan forms). -/
def Flash.reset : Flash :=
  { op := none, rr := [], supply := .normal, freeA := [], freeM := [], dirtyA := [], dirtyM := [], bad := [],
    nextPage := [], made := [], prot := ⟨false, false, 0⟩, unusable := false, release := none, markerQ := [], protReq := none,
    scanNext := 0, scanNotes := [], scanProt := ⟨false, false, 0⟩, scanMark0 := false, jobs := [] }

/-- State of an ingest (R153). -/
inductive IngestState where
  | none | open_ | closing | ending
  deriving DecidableEq, Repr

/-- State of a page buffer (R153). -/
inductive BufState where
  | empty | filling | full | writing
  deriving DecidableEq, Repr

/-- A page buffer (R153): `page` is its clip page while FULL or WRITING. -/
structure Buf where
  st : BufState
  pkts : List Pkt
  page : Nat
  deriving DecidableEq, Repr

/-- An EMPTY buffer (R153). -/
def Buf.empty : Buf := { st := .empty, pkts := [], page := 0 }

/-- The reply an ingest unit holds (R153). -/
inductive Held where
  | none
  | data (bytes : List Byte)
  | abort
  deriving DecidableEq, Repr

/-- An ingest unit (R153). `programmed`: data programs completed (R169). `endPts`: given at Close (R160). -/
structure Ingest where
  st : IngestState
  clip : Nat
  region : Region
  decl : Declared
  lead : Nat
  stored : Nat
  handed : Nat
  programmed : Nat
  asm : List Byte
  sum : Nat
  c0 : Option Nat
  pcr : Option (Nat × Nat)
  split : Bool
  held : Held
  endPts : Nat
  bufA : Buf
  bufB : Buf
  deriving DecidableEq, Repr

/-- An ingest unit in NONE (R153). -/
def Ingest.reset : Ingest :=
  { st := .none, clip := 0, region := .main, decl := ⟨0, 0, [], 0⟩, lead := 0, stored := 0, handed := 0,
    programmed := 0, asm := [], sum := 0, c0 := none, pcr := none, split := false, held := .none, endPts := 0,
    bufA := Buf.empty, bufB := Buf.empty }

/-- A Clip Checksum in progress (R167). -/
structure Check where
  clip : Nat
  page : Nat
  sum : Nat
  deriving DecidableEq, Repr

/-! ### Control ports (chapter 11) -/

/-- The events of R193, with the fields of R202. `seed` selects the free values of the fields that the
case gives no value (log 11). -/
inductive Event where
  | entryEnd (r : EntryResult) (num svc podIdx first : Nat) (sEff e : Option Nat)
  | condition (svc : Nat) (c : Cond)
  | ingestSealed (clip k blocks checksum : Nat)
  | ingestFault (clip block seed : Nat)
  | checksumDone (clip stored : Nat) (computed : Option Nat) (page : Option Nat) (seed : Nat)
  | eraseDone (clip freed bad : Nat)
  | alertEnd (cause : EndCause) (record id held emergencies : Nat)
  | preloadReady (slot clip seed : Nat)
  | preloadFailed (slot clip page : Nat)
  | protectSet (done : Bool) (copy : ProtCopy) (seed : Nat)
  | protectRelease (block0 : Bool) (copy : ProtCopy) (freed bad : Nat)
  | inputPresent (lane : Nat)
  | inputLost (lane : Nat)
  | overrun (lane : Nat)
  | refLost
  | refRestored
  | supplyAsserted
  | supplyReleased
  | scanDone (records dirty bad : Nat)
  deriving DecidableEq, Repr

/-- Status codes (R191). -/
inductive Status where
  | ok | badcmd | badparam | badchk | busy | denied | protected_ | full | notfound | inuse | duplicate
  | verify | fault | scanning
  deriving DecidableEq, Repr

/-- A reply: the command code it answers, its status and its results (R200). -/
structure Reply where
  code : Byte
  status : Status
  results : List Byte
  deriving DecidableEq, Repr

/-- Receiver states (R188). -/
inductive RxState where
  | hunt | length | body | check
  deriving DecidableEq, Repr

/-- The frame receiver of a port (R188). `got`: the bytes from the first LEN byte, latest first. `stale`: the
port's rate changed since the frame's start byte (R192). -/
structure Rx where
  st : RxState
  len : Nat
  got : List Byte
  lastByte : Nat
  stale : Bool
  deriving DecidableEq, Repr

/-- A receiver in HUNT (R188). -/
def Rx.hunt : Rx := { st := .hunt, len := 0, got := [], lastByte := 0, stale := false }

/-- What the transmitter is sending (R190): the outstanding reply or a refusal reply, and the frame's bytes. -/
structure Tx where
  outstanding : Bool
  frame : List Byte
  deriving DecidableEq, Repr

/-- The outstanding exchange of a port (R190): its command code, and its reply once formed. -/
structure Outstanding where
  code : Byte
  reply : Option Reply
  deriving DecidableEq, Repr

/-- A control link (R187 to R192). `refusalFirst`: the waiting refusal reply became ready before the formed
outstanding reply. `nextRate`: the rate an accepted Port Rate brings at the end of its reply. -/
structure Link where
  rate : Nat
  rx : Rx
  out : Option Outstanding
  refusal : Option Reply
  refusalFirst : Bool
  tx : Option Tx
  nextRate : Option Nat
  deriving DecidableEq, Repr

/-- A link after RESETN (R199). -/
def Link.reset : Link :=
  { rate := 0, rx := Rx.hunt, out := none, refusal := none, refusalFirst := false, tx := none, nextRate := none }

/-- The event queue, LOST-EVENTS and watch set of a port (R193, R195). -/
structure Box where
  queue : List Event
  lostEvents : Bool
  watch : BitVec 48
  deriving DecidableEq, Repr

/-- After RESETN (R199). -/
def Box.reset : Box := { queue := [], lostEvents := false, watch := 0#48 }

/-! ### The whole part -/

/-- Part state (R131). -/
inductive PartState where
  | scanning | running
  deriving DecidableEq, Repr

/-- Clock monitor state (R21). -/
inductive Monitor where
  | reference | backup
  deriving DecidableEq, Repr

/-- The state of the part. Tables are keyed by lane 0 … 3, service 0 … 47, entry number, record and slot
0 … 3, clip id, and port (0 TP, 1 PP, 2 AP). -/
structure State where
  pending : List Instr
  resetAsserted : Bool
  lowsupply : Bool
  refclk : Bool
  part : PartState
  localCount : Nat
  monitor : Monitor
  backupCount : Nat
  restoreCount : Nat
  lanes : Table Lane
  services : Table Service
  entries : Table (Option Entry)
  alerts : Table AlertRec
  preloads : Table Preload
  dir : Table (Option ClipRec)
  flash : Flash
  ingests : Table Ingest
  checks : Table (Option Check)
  links : Table Link
  boxes : Table Box
  freeCtr : Nat
  deriving DecidableEq, Repr

/-- Every register at its value after RESETN (R1, R19, R21, R22, R23, R48, R76, R104, R136, R153, R170, R172,
R199), with nothing granted on the flash channel yet. -/
def State.afterReset : State :=
  { pending := [], resetAsserted := false, lowsupply := false, refclk := true, part := .scanning,
    localCount := 0, monitor := .reference, backupCount := 0, restoreCount := 0, lanes := [], services := [],
    entries := [], alerts := [], preloads := [], dir := [], flash := Flash.reset, ingests := [], checks := [],
    links := [], boxes := [], freeCtr := 0 }

/-- The part right after the release of RESETN with LOWSUPPLY negated: every register at its reset value and
the start-up scan's read of block 0 granted (R131, R138; log 7). -/
def State.reset : State :=
  { State.afterReset with
    flash := { Flash.reset with
      op := some { req := .scan, kind := .read, block := 0, page := 0, clip := 0, started := 0,
                   orphan := false, writes := [] }
      rr := [(3, 61)] } }

/-- Why the part stops: it never does. Every failure the manual names is an effect on the state (a status, an
event, a condition, a block's place), so no step ends in a fault. -/
inductive Fault where
  deriving DecidableEq, Repr

/-- Why a step is refused. -/
inductive Refusal where
  /-- Raised by exec's arm of a row that has no meaning yet; safe. No arm of this model raises it. -/
  | notModelled (mnemonic : String)
  deriving DecidableEq, Repr

end Sys2Proof.Machine
end

