-- ==== Sys2Proof/Machine/Ops.lean ====
section
/-! DEFINITION. The named operations over the state: accessors of every table, the event queues (R193), the
directory and the block lists (R123 to R128). -/

namespace Sys2Proof.Machine

/-! ### Accessors -/

/-- Number of a port (R200). -/
def portIdx : PortId → Nat
  | .tp => 0 | .pp => 1 | .ap => 2

/-- The three ports. -/
def allPorts : List PortId := [.tp, .pp, .ap]

def State.lane (s : State) (k : Nat) : Lane := Table.get Lane.reset s.lanes k
def State.setLane (s : State) (k : Nat) (l : Lane) : State :=
  { s with lanes := Table.set Lane.reset s.lanes k l }
def State.svc (s : State) (i : Nat) : Service := Table.get Service.reset s.services i
def State.setSvc (s : State) (i : Nat) (v : Service) : State :=
  { s with services := Table.set Service.reset s.services i v }
def State.modSvc (s : State) (i : Nat) (f : Service → Service) : State := s.setSvc i (f (s.svc i))
def State.sp (s : State) (i : Nat) : SpliceRec := (s.svc i).sp
def State.modSp (s : State) (i : Nat) (f : SpliceRec → SpliceRec) : State :=
  s.modSvc i (fun v => { v with sp := f v.sp })
def State.entry (s : State) (n : Nat) : Option Entry := Table.get none s.entries n
def State.setEntry (s : State) (n : Nat) (e : Option Entry) : State :=
  { s with entries := Table.set none s.entries n e }
def State.modEntry (s : State) (n : Nat) (f : Entry → Entry) : State := s.setEntry n ((s.entry n).map f)
def State.alert (s : State) (r : Nat) : AlertRec := Table.get AlertRec.idle s.alerts r
def State.setAlert (s : State) (r : Nat) (a : AlertRec) : State :=
  { s with alerts := Table.set AlertRec.idle s.alerts r a }
def State.preload (s : State) (j : Nat) : Preload := Table.get Preload.empty s.preloads j
def State.setPreload (s : State) (j : Nat) (p : Preload) : State :=
  { s with preloads := Table.set Preload.empty s.preloads j p }
def State.clip (s : State) (c : Nat) : Option ClipRec := Table.get none s.dir c
def State.setClip (s : State) (c : Nat) (r : Option ClipRec) : State :=
  { s with dir := Table.set none s.dir c r }
def State.ingest (s : State) (p : PortId) : Ingest := Table.get Ingest.reset s.ingests (portIdx p)
def State.setIngest (s : State) (p : PortId) (g : Ingest) : State :=
  { s with ingests := Table.set Ingest.reset s.ingests (portIdx p) g }
def State.check (s : State) (p : PortId) : Option Check := Table.get none s.checks (portIdx p)
def State.setCheck (s : State) (p : PortId) (c : Option Check) : State :=
  { s with checks := Table.set none s.checks (portIdx p) c }
def State.link (s : State) (p : PortId) : Link := Table.get Link.reset s.links (portIdx p)
def State.setLink (s : State) (p : PortId) (l : Link) : State :=
  { s with links := Table.set Link.reset s.links (portIdx p) l }
def State.box (s : State) (p : PortId) : Box := Table.get Box.reset s.boxes (portIdx p)
def State.setBox (s : State) (p : PortId) (b : Box) : State :=
  { s with boxes := Table.set Box.reset s.boxes (portIdx p) b }
def State.withFlash (s : State) (f : Flash) : State := { s with flash := f }
def State.modFlash (s : State) (f : Flash → Flash) : State := s.withFlash (f s.flash)

/-- The next free value's selector, and the state with the counter advanced (log 11). -/
def State.fresh (s : State) : Nat × State := (s.freeCtr, { s with freeCtr := s.freeCtr + 1 })

/-- The schedule's entries by ascending number (R48). -/
def State.schedule (s : State) : List Entry := Table.vals s.entries

/-- The directory by ascending clip id (R125). -/
def State.directory (s : State) : List ClipRec := Table.vals s.dir

/-- The service numbers that the table lists: every configured context is among them. -/
def State.listed (s : State) : List Nat := Table.keys s.services

/-! ### Event queues (R193) -/

/-- Offer an event to a queue: it joins the tail of a queue that holds fewer than 32, and is lost otherwise. -/
def pushBox (b : Box) (e : Event) : Box :=
  if b.queue.length < 32 then { b with queue := b.queue ++ [e] } else { b with lostEvents := true }

/-- Queue an event at one port (R193). -/
def State.push (s : State) (p : PortId) (e : Event) : State := s.setBox p (pushBox (s.box p) e)

/-- Queue an event at all three ports, each on its own (R193). -/
def State.pushAll (s : State) (e : Event) : State := ((s.push .tp e).push .pp e).push .ap e

/-- The event line of a port (R193). -/
def State.evt (s : State) (p : PortId) : Bool := !(s.box p).queue.isEmpty

/-! ### Definitions of services (R8, R9) -/

/-- Components of a service; none when unconfigured. -/
def Service.defComps (v : Service) : List Comp := (v.defn.map (·.comps)).getD []

/-- Index of the first element that satisfies a test. -/
def firstIdx {α : Type} (f : α → Bool) : List α → Nat → Option Nat
  | [], _ => none
  | x :: r, j => if f x then some j else firstIdx f r (j + 1)

/-- Index of the lead component of a list: the first VIDEO or, where there is none, the first AUDIO (R9, R155). -/
def leadIdx (cs : List Comp) : Option Nat :=
  match firstIdx (fun c => c.kind == .video) cs 0 with
  | some j => some j
  | none => firstIdx (fun c => c.kind == .audio) cs 0

/-- The lane of a service, when configured. -/
def State.laneOf (s : State) (i : Nat) : Option Nat := (s.svc i).defn.map (·.lane)

/-- Settings of the lane of a service. -/
def State.cfgOf (s : State) (i : Nat) : LaneSettings :=
  match s.laneOf i with
  | some k => (s.lane k).cfg
  | none => LaneSettings.reset

/-- The service is configured and its lane is RUNNING (R1, R109: live). -/
def State.live (s : State) (i : Nat) : Bool :=
  match s.laneOf i with
  | some k => (s.lane k).mode == .running
  | none => false

/-- The configured services of a lane, ascending. -/
def State.servicesOf (s : State) (k : Nat) : List Nat := s.listed.filter (fun i => s.laneOf i == some k)

/-! ### The clip directory (R125 to R128) -/

/-- Raise the reference count of a clip (R127). -/
def State.addRef (s : State) (c : Nat) : State :=
  s.setClip c ((s.clip c).map (fun r => { r with refs := r.refs + 1 }))

/-- Lower the reference count of a clip (R127). -/
def State.dropRef (s : State) (c : Nat) : State :=
  s.setClip c ((s.clip c).map (fun r => { r with refs := r.refs - 1 }))

/-- The clip has a record that playout may name: SEALED (R50, R126). -/
def State.sealed (s : State) (c : Nat) : Bool :=
  match s.clip c with
  | some r => r.st == .good
  | none => false

/-- The clip is DAMAGED in the directory. -/
def State.clipDamaged (s : State) (c : Nat) : Bool :=
  match s.clip c with
  | some r => r.st == .damaged
  | none => false

/-- Seal values of a clip, when sealed (R126). -/
def State.sealOf (s : State) (c : Nat) : Option Seal := (s.clip c).bind (·.sealVals)

/-- Region of a block (R117). -/
def blockRegion (b : Nat) : Region := if b < 256 then .alert else .main

/-- Pages of a clip of `k` packets (R120). -/
def pagesOf (k : Nat) : Nat := ceilDiv k 43

/-- Blocks of a clip of `k` packets (R120). -/
def blocksOf (k : Nat) : Nat := ceilDiv k 2752

/-- Packets in clip page `p` of a clip of `k` packets (R120). -/
def pageCount (k p : Nat) : Nat := min 43 (k - 43 * p)

/-! ### Block lists (R123, R124) -/

def Flash.free (f : Flash) : Region → List Nat
  | .alert => f.freeA | .main => f.freeM
def Flash.setFree (f : Flash) (r : Region) (l : List Nat) : Flash :=
  match r with
  | .alert => { f with freeA := l } | .main => { f with freeM := l }
def Flash.dirty (f : Flash) : Region → List Dirty
  | .alert => f.dirtyA | .main => f.dirtyM
def Flash.setDirty (f : Flash) (r : Region) (l : List Dirty) : Flash :=
  match r with
  | .alert => { f with dirtyA := l } | .main => { f with dirtyM := l }

/-- Blocks join the tail of a region's dirty list in the order given (R124). -/
def Flash.addDirty (f : Flash) (r : Region) (bs : List Nat) (job : Option Nat) : Flash :=
  f.setDirty r (f.dirty r ++ bs.map (fun b => { block := b, job := job }))

/-- Put a number in an ascending list without repeats. -/
def insertNat (b : Nat) : List Nat → List Nat
  | [] => [b]
  | x :: r => if b < x then b :: x :: r else if b = x then x :: r else x :: insertNat b r

/-- A block enters the bad set, and its bad-block marker program joins the marker queue (R122, R141). -/
def Flash.addBad (f : Flash) (b : Nat) : Flash :=
  { f with bad := insertNat b f.bad, markerQ := f.markerQ ++ [{ damage := false, block := b, clip := 0 }] }

/-- Next-page index of a block (R118). -/
def Flash.index (f : Flash) (b : Nat) : Nat := Table.get 0 f.nextPage b

/-- Set a block's next-page index (R118). -/
def Flash.setIndex (f : Flash) (b n : Nat) : Flash := { f with nextPage := Table.set 0 f.nextPage b n }

/-- The partial programs that page 0 of a block has had since its erase (R119). -/
def Flash.marks (f : Flash) (b : Nat) : PageMarks := Table.get PageMarks.none f.made b

/-- Set them. -/
def Flash.setMarks (f : Flash) (b : Nat) (m : PageMarks) : Flash :=
  { f with made := Table.set PageMarks.none f.made b m }

/-- What was in flight for a requester has gone: its outcome finds no requester (R137, R152). -/
def Flash.orphan (f : Flash) (who : Requester → Bool) : Flash :=
  { f with op := f.op.map (fun o => if who o.req then { o with orphan := true } else o) }

/-- Remove a clip's record (R128): a queued damage marker is withdrawn, the chain joins the dirty list. -/
def State.removeClip (s : State) (r : ClipRec) (bs : List Nat) (job : Option Nat) : State :=
  let f := s.flash
  let f := { f with markerQ := f.markerQ.filter (fun m => !(m.damage && r.chain.head? == some m.block)) }
  { (s.setClip r.clip none) with flash := f.addDirty r.region bs job }

end Sys2Proof.Machine
end

