-- ==== Sys2Proof/Machine/Flags.lean ====
section
/-! DEFINITION. The condition flags of a service: occurrences, masks and the offers of CONDITION events (R104 to R106). -/

namespace Sys2Proof.Machine

/-- The bit of a condition in flags and masks (R201). -/
def condBit (c : Cond) : BitVec 10 := 1#10 <<< c.pos

/-- Offer a CONDITION event to one port: its watch set must hold the service, and an unread event of the same
service and condition in its queue declines the offer (R105, R106). -/
def offerCondition (s : State) (i : Nat) (c : Cond) (p : PortId) : State :=
  if (s.box p).watch.getLsbD i && !((s.box p).queue.contains (.condition i c)) then s.push p (.condition i c) else s

/-- An occurrence of a condition on a service (R105): the flag is set, and an unmasked one is offered to each
watching port. -/
def raise (s : State) (i : Nat) (c : Cond) : State :=
  let s1 := s.modSvc i (fun v => { v with cond := { v.cond with flags := v.cond.flags ||| condBit c } })
  if (s.svc i).cond.masks.getLsbD c.pos then s1
  else offerCondition (offerCondition (offerCondition s1 i c .tp) i c .pp) i c .ap

/-- Raise a condition when a test holds. -/
def raiseIf (b : Bool) (s : State) (i : Nat) (c : Cond) : State := if b then raise s i c else s

end Sys2Proof.Machine
end

