-- ==== Sys2Proof/Machine/Timebase.lean ====
section
/-! DEFINITION. Service times, the lead and the conversions of chapter 2. -/

namespace Sys2Proof.Machine

/-- A lane setting in milliseconds, as ticks (R20). -/
def msTicks (ms : Nat) : Nat := ms * 27000

/-- A lane setting in milliseconds, as PTS units (R20). -/
def msPts (ms : Nat) : Nat := ms * 90

/-- The time of a service; absent in UNLOCKED (R23). -/
def serviceTime (s : State) (i : Nat) : Option Nat :=
  if (s.svc i).clk.st = .unlocked then none else some (addMod nClk s.localCount (s.svc i).clk.sigma)

/-- λ: the least sample of a lead window, absent while it is empty (R30). -/
def leastLead : List Int → Option Int
  | [] => none
  | x :: r => some (r.foldl min x)

/-- λ of a service (R30). -/
def lead (s : State) (i : Nat) : Option Int := leastLead (s.svc i).clk.leads

/-- floor(c / 300) + λ + x modulo N_PTS, for the service time c now: absent when UNLOCKED or λ is absent (R31, R56). -/
def leadPoint (s : State) (i : Nat) (x : Int) : Option Nat :=
  match serviceTime s i, lead s i with
  | some c, some l => some (addSigned nPts (c / 300) (l + x))
  | _, _ => none

/-- The entry-side PTS estimate (R31). -/
def estimate (s : State) (i : Nat) : Option Nat := leadPoint s i 0

/-- The earliest feasible point F (R56). -/
def earliest (s : State) (i : Nat) : Option Nat := leadPoint s i (msPts (s.cfgOf i).preroll)

/-- ROUND of d / 300 under a rounding mode (R34). -/
def roundDiv (m : Rounding) (d : Int) : Int :=
  match m with
  | .down => d / 300
  | .up => -((-d) / 300)
  | .towardZero => if 0 ≤ d then d / 300 else -((-d) / 300)
  | .nearestEven =>
    let q := d / 300
    let r := d % 300
    if 2 * r < 300 then q else if 300 < 2 * r then q + 1 else if q % 2 = 0 then q else q + 1

/-- Conversion of a target service time to a presentation time (R33). -/
def convert (s : State) (i t : Nat) : Option Nat :=
  match serviceTime s i with
  | some c => leadPoint s i (roundDiv (s.cfgOf i).rounding (sdiff nClk t c))
  | none => none

/-- LATER(a, b) (R58). -/
def later (a b : Option Nat) : Option Nat :=
  match a, b with
  | none, b => b
  | some _, none => none
  | some a, some b => if atOrAfter nPts a b then some a else some b

/-- The lateness of S against the trigger time (R59): N_PTS/2 when the two are exactly that far apart. -/
def lateness (sp : Nat) (a : Option Nat) : Int :=
  match a with
  | none => 0
  | some a => let d := sdiff nPts sp a; if d = -4294967296 then 4294967296 else d

/-- Ticks since a start tick, as a signed difference (R20, R32). -/
def sinceTicks (s : State) (start : Nat) : Int := sdiff nClk s.localCount start

/-- Move the local count forward to a tick that still lies ahead (log 2). -/
def advanceTo (s : State) (t : Nat) : State :=
  if atOrAfter nClk s.localCount t then s else { s with localCount := t % nClk }

/-- A point a deadline counts from, plus the seek limit (R81). -/
def deadline (x seek : Nat) : Nat := addMod nPts x (msPts seek)

/-- The estimate is present and at or after the deadline of a search toward `x` (R81). -/
def pastDeadline (s : State) (i x seek : Nat) : Bool :=
  match estimate s i with
  | some e => atOrAfter nPts e (deadline x seek)
  | none => false

/-- The start of a seek timer when a search opens (R81): running only while the estimate is absent. -/
def openTimer (s : State) (i : Nat) : Option Nat :=
  if (estimate s i).isSome then none else some s.localCount

/-- A seek timer after the estimate may have come or gone (R81). -/
def syncTimer (s : State) (i : Nat) (t : Option Nat) : Option Nat :=
  if (estimate s i).isSome then none else some (t.getD s.localCount)

/-- The seek timer has run for the seek limit (R20, R81). -/
def timerDone (s : State) (t : Option Nat) (seek : Nat) : Bool :=
  match t with
  | some t0 => decide (msTicks seek ≤ sinceTicks s t0)
  | none => false

end Sys2Proof.Machine
end

