-- ==== Sys2Proof/Machine/Splice.lean ====
section
/-! DEFINITION. The splice engine's own acts: component maps, creating and discarding instances, handing E and
handing a PID over (chapter 5). -/

namespace Sys2Proof.Machine

/-! ### Lane tables -/

/-- Entry of a PID in a lane's output table (R17). -/
def Lane.pid (l : Lane) (pid : Nat) : PidEntry := Table.get PidEntry.entry l.pids pid

/-- Replace a PID's entry. -/
def Lane.setPid (l : Lane) (pid : Nat) (e : PidEntry) : Lane :=
  { l with pids := Table.set PidEntry.entry l.pids pid e }

/-- Packets of a PID that the delay FIFO holds (R12). -/
def Lane.fifoCount (l : Lane) (pid : Nat) : Nat := (l.fifo.filter (fun e => pktPid e.pkt == pid)).length

/-- The entry state of R17, with the last output CC kept (R9, R113). -/
def PidEntry.restored (e : PidEntry) : PidEntry := { PidEntry.entry with lastCC := e.lastCC }

/-- Restore the entries of some PIDs (R9, R113). -/
def Lane.restorePids (l : Lane) (pids : List Nat) : Lane :=
  pids.foldl (fun l p => l.setPid p (l.pid p).restored) l

/-- Hand-over of a PID to a clip of a service (R16, R18). -/
def Lane.handOver (l : Lane) (pid svc : Nat) : Lane :=
  l.setPid pid { (l.pid pid) with owner := .clip svc, tail := l.fifoCount pid, prevIn := none }

/-! ### Component maps (R78) -/

/-- Index of the `n`-th component of a kind. -/
def nthOfKind (k : CompKind) : List Comp → Nat → Nat → Option Nat
  | [], _, _ => none
  | c :: r, n, j => if c.kind = k then (match n with | 0 => some j | n + 1 => nthOfKind k r n (j + 1))
                    else nthOfKind k r n (j + 1)

/-- The component map: the n-th clip component of a kind goes to the n-th service component of it (R78). -/
def mapComps (clip svc : List Comp) : List (Option Nat) :=
  (List.range clip.length).map (fun j =>
    match clip[j]? with
    | some c => nthOfKind c.kind svc (((clip.take j).filter (fun d => d.kind == c.kind)).length) 0
    | none => none)

/-- Replace one element of a list. -/
def setIdx {α : Type} (l : List α) (j : Nat) (v : α) : List α := l.set j v

/-! ### Roles and instances -/

def SpliceRec.inst (p : SpliceRec) : Role → Option Inst
  | .current => p.cur | .next => p.nxt
def SpliceRec.setInst (p : SpliceRec) (r : Role) (x : Option Inst) : SpliceRec :=
  match r with
  | .current => { p with cur := x } | .next => { p with nxt := x }

/-- The next role holds a SEEKING instance. -/
def SpliceRec.hasSeeking (p : SpliceRec) : Bool :=
  match p.nxt with
  | some n => n.phase == .seeking
  | none => false

/-- Where a SEEKING instance's search looks (R77, R86). -/
inductive SearchMode where
  | network | clip | wait
  deriving DecidableEq, Repr

/-- The search follows what the service is carrying: it waits while the return has begun or is EMERGENCY (R86). -/
def searchMode (p : SpliceRec) : SearchMode :=
  if p.ret = .emergency ∨ p.retBegun then .wait else if p.cur.isSome then .clip else .network

/-- Discard the instance of a role (R77): its pages, its packet at the emission head and its standing read go
with it, and a read in flight for it finds no requester (R148, R152). -/
def discardRole (s : State) (i : Nat) (r : Role) : State :=
  let s1 := s.modSp i (fun p =>
    { p.setInst r none with
      head := if p.head.map (·.role) = some r then none else p.head
      raReq := if p.raReq.map (·.role) = some r then none else p.raReq })
  s1.modFlash (fun f => f.orphan (fun q => q == .readAhead i r))

/-- Discard what an owner has asked for and that has not cut: its SEEKING instance or its waiting request (R77). -/
def discardSeeking (s : State) (i : Nat) (o : Owner) : State :=
  let s1 : State := match (s.sp i).nxt with
    | some n => if n.phase = .seeking ∧ n.owner = o then discardRole s i .next else s
    | none => s
  s1.modSp i (fun p => { p with waiting := if p.waiting.map (·.owner) = some o then none else p.waiting })

/-- A new SEEKING instance (R76, R77, R78). Its seek timer runs from the opening where S is absent (R101). -/
def newInst (s : State) (i : Nat) (q : InstReq) (r : ClipRec) (v : Seal) : Inst :=
  { clip := q.clip, owner := q.owner, phase := .seeking, s := q.s, sEff := none, delta := none, w := none,
    k := 0, accQ := 0, accR := 0, map := mapComps v.comps (s.svc i).defComps,
    stopped := List.replicate v.comps.length false, wrapRaised := false, seekLimit := (s.cfgOf i).seekLimit,
    seekTimer := if q.s.isSome then openTimer s i else some s.localCount, overdue := false,
    fetch := 0, pages := [], sealVals := v, chain := r.chain }

/-- Create an instance in the next role (R77); UNMAP is raised once when a component is UNMAPPED (R78). -/
def placeInst (s : State) (i : Nat) (q : InstReq) : State :=
  match s.clip q.clip with
  | none => s
  | some r => match r.sealVals with
    | none => s
    | some v =>
      let n := newInst s i q r v
      raiseIf (n.map.any (·.isNone)) (s.modSp i (fun p => { p with nxt := some n })) i .unmap

/-- Ask for an instance in the next role (R77, R100): a SEEKING instance there is discarded, a PLAYING one makes
the request wait. -/
def requestNext (s : State) (i : Nat) (q : InstReq) : State :=
  match (s.sp i).nxt with
  | none => placeInst s i q
  | some n => if n.phase = .seeking then placeInst (discardRole s i .next) i q
              else s.modSp i (fun p => { p with waiting := some q })

/-! ### The return -/

/-- No return, and nothing of one (R76). -/
def SpliceRec.clearReturn (p : SpliceRec) : SpliceRec :=
  { p with ret := .idle, retBegun := false, retOverdue := false, retForced := false, retTimer := none, fixE := false }

/-- The outgoing instance's entry has been PREEMPTED: the instance plays on for no owner (R100). -/
def SpliceRec.disown (p : SpliceRec) : SpliceRec :=
  { p with cur := p.cur.map (fun c => if c.phase = .ending then { c with owner := .ended } else c) }

/-- Hand a return point to the splice engine: the service's return becomes RETURNING toward E, and a value
handed after the return has begun is not used (R95, R97). A replaced E starts its search anew: it is not overdue, and its
seek timer runs from this hand-over (DESIGN CHOICE, log 53). One that was awaited from the next lead PES start is awaited no more
(DESIGN CHOICE, log 69; `keepAwaiting` has the exception). -/
def handE (s : State) (i e : Nat) : State :=
  if (s.sp i).retBegun ∨ (s.sp i).ret = .emergency then s
  else s.modSp i (fun p => { p with ret := .returning e, retOverdue := false, retTimer := openTimer s i,
                                    retSeek := (s.cfgOf i).seekLimit, fixE := false })

/-- E is to be fixed as the PTS of the next lead PES start; `clear` makes E absent until then (R43, R74, R97). -/
def awaitLead (s : State) (i : Nat) (clear : Bool) : State :=
  s.modSp i (fun p => if clear then { p with ret := .idle, retOverdue := false, retTimer := none, fixE := true }
                      else { p with fixE := true })

/-- Hand a return point while one still to be fixed at the next lead PES start goes on being awaited, as long as the return
has not begun (R43, R70, R74, R178, R180; log 42). -/
def keepAwaiting (s : State) (i : Nat) (hand : State → State) : State :=
  (hand s).modSp i (fun p => { p with fixE := (s.sp i).fixE && !p.retBegun })

/-- The return of the service has begun, or an emergency return is under way (R43, R95). -/
def returnBegun (s : State) (i : Nat) : Bool := (s.sp i).retBegun || (s.sp i).ret == .emergency

end Sys2Proof.Machine
end

