-- ==== Sys2Proof/Machine/Scheduler.lean ====
section
/-! DEFINITION. The scheduler: levels, the arming computation, the pool arbiter, re-evaluation and results (chapter 4). -/

namespace Sys2Proof.Machine

/-- Level of an insertion by its origin port (R48, R49). -/
def levelOf : PortId → Nat
  | .tp => 1 | .pp => 2 | .ap => 3

/-- The entries of a service, by ascending number. -/
def entriesOf (s : State) (i : Nat) : List Entry := s.schedule.filter (fun e => e.svc == i)

/-- The ACTIVE entry of a service (R49). -/
def activeEntry (s : State) (i : Nat) : Option Entry := (entriesOf s i).find? (fun e => e.st == .active)

/-- The ARMED entry of a service (R49). -/
def armedEntry (s : State) (i : Nat) : Option Entry := (entriesOf s i).find? (fun e => e.st == .armed)

/-- An alert record has a service in its held set (R170). -/
def AlertRec.holds (a : AlertRec) (i : Nat) : Bool :=
  a.st != .idle && a.targets.any (fun t => t.svc == i && t.status == .held)

/-- The alert record that holds a service at level 3 (R170). -/
def holdingAlert (s : State) (i : Nat) : Option Nat := (List.range 4).find? (fun r => (s.alert r).holds i)

/-- The held level of a service (R49). -/
def heldLevel (s : State) (i : Nat) : Nat :=
  max (match holdingAlert s i with | some _ => 3 | none => 0)
    (max (match activeEntry s i with | some e => levelOf e.origin | none => 0)
      (match armedEntry s i with | some e => levelOf e.origin | none => 0))

/-- The committed sum of a lane's pool account: over its ARMED and ACTIVE entries (R65). -/
def committed (s : State) (k : Nat) : Nat :=
  ((s.schedule.filter (fun e => s.laneOf e.svc == some k && (e.st == .armed || e.st == .active))).map
    (·.commitment)).sum

/-- The largest declared rate among the pod's clips (R48). -/
def podRate (s : State) (pod : List Nat) : Nat :=
  pod.foldl (fun m c => max m (match s.sealOf c with | some v => v.rate | none => 0)) 0

/-- An entry reaches its result, as one act (R72): ENTRY_END at its origin port, its references lowered, its
prefetch discarded, and its record gone from the schedule with its commitment. -/
def endEntry (s : State) (e : Entry) (r : EntryResult) : State :=
  let s1 := if e.st = .armed then discardSeeking s e.svc (.entry e.num) else s
  let s2 := s1.push e.origin (.entryEnd r e.num e.svc e.podIdx (e.pod.headD 0) e.sEff e.e)
  (e.pod.foldl State.dropRef s2).setEntry e.num none

/-- Demote an ARMED entry to WAITING(HELD) (R61, R64). -/
def demote (s : State) (e : Entry) : State :=
  (discardSeeking s e.svc (.entry e.num)).setEntry e.num
    (some { e with st := .waiting .held, s := none, commitment := 0 })

/-- One run of the arming computation on an entry (R56 to R61). The flag says that it demoted an ARMED entry. UNMAP of the
new instance stands before LATEARM (DESIGN CHOICE, log 51). -/
def armRun (s : State) (n : Nat) : State × Bool :=
  match s.entry n with
  | none => (s, false)
  | some e0 =>
    let i := e0.svc
    if e0.pod.any s.clipDamaged then (endEntry s e0 .faulted, false)
    else
      let a := match e0.a, e0.trigger with
        | none, .time t => convert s i t
        | x, _ => x
      let e := { e0 with a := a }
      match later a (earliest s i) with
      | none => (s.setEntry n (some { e with st := .waiting .clock }), false)
      | some sp =>
        if (e.window : Int) < lateness sp a then (endEntry s e .missed, false)
        else if levelOf e.origin ≤ heldLevel s i then (s.setEntry n (some { e with st := .waiting .held }), false)
        else
          let lower := armedEntry s i
          let lowerRate := match lower with | some l => l.commitment | none => 0
          let k := (s.laneOf i).getD 0
          let rate := podRate s e.pod
          if (s.lane k).cfg.pool < committed s k - lowerRate + rate then
            (s.setEntry n (some { e with st := .waiting .pool }), false)
          else
            let s1 := match lower with | some l => demote s l | none => s
            let s2 := s1.setEntry n (some { e with st := .armed, s := some sp, commitment := rate })
            let s3 := requestNext s2 i { clip := e.pod.headD 0, owner := .entry n, s := some sp }
            (raiseIf (a.isSome && a != some sp) s3 i .latearm, lower.isSome)

/-- Entry numbers, higher level first and, within a level, in the given order: of the schedule, by ascending number (R66,
R67). -/
def byLevel (es : List Entry) : List Nat := [3, 2, 1].flatMap (fun l => (es.filter (fun e => levelOf e.origin == l)).map (·.num))

/-- The WAITING(POOL) entries of a lane in the arbiter's order (R66). -/
def poolQueue (s : State) (k : Nat) : List Nat :=
  byLevel (s.schedule.filter (fun e => s.laneOf e.svc == some k && e.st == .waiting .pool))

/-- The entry stands in a state. -/
def inState (s : State) (n : Nat) (st : EntryState) : Bool :=
  match s.entry n with
  | some e => e.st == st
  | none => false

/-- One run of the pool arbiter over its queue: it stops at the first entry that still waits for pool (R66). -/
def arbiterPass : List Nat → State → Bool → State × Bool
  | [], s, d => (s, d)
  | n :: r, s, d =>
    if inState s n (.waiting .pool) then
      let (s1, d1) := armRun s n
      if inState s1 n (.waiting .pool) then (s1, d || d1) else arbiterPass r s1 (d || d1)
    else arbiterPass r s d

/-- The pool arbiter of a lane: it runs once more after a run that demoted an entry (R66). -/
def arbiterLoop : Nat → State → Nat → State
  | 0, s, _ => s
  | f + 1, s, k =>
    let (s1, d) := arbiterPass (poolQueue s k) s false
    if d then arbiterLoop f s1 k else s1

/-- A freeing of a lane's pool (R66). An entry is demoted at most once in a row of runs, so 256 runs suffice. -/
def poolFreed (s : State) (k : Nat) : State := arbiterLoop 257 s k

/-- Run the arming computation, and the arbiter when it demoted an entry (R61). -/
def armAndArbitrate (s : State) (n : Nat) : State :=
  let k := match s.entry n with | some e => (s.laneOf e.svc).getD 0 | none => 0
  let (s1, d) := armRun s n
  if d then poolFreed s1 k else s1

/-- Re-evaluate entries in order, each that still waits with the cause (R67). -/
def reevalList (c : WaitCause) : List Nat → State → State
  | [], s => s
  | n :: r, s => reevalList c r (if inState s n (.waiting c) then armAndArbitrate s n else s)

/-- Re-evaluation of a service's WAITING entries of one cause: HELD at a release, CLOCK at lead present (R67). -/
def reeval (s : State) (i : Nat) (c : WaitCause) : State :=
  reevalList c (byLevel ((entriesOf s i).filter (fun e => e.st == .waiting c))) s

/-- An ARMED or ACTIVE entry has ended: the arbiter runs, then the service's WAITING(HELD) entries (R67, R72). -/
def afterEnd (s : State) (i : Nat) : State := reeval (poolFreed s ((s.laneOf i).getD 0)) i .held

/-- End an entry and, if it was ARMED or ACTIVE, do what its release sets in motion (R72). -/
def endAndRelease (s : State) (e : Entry) (r : EntryResult) : State :=
  let s1 := endEntry s e r
  if e.st = .armed ∨ e.st = .active then afterEnd s1 e.svc else s1

/-- The condition of a TIME trigger (R53). -/
def timeDue (s : State) (e : Entry) : Bool :=
  match e.trigger, serviceTime s e.svc with
  | .time t, some c => e.st == .pending && atOrAfter nClk c (subMod nClk t (msTicks (s.cfgOf e.svc).preroll))
  | _, _ => false

/-- Fire the PENDING TIME entries of a service whose condition holds (R53), in ascending number (DESIGN CHOICE, log 51). -/
def fireDue (s : State) (i : Nat) : State :=
  ((entriesOf s i).map (·.num)).foldl (fun s n =>
    match s.entry n with
    | some e => if timeDue s e then armAndArbitrate s n else s
    | none => s) s

/-- First lock of a service (R54): each PENDING TIME entry is judged, in ascending number. -/
def firstLock (s : State) (i : Nat) : State :=
  ((entriesOf s i).map (·.num)).foldl (fun s n =>
    match s.entry n with
    | some e =>
      match e.st, e.trigger, serviceTime s i with
      | .pending, .time t, some c =>
        if (e.window : Int) * 300 < sdiff nClk c t then endEntry s e .missed
        else if timeDue s e then armAndArbitrate s n else s
      | _, _, _ => s
    | none => s) s

/-- Fix or replace E of an ACTIVE entry and hand it to the splice engine (R70). -/
def setE (s : State) (n e : Nat) : State :=
  match s.entry n with
  | some x => handE (s.setEntry n (some { x with e := some e })) x.svc e
  | none => s

/-- A rebased end PTS (R70, R99). -/
def endOf (v : Seal) (delta : Nat) : Nat := addMod nPts v.endPts delta

/-- The activation of an ARMED entry at its first cut (R69, R70): a lower ACTIVE entry ends PREEMPTED at the
same report, and E is fixed where the return mode allows. -/
def activate (s : State) (n sEff delta : Nat) (v : Seal) : State :=
  match s.entry n with
  | none => s
  | some e =>
    let i := e.svc
    let one := e.pod.length == 1
    let lower := activeEntry s i
    let s1 := match lower with
      | some l => (endEntry s l .preempted).modSp i SpliceRec.disown
      | none => s
    let s2 := s1.modSp i SpliceRec.clearReturn
    let s3 := s2.setEntry n (some { e with st := .active, sEff := some sEff, podIdx := 0,
                                           xEnd := if one then some (endOf v delta) else none })
    let s4 := match e.retMode with
      | .duration d => setE s3 n (addMod nPts sEff d)
      | .clipEnd => if one then setE s3 n (endOf v delta) else s3
      | .cue => match e.binding with
        | some b => match b.duration, b.auto with
          | some d, true => setE s3 n (addMod nPts (b.splice.getD sEff) d)
          | _, _ => s3
        | none => s3
    if lower.isSome then poolFreed s4 ((s.laneOf i).getD 0) else s4

/-- The cut of a pod transition (R69, R94): the pod index rises, and CLIP_END fixes E at the last clip. -/
def podAdvance (s : State) (n delta : Nat) (v : Seal) : State :=
  match s.entry n with
  | none => s
  | some e =>
    let last := e.podIdx + 2 == e.pod.length
    let s1 := s.setEntry n (some { e with podIdx := e.podIdx + 1, xEnd := if last then some (endOf v delta) else e.xEnd })
    if last ∧ e.retMode = .clipEnd ∧ !e.cancelled then setE s1 n (endOf v delta) else s1

/-- The end of the pod is reported, once (R70, R94): E of a CUE entry, when still absent, is the rebased end. A return point
still to be fixed at the next lead PES start goes on waiting for it (R43, R74; DEDUCED, log 42). -/
def podEnd (s : State) (n delta : Nat) (v : Seal) : State :=
  match s.entry n with
  | some e =>
    let s1 := s.setEntry n (some { e with podEnded := true })
    if e.retMode = .cue ∧ e.e = none then keepAwaiting s1 e.svc (fun s => setE s n (endOf v delta)) else s1
  | none => s

/-- The end of an ACTIVE entry's return (R71, R99): its result, with TRUNC or FILL, and the release. The
condition is raised before ENTRY_END is queued (DESIGN CHOICE, log 51). -/
def returnEnded (s : State) (e : Entry) (emergency : Bool) (point : Option Nat) : State :=
  if emergency then endAndRelease s e .faulted
  else if e.cancelled then endAndRelease s e .cancelled
  else match e.xEnd, point with
    | some x, some p =>
      let d := sdiff nPts p x
      if d < 0 then endAndRelease (raise s e.svc .trunc) e .truncated
      else if d = 0 then endAndRelease s e .completed
      else endAndRelease (raise s e.svc .fill) e .completed
    | _, _ => endAndRelease (raise s e.svc .trunc) e .truncated

end Sys2Proof.Machine
end

