-- ==== Sys2Proof/Machine/Alerts.lean ====
section
/-! DEFINITION. The alert unit: taking and giving up services, ending and releasing records (chapter 10). -/

namespace Sys2Proof.Machine

/-- Change the target of a record for one service. -/
def AlertRec.modTarget (a : AlertRec) (i : Nat) (f : Target → Target) : AlertRec :=
  { a with targets := a.targets.map (fun t => if t.svc = i then f t else t) }

def State.modAlert (s : State) (r : Nat) (f : AlertRec → AlertRec) : State := s.setAlert r (f (s.alert r))

/-- The target of a record for one service. -/
def AlertRec.target (a : AlertRec) (i : Nat) : Option Target := a.targets.find? (fun t => t.svc == i)

/-- A READY preload slot names the clip (R176). -/
def readySlot (s : State) (c : Nat) : Bool :=
  (List.range 4).any (fun j => (s.preload j).st == .ready && (s.preload j).clip == c)

/-- The splice point of a level-3 take (R176). -/
def alertPoint (s : State) (i c : Nat) : Option Nat :=
  leadPoint s i (if readySlot s c then 9000 else msPts (s.cfgOf i).preroll)

/-- The record's target as HELD, with the splice point given for it (R176). -/
def holdTarget (s : State) (r i : Nat) : State :=
  s.modAlert r (fun a => a.modTarget i (fun t =>
    { t with status := .held, s := alertPoint s i a.clip, e := none, cut := false }))

/-- Take a service for a record whose target is HELD already (R64, R176): the ARMED entry is demoted and the
arbiter runs on the pool it frees, then a level-3 instance is asked for. -/
def takeService (s : State) (r i : Nat) : State :=
  let s1 := holdTarget s r i
  let q : InstReq := { clip := (s1.alert r).clip, owner := .alert r, s := ((s1.alert r).target i).bind (·.s) }
  match armedEntry s1 i with
  | some e => requestNext (poolFreed (demote s1 e) ((s.laneOf i).getD 0)) i q
  | none => requestNext s1 i q

/-- Targets of a record with a status. -/
def AlertRec.count (a : AlertRec) (f : Target → Bool) : Nat := (a.targets.filter f).length

/-- A record returns to IDLE (R171): ALERT_END at AP, its clip reference released, its fields cleared. -/
def endRecord (s : State) (r : Nat) (c : EndCause) : State :=
  let a := s.alert r
  let s1 := s.push .ap (.alertEnd c r a.id (a.count (fun t => t.status == .held || t.status == .released))
    (a.count (·.byEmergency)))
  (s1.dropRef a.clip).setAlert r AlertRec.idle

/-- The test of a record after a departure or a dropped claim (R171, R181). -/
def testRecord (s : State) (r : Nat) : State :=
  let a := s.alert r
  let held := a.targets.any (fun t => t.status == .held)
  let deferred := a.targets.any (fun t => t.status == .deferred)
  match a.st with
  | .idle => s
  | .ending => if held then s else endRecord s r a.cause
  | .on => if held || deferred then s else endRecord s r .vacated

/-- The ON record in which a service is DEFERRED (R181). -/
def deferredIn (s : State) (i : Nat) : Option Nat :=
  (List.range 4).find? (fun r => (s.alert r).st == .on &&
    (s.alert r).targets.any (fun t => t.svc == i && t.status == .deferred))

/-- After a service has left a held set (R181): an ON record in which it is DEFERRED takes it from the network,
unless that record's clip is DAMAGED; in every other case the service is released. -/
def passOn (s : State) (i : Nat) : State :=
  match deferredIn s i with
  | some r =>
    if s.clipDamaged (s.alert r).clip then
      testRecord (reeval (s.modAlert r (fun a => a.modTarget i (fun t => { t with status := .unavailable }))) i .held) r
    else takeService s r i
  | none => reeval s i .held

/-- Mark a HELD target RELEASED (R181). -/
def leaveHeld (s : State) (r i : Nat) (emergency : Bool) : State :=
  s.modAlert r (fun a => a.modTarget i (fun t => { t with status := .released, byEmergency := emergency }))

/-- A service leaves the held set of a record (R181): it is passed on or released first, with the test of a record that gives up its
claim, and the record that it leaves is tested last (DESIGN CHOICE, log 68). -/
def depart (s : State) (r i : Nat) (emergency : Bool) : State :=
  testRecord (passOn (leaveHeld s r i emergency) i) r

/-- The cut of a level-3 instance is reported (R64, R177): the target is marked as cut and the service's ACTIVE
entry ends PREEMPTED. Cuts of loop repeats change nothing. -/
def alertCut (s : State) (r i : Nat) : State :=
  match (s.alert r).target i with
  | some t =>
    if t.cut then s
    else
      let s1 := s.modAlert r (fun a => a.modTarget i (fun t => { t with cut := true }))
      let s2 := s1.modSp i SpliceRec.clearReturn
      match activeEntry s i with
      | some e => poolFreed ((endEntry s2 e .preempted).modSp i SpliceRec.disown) ((s.laneOf i).getD 0)
      | none => s2
  | none => s

/-- Hand E for a HELD target that has cut (R178, R180). -/
def alertE (s : State) (r i e : Nat) : State :=
  handE (s.modAlert r (fun a => a.modTarget i (fun t => { t with e := some e }))) i e

/-- The clip of a record is not repeated: loop clear, or the clip DAMAGED (R178). -/
def lastPass (s : State) (r : Nat) : Bool := !(s.alert r).loop || s.clipDamaged (s.alert r).clip

/-- The record hands the end of its instance `c` as the return point (R178). One still to be fixed at the next lead PES start goes
on waiting for it (DEDUCED, log 42). -/
def handClipEnd (s : State) (r i : Nat) (c : Inst) : State :=
  keepAwaiting s i (fun s => alertE s r i (endOf c.sealVals (c.delta.getD 0)))

/-- One HELD target of a record that enters ENDING (R180). -/
def endTarget (s : State) (r : Nat) (t : Target) : State :=
  let i := t.svc
  if t.status ≠ .held then s
  else if !t.cut then depart (discardSeeking s i (.alert r)) r i false
  else match (s.sp i).ret with
    | .idle =>
      match estimate s i with
      | some e => alertE s r i e
      | none => awaitLead s i true
    | .returning e0 =>
      if (s.sp i).retBegun then s
      else match estimate s i with
        | some e => if atOrAfter nPts e e0 then s else alertE s r i e
        | none => s
    | .emergency => s

/-- A record enters ENDING (R179, R180): claims are dropped, then the held targets are treated in the order of the record's
list, uncut instances discarded and returns handed (DESIGN CHOICE for this order, log 64). -/
def endAlert (s : State) (r : Nat) (c : EndCause) (rem : Nat) : State :=
  let s1 := s.modAlert r (fun a =>
    { a with st := .ending, cause := c, timer := none, remTicks := rem,
             targets := a.targets.map (fun t => if t.status = .deferred then { t with status := .otherAlert } else t) })
  let ts := (s1.alert r).targets
  testRecord (ts.foldl (fun s t => endTarget s r t) s1) r

/-- The remaining time of a record in ticks (R170, R179). -/
def remaining (s : State) (a : AlertRec) : Nat :=
  match a.timer with
  | some t => a.remTicks - (sinceTicks s t).toNat
  | none => a.remTicks

end Sys2Proof.Machine
end

