-- ==== Sys2Proof/Machine/SpliceEvents.lean ====
section
/-! DEFINITION. What happens to a splice: cuts, resumes, the begin and the end of a return, emergency returns and
damaged clips (R79 to R102, R129). -/

namespace Sys2Proof.Machine

/-! ### Owners -/

/-- The owner whose insertion the service carries: the alert record whose hold has cut, or else the ACTIVE entry. -/
def playingOwner (s : State) (i : Nat) : Option Owner :=
  let entry := (activeEntry s i).map (fun e => Owner.entry e.num)
  match holdingAlert s i with
  | some r => match (s.alert r).target i with
    | some t => if t.cut then some (.alert r) else entry
    | none => entry
  | none => entry

/-- The report of a cut to the owner of its instance (R79, R94): a first cut activates an entry, a later one is a
pod transition; a level-3 cut goes to the alert unit. -/
def reportCut (s : State) (i : Nat) (o : Owner) (sEff delta : Nat) (v : Seal) : State :=
  match o with
  | .entry n =>
    match s.entry n with
    | some e => if e.st = .active then podAdvance s n delta v else activate s n sEff delta v
    | none => s
  | .alert r => alertCut s r i
  | .ended => s

/-! ### Roles of standing and granted reads -/

/-- The next instance's standing read, its packet at the head and its read in flight follow it to the current role. -/
def SpliceRec.toCurrent (p : SpliceRec) : SpliceRec :=
  { p with cur := p.nxt, nxt := none,
           head := p.head.map (fun h => { h with role := .current }),
           raReq := p.raReq.map (fun q => { q with role := .current }) }

/-- The read in flight for a service's next instance becomes one for its current instance. -/
def Flash.toCurrent (f : Flash) (i : Nat) : Flash :=
  { f with op := f.op.map (fun o =>
      if o.req = .readAhead i .next ∧ !o.orphan then { o with req := .readAhead i .current } else o) }

/-! ### Pacing (R87 to R90) -/

/-- Δ of a cut (R87). -/
def cutDelta (sEff : Nat) (v : Seal) : Nat := subMod nPts sEff v.c0

/-- Departure service time of an instance's packet k (R89). -/
def departure (n : Inst) : Nat :=
  addMod nClk (addMod nClk n.sealVals.pcr0 (300 * n.delta.getD 0)) n.accQ

/-- Due time of an instance's packet k (R90). -/
def dueOf (s : State) (i : Nat) (n : Inst) : Nat :=
  addMod nClk (subMod nClk (departure n) ((s.sp i).sigmaP.getD 0)) (msTicks (s.cfgOf i).delay)

/-- The packet index advances over one packet: the departure accumulator carries, and a page passed leaves its
slot (R89, R148). -/
def Inst.advance (n : Inst) : Inst :=
  let r := n.accR + 27000000
  let k := n.k + 1
  { n with k := k, accQ := n.accQ + r / n.sealVals.rate, accR := r % n.sealVals.rate,
           pages := n.pages.filter (fun g => decide (k < 43 * g.no + g.pkts.length)) }

/-- The packet at the instance's index, when its page is in the store. -/
def Inst.packet (n : Inst) : Option Pkt :=
  (n.pages.find? (fun g => g.no == n.k / 43)).bind (fun g => g.pkts[n.k % 43]?)

/-- Index of the clip component of a packet. -/
def Inst.compOf (n : Inst) (b : Pkt) : Option Nat := firstIdx (fun c => c.pid == pktPid b) n.sealVals.comps 0

/-- Service component to which a clip component is mapped (R78). -/
def Inst.mapped (n : Inst) (ci : Nat) : Option Nat := (n.map[ci]?).join

/-- The clip component is stopped. -/
def Inst.isStopped (n : Inst) (ci : Nat) : Bool := n.stopped.getD ci false

/-- Stop a clip component; an instance with a stopped component is ENDING (R76). -/
def Inst.stop (n : Inst) (ci : Nat) : Inst := { n with stopped := setIdx n.stopped ci true, phase := .ending }

/-- Lead component of a clip (R78, R155). -/
def Inst.leadComp (n : Inst) : Option Nat := leadIdx n.sealVals.comps

/-- The instance has sent its last packet from the store. -/
def Inst.spent (n : Inst) : Bool := n.k == n.sealVals.k

/-! ### Cuts from the network (R79 to R82) -/

/-- A component becomes REPLACED, with nothing else of it open. -/
def CompState.cut (c : CompState) : CompState :=
  { c with replaced := true, search := false, mark := false, unsent := false, handedBack := false }

/-- The merger is told of the hand-over of a component's PID (R16). -/
def handOverComp (s : State) (i c : Nat) : State :=
  match s.laneOf i, (s.svc i).defComps[c]? with
  | some k, some x => s.setLane k ((s.lane k).handOver x.pid i)
  | _, _ => s

/-- The cut of the SEEKING instance `n` at the lead component `c` of the network (R79, R90); the search of every
other component that is still on the network opens (R80). A component that is REPLACED already, from a lower entry whose
clip has run out, gets none, and a search of the lower cut gives way to the one toward the new S_eff (DESIGN CHOICE,
log 72). -/
def networkCut (s : State) (i c : Nat) (n : Inst) (sEff : Nat) : State :=
  let v := n.sealVals
  let delta := cutDelta sEff v
  let d := msTicks (s.cfgOf i).delay
  let w := addMod nClk s.localCount d
  let clk := (s.svc i).clk
  let pace := if clk.st = .unlocked then subMod nClk (addMod nClk v.pcr0 (300 * delta) + d) w else clk.sigma
  let n' := { n with phase := .playing, sEff := some sEff, delta := some delta, w := some w,
                     seekTimer := none, overdue := false }
  let s1 := s.modSp i (fun p =>
    { ({ p with nxt := some n' }).toCurrent with
      comps := p.comps.mapIdx (fun j x =>
        if j = c then x.cut else if x.replaced then x else { x with search := true, handedBack := false })
      cutX := some sEff, cutSeek := n.seekLimit, cutTimer := openTimer s i, cutOverdue := false
      sigmaP := some (p.sigmaP.getD pace) })
  let s2 := s1.modFlash (fun f => f.toCurrent i)
  reportCut (handOverComp s2 i c) i n.owner sEff delta v

/-- The cut of another component (R80, R82). -/
def componentCut (s : State) (i c : Nat) : State :=
  handOverComp (s.modSp i (fun p => { p with comps := p.comps.modify c CompState.cut })) i c

/-! ### The return (R95, R96, R99) -/

/-- Stop the clip components mapped to the service components of a test (R76: an instance with one is ENDING). -/
def Inst.stopMapped (n : Inst) (f : Nat → Bool) : Inst :=
  let l := n.stopped.mapIdx (fun ci b => b || (match n.mapped ci with | some j => f j | none => false))
  { n with stopped := l, phase := if l = n.stopped then n.phase else .ending }

/-- The begin of a return (R94, R95): the SEEKING instance of the same owner is discarded, the component searches
close, and what is mapped to a component still on the network is discarded. -/
def beginReturn (s : State) (i : Nat) : State :=
  if (s.sp i).retBegun then s
  else
    let s1 : State := match playingOwner s i with
      | some o => discardSeeking s i o
      | none => s
    s1.modSp i (fun p =>
      let uncut := fun j => match p.comps[j]? with | some c => !c.replaced | none => false
      { p with retBegun := true, fixE := false, cutX := none, cutTimer := none, cutOverdue := false
               comps := p.comps.map (fun c => { c with search := false })
               cur := p.cur.map (fun n => n.stopMapped uncut)
               nxt := p.nxt.map (fun n => if n.phase = .seeking then n else n.stopMapped uncut)
               head := match p.head with
                 | some h => if uncut h.comp then none else some h
                 | none => none })

/-- A component resumes (R96): it is NETWORK, and its marked packet is still to be sent. -/
def resumeComp (s : State) (i c : Nat) : State :=
  (beginReturn s i).modSp i (fun p =>
    { p with comps := p.comps.modify c (fun x => { x with replaced := false, unsent := true }) })

/-- Every component is NETWORK with its marked packet sent, and no instance of the returning owner is left (R99): one of a
preempted entry that has not finished is no such instance. -/
def returnDone (s : State) (i : Nat) : Bool :=
  let p := s.sp i
  p.ret != .idle && p.retBegun && p.comps.all (fun c => !c.replaced && !c.unsent)
    && (match p.cur with
        | some n => some n.owner != playingOwner s i
        | none => true)
    && (match p.nxt with
        | some n => n.phase == .seeking && some n.owner != playingOwner s i
        | none => true)

/-- The splice record at the end of a return (R99): the values of R76, a SEEKING instance kept. A mark that a
component of R103 still owes to its next packet stays. -/
def SpliceRec.returned (p : SpliceRec) : SpliceRec :=
  { SpliceRec.reset p.comps.length with
    comps := p.comps.map (fun c => { CompState.reset with mark := c.mark })
    nxt := p.nxt, waiting := p.waiting, raReq := p.raReq }

/-- The end of a return (R99): the record is reset, with an outgoing instance of a preempted entry discarded, and the end is
reported to the owner. -/
def finishReturn (s : State) (i : Nat) : State :=
  let p := s.sp i
  let emergency := p.ret == .emergency
  let point := match p.ret with | .returning e => some e | _ => none
  let s0 := if p.cur.isSome then discardRole s i .current else s
  let s1 := s0.modSp i SpliceRec.returned
  match playingOwner s i with
  | some (.entry n) => match s1.entry n with
    | some e => returnEnded s1 e emergency point
    | none => s1
  | some (.alert r) => depart s1 r i emergency
  | _ => s1

/-! ### Cuts from a clip (R84, R85) -/

/-- The incoming instance takes its cut in the next role; its timer now serves the stops of the outgoing one. -/
def incoming (s : State) (i : Nat) (n : Inst) (sEff w : Nat) : Inst :=
  { n with phase := .playing, sEff := some sEff, delta := some (cutDelta sEff n.sealVals), w := some w,
           seekTimer := openTimer s i, overdue := false }

/-- The cut at a packet of the outgoing lead component `ci`, whose due time is `w` (R84). -/
def clipCut (s : State) (i ci : Nat) (n : Inst) (sEff w : Nat) : State :=
  let s1 := s.modSp i (fun p =>
    { p with cur := p.cur.map (fun o => o.stop ci), nxt := some (incoming s i n sEff w) })
  reportCut s1 i n.owner sEff (cutDelta sEff n.sealVals) n.sealVals

/-- The cut at exhaustion (R85): `o` is the outgoing instance, its index one beyond its last packet. S_eff is S; the
manual gives none for an instance whose S is absent, and the model's is free (log 19). -/
def exhaustCut (s0 : State) (i : Nat) (o n : Inst) : State :=
  let fr := s0.fresh
  let s := if n.s.isSome then s0 else fr.2
  let sEff := n.s.getD ((Config.freePts fr.1).toNat)
  let s1 := s.modSp i (fun p =>
    { p with cur := p.cur.map (fun o => { o with stopped := o.stopped.map (fun _ => true), phase := .ending })
             nxt := some (incoming s i n sEff (dueOf s i o)) })
  reportCut s1 i n.owner sEff (cutDelta sEff n.sealVals) n.sealVals

/-! ### Emergency returns and damaged clips (R102, R129) -/

/-- An emergency return of the owner `o` (R102): every instance goes but a SEEKING one of another owner, the head is
emptied, the searches close, and the seek timer runs. -/
def startEmergency (s : State) (i : Nat) (o : Owner) : State :=
  let s1 := discardRole s i .current
  let s2 : State := match (s1.sp i).nxt with
    | some n => if n.phase = .seeking ∧ n.owner ≠ o then s1 else discardRole s1 i .next
    | none => s1
  s2.modSp i (fun p =>
    { p with ret := .emergency, retBegun := true, retOverdue := false, retForced := false
             retTimer := some s2.localCount, retSeek := (s2.cfgOf i).seekLimit, fixE := false
             cutX := none, cutTimer := none, cutOverdue := false, head := none
             comps := p.comps.map (fun c => { c with search := false })
             waiting := if p.waiting.map (·.owner) = some o then none else p.waiting })

/-- What an uncorrectable page read for an instance `n` of a role does by its state (R102). The mark on the clip comes
before it and can have discarded the instance already: then nothing is left to do. -/
def instanceFault (s : State) (i : Nat) (r : Role) (n : Inst) : State :=
  if ((s.sp i).inst r).map (fun x => (x.owner, x.clip)) ≠ some (n.owner, n.clip) then s
  else if some n.owner = playingOwner s i then startEmergency s i n.owner
  else match n.owner with
    | .ended => discardRole s i r
    | .entry e => match s.entry e with
      | some x => endAndRelease (discardRole s i r) x .faulted
      | none => discardRole s i r
    | .alert a => depart (discardRole s i r) a i false

/-- The ARMED entries whose first clip is `c`, ended FAULTED with their instances discarded (R102): in ascending number, each
end acted on before the next (DESIGN CHOICE, log 59). -/
def faultArmed (s : State) (c : Nat) : State :=
  ((s.schedule.filter (fun e => e.st == .armed && e.pod.head? == some c)).map (·.num)).foldl (fun s n =>
    match s.entry n with
    | some e => if e.st = .armed then endAndRelease s e .faulted else s
    | none => s) s

/-- The directory marks a SEALED clip DAMAGED and asks for its damage marker (R129); a clip in another state stays
as it is. -/
def markDamaged (s : State) (c : Nat) : State :=
  match s.clip c with
  | some r =>
    if r.st = .good then
      let s1 := s.setClip c (some { r with st := .damaged, marker := .queued })
      let s2 := s1.modFlash (fun f =>
        { f with markerQ := f.markerQ ++ [{ damage := true, block := r.chain.headD 0, clip := c }] })
      faultArmed s2 c
    else s
  | none => s

end Sys2Proof.Machine
end

