-- ==== Sys2Proof/Machine/ReadAhead.lean ====
section
/-! DEFINITION. The read-ahead store: fill, the choice of the next page, and copies from a preload slot (R145 to R150). -/

namespace Sys2Proof.Machine

/-- Pages of an instance's clip. -/
def Inst.pageTotal (n : Inst) : Nat := pagesOf n.sealVals.k

/-- The fill of a service: the slots that hold a page (R145). -/
def SpliceRec.fill (p : SpliceRec) : Nat :=
  (match p.cur with | some n => n.pages.length | none => 0)
    + (match p.nxt with | some n => n.pages.length | none => 0)

/-- An instance in the next role wants a page: it has one not yet fetched and holds fewer than 4 (R147). -/
def Inst.wantsPage (n : Inst) : Bool := decide (n.fetch < n.pageTotal) && decide (n.pages.length < 4)

/-- The next page to fetch (R147). -/
def choosePage (p : SpliceRec) : Option RaReq :=
  let nextWants := match p.nxt with | some n => n.wantsPage | none => false
  let forCurrent : Option RaReq := match p.cur with
    | some n => if n.fetch < n.pageTotal ∧ (n.pages.length < 4 ∨ !nextWants) then
        some { role := .current, page := n.fetch } else none
    | none => none
  if p.fill < 8 then
    match forCurrent with
    | some q => some q
    | none => match p.nxt with
      | some n => if n.wantsPage then some { role := .next, page := n.fetch } else none
      | none => none
  else none

/-- Place a page for an instance (R148). -/
def Inst.place (n : Inst) (g : Page) : Inst := { n with pages := n.pages ++ [g], fetch := n.fetch + 1 }

/-- The lowest preload slot's copy of a clip page (R150). -/
def preloadPage (s : State) (c no : Nat) : Option Page :=
  ((List.range 4).filterMap (fun j =>
    let q := s.preload j
    if q.st ≠ .empty ∧ q.clip = c then q.pages.find? (fun g => g.no == no) else none)).head?

/-- The page that a chosen fetch takes from a preload slot: for a level-3 instance, below page 16 (R150). -/
def copyOf (s : State) (i : Nat) (q : RaReq) : Option Page :=
  match (s.sp i).inst q.role with
  | some n => match n.owner with
    | .alert _ => if q.page < 16 then preloadPage s n.clip q.page else none
    | _ => none
  | none => none

/-- The service's requester holds a request: standing, or granted and not yet completed (R137). -/
def raBusy (s : State) (i : Nat) : Bool :=
  (s.sp i).raReq.isSome || (match s.flash.op with
    | some o => o.req == .readAhead i .current || o.req == .readAhead i .next
    | none => false)

/-- The requester chooses (R147): a copy from a preload slot at once, or else a standing request. A request that stands is not
chosen again when a next instance comes to want pages (DESIGN CHOICE, log 74). -/
def choose (s : State) (i : Nat) : Option State :=
  if raBusy s i then none
  else match choosePage (s.sp i) with
    | none => none
    | some q => match copyOf s i q with
      | some g => some (s.modSp i (fun p => p.setInst q.role ((p.inst q.role).map (·.place g))))
      | none => some (s.modSp i (fun p => { p with raReq := some q }))

/-- The clip is within 4 pages of its end (R149). -/
def Inst.nearEnd (n : Inst) : Bool := decide (n.pageTotal - n.k / 43 ≤ 4)

end Sys2Proof.Machine
end

