-- ==== Sys2Proof/Machine/Emission.lean ====
section
/-! DEFINITION. The emission head: packets leaving the read-ahead store are examined, discarded, or mapped, rebased
and placed (R84, R85, R88, R91, R95). -/

namespace Sys2Proof.Machine

/-- Rebased PTS of a PES start of an instance's packet (R88). -/
def rebasedPts (n : Inst) (b : Pkt) : Option Nat := (pktPes b).map (fun p => addMod nPts p.pts (n.delta.getD 0))

/-- A present PTS at or after a point. -/
def ptsAt (pts : Option Nat) (x : Nat) : Bool :=
  match pts with
  | some v => atOrAfter nPts v x
  | none => false

/-- The lead search of a SEEKING instance is overdue (R81, R101). -/
def seekOverdue (s : State) (i : Nat) (n : Inst) : Bool :=
  n.overdue || (match n.s with | some x => pastDeadline s i x n.seekLimit | none => false)
    || timerDone s n.seekTimer n.seekLimit

/-- The search of the outgoing components toward the incoming instance's S_eff is overdue (R84). -/
def stopOverdue (s : State) (i : Nat) (n : Inst) : Bool :=
  n.overdue || (match n.sEff with | some x => pastDeadline s i x n.seekLimit | none => false)
    || timerDone s n.seekTimer n.seekLimit

/-- The cut that a lead packet with this PTS gives a SEEKING instance: S_eff, and whether it is forced (R79, R81,
R84, R101). -/
def cutPoint (overdue : Bool) (n : Inst) (pts : Option Nat) : Option (Nat × Bool) :=
  match n.s with
  | some x => if overdue then some (x, true) else if ptsAt pts x then pts.map (·, false) else none
  | none => if overdue then some (n.sealVals.c0, true) else pts.map (·, false)

/-- The lane of a service has its input (R7, R98). -/
def inputThere (s : State) (i : Nat) : Bool :=
  match s.laneOf i with
  | some k => (s.lane k).inputPresent
  | none => false

/-- The stop at E of a running component of the current instance, or its forced stop when the return is overdue (R95, R98).
While the lane's input is lost there is neither: the instance plays on till its material is spent (R98; log 49). -/
def stopsAtE (s : State) (i : Nat) (pts : Option Nat) : Bool :=
  match (s.sp i).ret with
  | .returning e => inputThere s i && (ptsAt pts e || (s.sp i).retOverdue)
  | _ => false

/-- A return toward E is overdue, and the clip components still running stop (R98). -/
def stopsOverdue (s : State) (i : Nat) : Bool :=
  match (s.sp i).ret with
  | .returning _ => inputThere s i && (s.sp i).retOverdue
  | _ => false

/-- The clip cut that a packet of the current instance's component `c` brings (R84, R86). -/
def clipCutOf (s : State) (i : Nat) (n : Inst) (c : Nat) (pts : Option Nat) : Option (Inst × Nat × Bool) :=
  match (s.sp i).nxt with
  | some nx =>
    if nx.phase = .seeking ∧ searchMode (s.sp i) = .clip ∧ n.leadComp = some c then
      (cutPoint (seekOverdue s i nx) nx pts).map (fun r => (nx, r.1, r.2))
    else none
  | none => none

/-- The stop of another outgoing component at S_eff, and whether it is forced (R84). -/
def outgoingStop (s : State) (i : Nat) (pts : Option Nat) : Option Bool :=
  match (s.sp i).nxt with
  | some nx =>
    if nx.phase ≠ .seeking then
      if stopOverdue s i nx then some true
      else if (match nx.sEff with | some x => ptsAt pts x | none => false) then some false else none
    else none
  | none => none

/-- Stop a component of the current instance. -/
def stopCur (s : State) (i c : Nat) : State := s.modSp i (fun p => { p with cur := p.cur.map (·.stop c) })

/-- A packet of the current instance leaves the store (R91): the state after it is discarded, or none when it is
kept. `n` is the instance with its index advanced, `due` the packet's due time. One packet that brings both the return's stop
and a newcomer's cut brings the stop, and FORCED is raised before a cut is reported (DESIGN CHOICE, log 58). -/
def examineCur (s : State) (i : Nat) (n : Inst) (b : Pkt) (due : Nat) : Option State :=
  match n.compOf b with
  | none => some s
  | some c =>
    let pts := rebasedPts n b
    if n.isStopped c then some s
    else if stopsAtE s i pts then some (stopCur (beginReturn s i) i c)
    else match clipCutOf s i n c pts with
      | some (nx, sEff, forced) => some (clipCut (raiseIf forced s i .forced) i c nx sEff due)
      | none => match outgoingStop s i pts with
        | some forced => some (stopCur (raiseIf forced s i .forced) i c)
        | none => if (n.mapped c).isNone then some s else none

/-- A packet of the incoming instance leaves the store (R91, R98). -/
def examineNext (s : State) (i : Nat) (n : Inst) (b : Pkt) : Option State :=
  match n.compOf b with
  | none => some s
  | some c =>
    if n.isStopped c then some s
    else if stopsOverdue s i then
      some ((beginReturn s i).modSp i (fun p => { p with nxt := p.nxt.map (·.stop c) }))
    else if (n.mapped c).isNone then some s else none

/-- A kept packet is mapped, rebased and placed at the head; one whose PID has gone back to the network is dropped
with DROP (R16, R88, R90). -/
def placeHead (s : State) (i : Nat) (r : Role) (n : Inst) (b : Pkt) (due : Nat) : State :=
  match (n.compOf b).bind n.mapped with
  | none => s
  | some j => match (s.sp i).comps[j]?, (s.svc i).defComps[j]? with
    | some x, some d =>
      if x.handedBack then raise s i .drop
      else s.modSp i (fun p =>
        { p with head := some { pkt := setPid (rebase b (n.delta.getD 0)) d.pid, comp := j, pid := d.pid,
                                due := due, w := n.w.getD due, role := r } })
    | _, _ => s

/-- An outgoing instance that has just run out with a lead search still open on it: the cut at exhaustion (R85). -/
def exhaust (s : State) (i : Nat) : State :=
  match (s.sp i).cur, (s.sp i).nxt with
  | some o, some nx =>
    if o.spent ∧ nx.phase = .seeking ∧ searchMode (s.sp i) = .clip then exhaustCut s i o nx else s
  | _, _ => s

/-- The current instance of a level-3 hold has just run out with a repeat of its clip behind it, SEEKING or cut in. Where the clip
is DAMAGED by then, the clip's end is handed all the same (R178), unless a return point has been handed already; the repeat goes on
under R85 and R95 (DEDUCED, log 70). Without a repeat the clip's end is handed by `loopStep`. -/
def repeatEnd (s : State) (i : Nat) : State :=
  match (s.sp i).cur, (s.sp i).nxt with
  | some o, some nx => match o.owner with
    | .alert r => if o.spent ∧ nx.owner = .alert r ∧ (s.sp i).ret = .idle ∧ lastPass s r then handClipEnd s r i o else s
    | _ => s
  | _, _ => s

/-- Take the packet that an instance offers: its departure from the read-ahead store (R91). WRAP is raised before the packet is
examined, and a cut at exhaustion comes before the end of the pod is reported (DESIGN CHOICE, log 58). -/
def takePacket (s0 : State) (i : Nat) (r : Role) (n0 : Inst) (b : Pkt) : State :=
  let due := dueOf s0 i n0
  let wrapped := wraps b (n0.delta.getD 0) && !n0.wrapRaised
  let n := { n0.advance with wrapRaised := n0.wrapRaised || wrapped }
  let s := raiseIf wrapped (s0.modSp i (fun p => p.setInst r (some n))) i .wrap
  match r with
  | .current =>
    exhaust (repeatEnd (match examineCur s i n b due with
      | some s1 => s1
      | none => placeHead s i .current n b due) i) i
  | .next =>
    match examineNext s i n b with
    | some s1 => s1
    | none => placeHead s i .next n b due

/-- An incoming packet is held while a component of the outgoing instance mapped to the same service component has
not stopped (R84). -/
def heldBack (p : SpliceRec) (n : Inst) (b : Pkt) : Bool :=
  match p.cur, (n.compOf b).bind n.mapped with
  | some o, some j =>
    !o.spent && (List.range o.map.length).any (fun c => o.mapped c == some j && !o.isStopped c)
  | _, _ => false

/-- What the current instance offers. -/
def offerCur (p : SpliceRec) : Option (Inst × Pkt) := p.cur.bind (fun n => n.packet.map (n, ·))

/-- What an instance in the next role offers once it has cut (R91). -/
def offerNext (p : SpliceRec) : Option (Inst × Pkt) :=
  match p.nxt with
  | some n => if n.phase ≠ .seeking then
      (n.packet.bind (fun b => if heldBack p n b then none else some (n, b))) else none
  | none => none

/-- Fill an empty emission head by one offer, the earlier departure first and the current instance's on a tie (R91). -/
def fillHead (s : State) (i : Nat) : Option State :=
  let p := s.sp i
  if p.head.isSome then none
  else match offerCur p, offerNext p with
    | some (n, b), none => some (takePacket s i .current n b)
    | none, some (n, b) => some (takePacket s i .next n b)
    | some (n, b), some (m, d) =>
      if sdiff nClk (departure m) (departure n) < 0 then some (takePacket s i .next m d)
      else some (takePacket s i .current n b)
    | none, none => none

end Sys2Proof.Machine
end

