-- ==== Sys2Proof/Machine/Settle.lean ====
section
/-! DEFINITION. What happens in the splice engine "whenever" its conditions hold: waiting requests, pod transitions,
loop repeats, the end of a clip, promotions, ends of returns, head fills and read requests, until none is left. -/

namespace Sys2Proof.Machine

/-- A request that waited takes the freed next role (R77). -/
def serveWaiting (s : State) (i : Nat) : Option State :=
  match (s.sp i).waiting, (s.sp i).nxt with
  | some q, none => some (placeInst (s.modSp i (fun p => { p with waiting := none })) i q)
  | _, _ => none

/-- The next role is free and nothing waits for it. -/
def SpliceRec.nextFree (p : SpliceRec) : Bool := p.nxt.isNone && p.waiting.isNone

/-- The pod of an ACTIVE entry at its current clip `c` (R93, R94): a transition is requested, the emergency return
of a DAMAGED following clip is made, or the end of the pod is reported. It is reported once: E that a Cancel Entry makes absent
afterwards stays so until the next lead PES start (R74). -/
def podStep (s : State) (i : Nat) (c : Inst) (e : Entry) : Option State :=
  let p := s.sp i
  let delta := c.delta.getD 0
  match e.pod[e.podIdx + 1]? with
  | some f =>
    if p.nextFree ∧ !p.retBegun ∧ p.ret ≠ .emergency ∧ c.nearEnd then
      if s.clipDamaged f then some (startEmergency s i c.owner)
      else if (s.sealOf f).isSome then
        some (requestNext s i { clip := f, owner := c.owner, s := some (endOf c.sealVals delta) })
      else none
    else none
  | none => if c.spent ∧ c.phase = .playing ∧ e.podEnded = false then some (podEnd s e.num delta c.sealVals) else none

/-- The end of the clip of a level-3 hold (R178): while the record is ON and no return has been handed, a loop repeat is
requested; with loop clear, or the clip DAMAGED, the clip's end is handed as the return point, in ON and in ENDING. A
return point handed already stands (DEDUCED, log 42). -/
def loopStep (s : State) (i : Nat) (c : Inst) (r : Nat) : Option State :=
  let p := s.sp i
  if p.ret ≠ .idle then none
  else if lastPass s r then (if c.spent then some (handClipEnd s r i c) else none)
  else if (s.alert r).st = .on ∧ !p.fixE ∧ p.nextFree ∧ c.nearEnd then
    some (requestNext s i { clip := (s.alert r).clip, owner := c.owner, s := some (endOf c.sealVals (c.delta.getD 0)) })
  else none

/-- What an instance's owner does as its clip comes to its end (R93, R94, R178). -/
def ownerStep (s : State) (i : Nat) (c : Inst) : Option State :=
  match c.owner with
  | .entry n => match s.entry n with
    | some e => if e.st = .active then podStep s i c e else none
    | none => none
  | .alert r => loopStep s i c r
  | .ended => none

/-- The clip last cut in comes to its end: the current instance's, while no other has cut in behind it, and else that of
the incoming one, whose last packet can leave the store before it is promoted (R76; log 18). -/
def clipEndStep (s : State) (i : Nat) : Option State :=
  let p := s.sp i
  match p.cur, p.nxt with
  | some c, some n => if n.phase ≠ .seeking then ownerStep s i n else if c.phase = .playing then ownerStep s i c else none
  | some c, none => ownerStep s i c
  | none, _ => none

/-- A transition or repeat that finds its outgoing clip already run out cuts at exhaustion at once (R85). An instance of
another owner created then takes no such cut: it searches the network once the outgoing one has finished (DESIGN CHOICE,
log 54). -/
def lateExhaust (s : State) (i : Nat) : Option State :=
  match (s.sp i).cur, (s.sp i).nxt with
  | some o, some nx =>
    if o.spent ∧ nx.phase = .seeking ∧ nx.owner = o.owner ∧ searchMode (s.sp i) = .clip then some (exhaustCut s i o nx)
    else none
  | _, _ => none

/-- All mapped components of an instance have stopped (R76); one with none mapped runs to its end (log 18). -/
def Inst.allStopped (n : Inst) : Bool :=
  (List.range n.map.length).any (fun c => (n.mapped c).isSome)
    && (List.range n.map.length).all (fun c => (n.mapped c).isNone || n.isStopped c)

/-- The instance of a role has finished (R76): all its mapped components have stopped, or its last packet has left the
store, and none of its packets is at the head. A SEEKING instance has sent nothing and finishes nothing. -/
def finished (p : SpliceRec) (r : Role) : Bool :=
  match p.inst r with
  | some o => o.phase != .seeking && (o.allStopped || o.spent) && p.head.map (·.role) != some r
  | none => false

/-- An instance finishes (R76), or, with the current role free, the incoming one is promoted (R86). -/
def finishOrPromote (s : State) (i : Nat) : Option State :=
  let p := s.sp i
  match p.cur with
  | some _ =>
    if finished p .current then some (discardRole s i .current)
    else if finished p .next then some (discardRole s i .next)
    else none
  | none => match p.nxt with
    | some n =>
      if n.phase ≠ .seeking then some ((s.modSp i SpliceRec.toCurrent).modFlash (fun f => f.toCurrent i)) else none
    | none => none

/-- The first of the acts that is due on a service, taken: the order of the acts is the model's (DESIGN CHOICE, log 55). -/
def svcStep (s : State) (i : Nat) : Option State :=
  (serveWaiting s i).or <| (clipEndStep s i).or <| (lateExhaust s i).or <| (finishOrPromote s i).or <|
    (if returnDone s i then some (finishReturn s i) else none).or <| (fillHead s i).or <| choose s i

/-- The first act due on any of the services, ascending, taken (DESIGN CHOICE, log 55). -/
def anyStep (s : State) : List Nat → Option State
  | [] => none
  | i :: r => match svcStep s i with
    | some s1 => some s1
    | none => anyStep s r

/-- Take the acts due until none is left (log 20 for the bound). -/
def settleLoop : Nat → State → State
  | 0, s => s
  | f + 1, s => match anyStep s s.listed with
    | some s1 => settleLoop f s1
    | none => s

/-- The splice engine at rest. -/
def settle (s : State) : State := settleLoop 65536 s

end Sys2Proof.Machine
end

