-- ==== Sys2Proof/Machine/Ports.lean ====
section
/-! DEFINITION. The control links: frames, replies, the refusal slot and the transmitter (R187 to R192, R199, R200). -/

namespace Sys2Proof.Machine

/-! ### Encodings of R200 -/

/-- Status code (R191). -/
def Status.code : Status → Nat
  | .ok => 0 | .badcmd => 1 | .badparam => 2 | .badchk => 3 | .busy => 4 | .denied => 5 | .protected_ => 6
  | .full => 7 | .notfound => 8 | .inuse => 9 | .duplicate => 10 | .verify => 11 | .fault => 12 | .scanning => 13

/-- A flag as a byte (R200). -/
def flagByte (b : Bool) : Byte := if b then 1 else 0

/-- A number as one byte. -/
def byte1 (v : Nat) : Byte := BitVec.ofNat 8 v

/-- A PTS value, or its absent encoding (R200). -/
def ptsBytes : Option Nat → List Byte
  | some v => leBytes 5 v
  | none => List.replicate 5 0xFF#8

/-- A tick value, or its absent encoding (R200). -/
def tickBytes : Option Nat → List Byte
  | some v => leBytes 6 v
  | none => List.replicate 6 0xFF#8

/-- λ in two's complement, or its absent encoding (R200). -/
def leadBytes : Option Int → List Byte
  | some v => leBytes 5 ((v % 1099511627776).toNat)
  | none => [0xFF#8, 0xFF#8, 0xFF#8, 0xFF#8, 0x7F#8]

/-- A 2-byte identifier, or 0xFFFF when absent (R200). -/
def idBytes : Option Nat → List Byte
  | some v => leBytes 2 v
  | none => [0xFF#8, 0xFF#8]

/-- Kind code of a component (R201). -/
def CompKind.code : CompKind → Nat
  | .video => 1 | .audio => 2 | .data => 3 | .other c => c

/-- Kind of a code (R201). -/
def kindOf : Nat → Option CompKind
  | 1 => some .video | 2 => some .audio | 3 => some .data | _ => none

/-- Eight component positions: PID and kind, unused ones 0 (R201). -/
def compBytes (cs : List Comp) : List Byte :=
  (List.range 8).flatMap (fun j => match cs[j]? with
    | some c => leBytes 2 c.pid ++ [byte1 c.kind.code]
    | none => [0, 0, 0])

/-- The free value of a 1, 2 or 4 byte field (log 11): field `j` of the occurrence `seed`. -/
def freeBytes (n seed j : Nat) : List Byte := leBytes n (Config.freeField seed j).toNat

/-! ### Reply frames -/

/-- A reply frame: start byte, LEN, body, CHK (11 section 11.2, R200). -/
def Reply.frame (r : Reply) : List Byte :=
  let body := r.code :: byte1 r.status.code :: r.results
  let counted := leBytes 2 body.length ++ body
  0x4B#8 :: counted ++ [byte1 (256 - byteSum counted % 256)]

/-- A formed outstanding reply waits for the transmitter. -/
def Link.formedWaits (l : Link) : Option Reply :=
  match l.tx with
  | some t => if t.outstanding then none else l.out.bind (·.reply)
  | none => l.out.bind (·.reply)

/-- Send the outstanding reply. -/
def Link.sendOut (l : Link) (r : Reply) : Link := { l with tx := some { outstanding := true, frame := r.frame } }

/-- Send the refusal reply. -/
def Link.sendRefusal (l : Link) (r : Reply) : Link :=
  { l with tx := some { outstanding := false, frame := r.frame }, refusal := none, refusalFirst := false }

/-- A free transmitter takes what became ready first (R190). -/
def Link.startTx (l : Link) : Link :=
  match l.tx with
  | some _ => l
  | none => match l.formedWaits, l.refusal with
    | some r, some q => if l.refusalFirst then l.sendRefusal q else l.sendOut r
    | some r, none => l.sendOut r
    | none, some q => l.sendRefusal q
    | none, none => l

/-- A refusal reply takes the slot, replacing one that has not begun to be sent (R190). -/
def Link.refuse (l : Link) (code : Byte) (st : Status) : Link :=
  { l with refusal := some { code := code, status := st, results := [] },
           refusalFirst := l.formedWaits.isNone }.startTx

/-- The outstanding reply is formed (R190). -/
def Link.form (l : Link) (st : Status) (results : List Byte) : Link :=
  match l.out with
  | some o => { l with out := some { o with reply := some { code := o.code, status := st, results := results } } }.startTx
  | none => l

/-- The end of the transmission of a frame (R190, R192): the port's rate changes at the end of a Port Rate reply, and
a frame then in progress is stale. -/
def Link.sent (l : Link) : Link :=
  match l.tx with
  | none => l
  | some t =>
    let l1 := if t.outstanding then { l with tx := none, out := none } else { l with tx := none }
    let l2 : Link := if t.outstanding then
        match l1.nextRate with
        | some r => { l1 with rate := r, nextRate := none, rx := { l1.rx with stale := l1.rx.st != .hunt } }
        | none => l1
      else l1
    l2.startTx

/-- Form the outstanding reply of a port. -/
def answer (s : State) (p : PortId) (st : Status) (results : List Byte) : State :=
  s.setLink p ((s.link p).form st results)

/-! ### Judging a frame (R189) -/

/-- The command codes of R201. -/
def isCommand (c : Nat) : Bool :=
  [0x01, 0x02, 0x03, 0x04, 0x05, 0x10, 0x11, 0x12, 0x13, 0x14, 0x15, 0x20, 0x21, 0x22, 0x30, 0x31, 0x32, 0x33,
   0x34, 0x35, 0x36, 0x37, 0x40, 0x41, 0x42, 0x43, 0x44, 0x45].contains c

/-- A command is admitted from a port (R189): the entries from TP and PP only, the alert commands from AP only. -/
def admitted (p : PortId) (c : Nat) : Bool :=
  if c = 0x20 ∨ c = 0x21 then p != .ap
  else if 0x40 ≤ c ∧ c ≤ 0x44 then p == .ap
  else true

/-- The commands taken in SCANNING (R198). -/
def takenInScan (c : Nat) : Bool := 1 ≤ c && c ≤ 4

/-- Body length of a command (R201); Ingest Data has 2 … 1,025. -/
def lengthOk (c n : Nat) : Bool :=
  match c with
  | 0x01 => n == 2 | 0x02 => n == 2 | 0x03 => n == 3 | 0x04 => n == 3 | 0x05 => n == 9
  | 0x10 => n == 21 | 0x11 => n == 37 | 0x12 => n == 5 | 0x13 => n == 5 | 0x14 => n == 3 | 0x15 => n == 4
  | 0x20 => n == 29 | 0x21 => n == 4 | 0x22 => n == 4
  | 0x30 => n == 37 | 0x31 => decide (2 ≤ n ∧ n ≤ 1025) | 0x32 => n == 9 | 0x33 => n == 2 | 0x34 => n == 4
  | 0x35 => n == 4 | 0x36 => n == 4 | 0x37 => n == 4
  | 0x40 => n == 6 | 0x41 => n == 58 | 0x42 => n == 4 | 0x43 => n == 3 | 0x44 => n == 2 | 0x45 => n == 2
  | _ => false

/-- Cases 2 to 5 of R189 for a command code that is the part's. -/
def judgeCommand (s : State) (p : PortId) (c : Nat) : Option Status :=
  let l := s.link p
  if l.out.isSome ∨ l.rx.stale then some .busy
  else if !admitted p c then some .denied
  else if s.part = .scanning ∧ !takenInScan c then some .scanning
  else none

/-- Cases 1 to 6 of R189 for a complete frame: the refusal, or none when the command is taken. -/
def judgeFrame (s : State) (p : PortId) (body : List Byte) (chk : Byte) : Option Status :=
  let l := s.link p
  let c := (body.headD 0).toNat
  if byteSum (leBytes 2 body.length ++ body ++ [chk]) % 256 ≠ 0 then some .badchk
  else if l.out.isSome ∨ l.rx.stale then some .busy
  else if !isCommand c then some .badcmd
  else match judgeCommand s p c with
    | some st => some st
    | none => if lengthOk c body.length then none else some .badparam

/-- The receiver of a port returns to HUNT (R188). -/
def toHunt (s : State) (p : PortId) : State := s.setLink p { (s.link p) with rx := Rx.hunt }

/-- A complete frame is answered by a refusal (R190): a BADCHK with no reply outstanding is an ordinary exchange, the
others go through the refusal slot (log 9). -/
def refuseFrame (s : State) (p : PortId) (code : Byte) (st : Status) : State :=
  let l := (toHunt s p).link p
  if st = .badchk ∧ l.out.isNone then
    (toHunt s p).setLink p ({ l with out := some { code := code, reply := none } }.form st [])
  else (toHunt s p).setLink p (l.refuse code st)

/-! ### Taking a command -/

/-- The answer of a command's owning rule: the state with its effects, and its reply unless that is held. -/
structure Ans where
  s : State
  reply : Option (Status × List Byte)

/-- OK with results. -/
def ok (s : State) (results : List Byte) : Ans := { s := s, reply := some (.ok, results) }

/-- A status without results. -/
def err (s : State) (st : Status) : Ans := { s := s, reply := some (st, []) }

/-- The owning rule's answer is formed as the reply of the port's exchange (R190). -/
def Ans.done (a : Ans) (p : PortId) : State :=
  match a.reply with
  | some (st, results) => answer a.s p st results
  | none => a.s

/-- A command's frame is taken: the port's exchange is open from here (R190). -/
def openExchange (s : State) (p : PortId) (code : Nat) : State :=
  let s1 := toHunt s p
  s1.setLink p { (s1.link p) with out := some { code := byte1 code, reply := none } }

/-- The arrival of a command's whole frame (R189): refused under cases 2 to 5, or taken (log 37). While RESETN is
asserted the port receives nothing (R199). -/
def command (p : PortId) (code : Nat) (s : State) (run : State → Ans) : State :=
  if s.resetAsserted then s
  else match judgeCommand s p code with
    | some st => refuseFrame s p (byte1 code) st
    | none => (run (openExchange s p code)).done p

end Sys2Proof.Machine
end

