-- ==== Sys2Proof/Machine/Ingest.lean ====
section
/-! DEFINITION. The ingest units: buffers, frames of data, and the outcomes of their programs (R153 to R163). -/

namespace Sys2Proof.Machine

/-! ### Buffers (R153, R157). `false` is buffer A, `true` buffer B. -/

def Ingest.buf (g : Ingest) (b : Bool) : Buf := if b then g.bufB else g.bufA
def Ingest.setBuf (g : Ingest) (b : Bool) (x : Buf) : Ingest := if b then { g with bufB := x } else { g with bufA := x }

/-- The buffer in a state, A first. -/
def Ingest.find (g : Ingest) (st : BufState) : Option Bool :=
  if g.bufA.st = st then some false else if g.bufB.st = st then some true else none

/-- A FULL buffer becomes WRITING as soon as the other is not WRITING (R157). -/
def Ingest.pumpFull (g : Ingest) : Ingest :=
  match g.find .full, g.find .writing with
  | some b, none => g.setBuf b { g.buf b with st := .writing }
  | _, _ => g

/-- In OPEN, whenever no buffer is FILLING and one is EMPTY, the EMPTY one becomes FILLING (R157). -/
def Ingest.pumpFill (g : Ingest) : Ingest :=
  if g.st = .open_ then
    match g.find .filling, g.find .empty with
    | none, some b => g.setBuf b { st := .filling, pkts := [], page := 0 }
    | _, _ => g
  else g

def Ingest.pump (g : Ingest) : Ingest := g.pumpFull.pumpFill

/-- The FILLING buffer is handed as the next clip page (R157, R160). -/
def Ingest.hand (g : Ingest) (b : Bool) : Ingest :=
  { g.setBuf b { g.buf b with st := .full, page := g.handed } with handed := g.handed + 1 }

/-- Free positions of the buffers (R156). -/
def Ingest.freePositions (g : Ingest) : Nat :=
  match g.find .filling with
  | some b => 43 - (g.buf b).pkts.length + (if (g.buf (!b)).st = .empty then 43 else 0)
  | none => 0

/-! ### Observation and storing (R157, R158) -/

/-- The four observations of a stored packet (R158). -/
def Ingest.observe (g : Ingest) (b : Pkt) : Ingest :=
  let pid := pktPid b
  let leadPid := (g.decl.comps[g.lead]?).map (·.pid)
  let pcrPid := (g.decl.comps[g.decl.pcrIndex]?).map (·.pid)
  let c0 := match g.c0 with
    | some x => some x
    | none => if leadPid = some pid then (pktPes b).map (·.pts) else none
  let pcr := match g.pcr with
    | some x => some x
    | none => if pcrPid = some pid then
        (match pktPcr b with
          | some (base, ext) => if ext < 300 then some (g.stored, base * 300 + ext) else none
          | none => none)
      else none
  { g with split := g.split || splitHeader b, c0 := c0, pcr := pcr, sum := (g.sum + byteSum b) % 65536 }

/-- Store a completed packet of a declared PID; another is not stored (R157). -/
def Ingest.store (g : Ingest) (b : Pkt) : Ingest :=
  if g.decl.comps.any (fun c => c.pid == pktPid b) then
    match g.find .filling with
    | some x =>
      let g1 := g.observe b
      let buf := { g1.buf x with pkts := (g1.buf x).pkts ++ [b] }
      let g2 := { g1.setBuf x buf with stored := g.stored + 1 }
      (if buf.pkts.length = 43 then g2.hand x else g2).pump
    | none => g
  else g

/-- The packets that a frame completes, and the tail it leaves (R156). -/
def Ingest.split188 (g : Ingest) (data : List Byte) : List Pkt × List Byte :=
  let l := g.asm ++ data
  let n := l.length / 188
  ((List.range n).map (fun j => slice l (188 * j) 188), l.drop (188 * n))

/-- Completed packets on declared PIDs. -/
def Ingest.declared (g : Ingest) (ps : List Pkt) : Nat :=
  (ps.filter (fun b => g.decl.comps.any (fun c => c.pid == pktPid b))).length

/-- Take a frame (R157). -/
def Ingest.take (g : Ingest) (data : List Byte) : Ingest :=
  let r := g.split188 data
  { r.1.foldl Ingest.store g with asm := r.2 }

/-- A bad boundary (R156). -/
def Ingest.badBoundary (g : Ingest) (data : List Byte) : Bool :=
  (g.split188 data).1.any (fun b => b.headD 0 != 0x47#8) || (g.asm.isEmpty && data.headD 0 != 0x47#8)

/-! ### Values of the clip (R158, R160) -/

/-- Lead component index of a component list (R155); a list with neither video nor audio is refused before. -/
def leadIndex (cs : List Comp) : Nat := (leadIdx cs).getD 0

/-- The computed checksum (R158). -/
def Ingest.checksum (g : Ingest) : Nat := (65536 - g.sum % 65536) % 65536

/-- PCR0 from the first PCR (R158). -/
def Ingest.pcr0 (g : Ingest) : Option Nat :=
  g.pcr.map (fun jv => subMod nClk jv.2 (jv.1 * 27000000 / g.decl.rate))

/-- The seal values of the ingest (R160). -/
def Ingest.sealVals (g : Ingest) (p : PortId) : Seal :=
  { rate := g.decl.rate, k := g.stored, blocks := blocksOf g.stored, comps := g.decl.comps,
    pcrIndex := g.decl.pcrIndex, c0 := g.c0.getD 0, endPts := g.endPts, pcr0 := g.pcr0.getD 0,
    checksum := g.checksum, origin := p }

/-- The program that the unit requests (R157, R160): the WRITING buffer's, or the seal once both are EMPTY. -/
def Ingest.request (g : Ingest) (p : PortId) : Option ProgKind :=
  if g.st = .open_ ∨ g.st = .closing then
    match g.find .writing with
    | some b => some (.data ((g.buf b).page / 64) (43 * (g.buf b).page) (g.buf b).pkts)
    | none =>
      if g.st = .closing ∧ g.bufA.st = .empty ∧ g.bufB.st = .empty then some (.sealing (g.sealVals p)) else none
  else none

/-- Clip page of the requested program. -/
def Ingest.requestPage (g : Ingest) : Nat :=
  match g.find .writing with
  | some b => (g.buf b).page
  | none => 0

/-! ### Endings (R156, R159, R161, R163) -/

/-- A program of the unit is in flight and still the unit's: one of an earlier ingest that ended under it is not (DEDUCED, log 67). -/
def ingestInFlight (s : State) (p : PortId) : Bool :=
  match s.flash.op with
  | some o => o.req == .ingest p && !o.orphan
  | none => false

/-- The unit returns to NONE; a program of it still in flight changes no record (R153, R156). -/
def clearIngest (s : State) (p : PortId) : State :=
  (s.setIngest p Ingest.reset).modFlash (fun f => f.orphan (fun q => q == .ingest p))

/-- The end of an ingest without a seal: the blocks of the chain but `except` join the dirty list, and the record goes
(R128, R156, R161). -/
def endIngest (s : State) (p : PortId) (except : Option Nat) : State :=
  match s.clip (s.ingest p).clip with
  | some r => clearIngest (s.removeClip r (r.chain.filter (fun b => some b != except)) none) p
  | none => clearIngest s p

/-- A program of the unit ended as failed (R161, R163): the failing block goes to the bad set and the others to the dirty list; after a
LOWSUPPLY abort all of them join the dirty list, in chain order (R124, R144). An ENDING ingest ends as aborted, the others with
INGEST_DONE(FAULT). -/
def ingestFailed (s : State) (p : PortId) (block : Nat) (toBad : Bool) : State :=
  let g := s.ingest p
  let s2 := if toBad then endIngest (s.modFlash (fun f => f.addBad block)) p (some block) else endIngest s p none
  match g.st with
  | .none => s
  | .ending => answer s2 p .ok []
  | _ =>
    let fr := s2.fresh
    let s3 := fr.2.push p (.ingestFault g.clip block fr.1)
    match g.held with
    | .data _ => answer s3 p .fault (leBytes 4 g.stored)
    | _ => s3

/-- Retest a held Ingest Data frame (R156, R157). -/
def retestHeld (s : State) (p : PortId) : State :=
  let g := s.ingest p
  match g.held with
  | .data bytes =>
    if g.declared (g.split188 bytes).1 ≤ g.freePositions then
      let g1 := { g.take bytes with held := .none }
      answer (s.setIngest p g1) p .ok (leBytes 4 g1.stored)
    else s
  | _ => s

/-- The seal program completed with success (R160). -/
def sealDone (s : State) (p : PortId) (v : Seal) : State :=
  let g := s.ingest p
  match s.clip g.clip with
  | some r =>
    let s1 := s.setClip g.clip (some { r with st := .good, decl := none, sealVals := some v, marker := .none,
                                              chain := r.chain.take v.blocks })
    let s2 := s1.modFlash (fun f => f.setFree r.region (f.free r.region ++ r.chain.drop v.blocks))
    clearIngest (s2.push p (.ingestSealed g.clip v.k v.blocks v.checksum)) p
  | none => s

/-- A program of the unit completed with success (R157, R160, R161). -/
def ingestPassed (s : State) (p : PortId) (k : ProgKind) : State :=
  let g := s.ingest p
  match g.st with
  | .none => s
  | .ending => answer (endIngest s p none) p .ok []
  | _ => match k with
    | .sealing v => sealDone s p v
    | _ =>
      let g1 := match g.find .writing with
        | some b => g.setBuf b Buf.empty
        | none => g
      retestHeld (s.setIngest p { g1.pump with programmed := g.programmed + 1 }) p

end Sys2Proof.Machine
end

