-- ==== Sys2Proof/Machine/Array.lean ====
section
/-! DEFINITION. What stands in the pages of the clip array: trailers, seals and marks, as programs write them and the
start-up scan reads them (R116, R121, R130, R132, R206). -/

namespace Sys2Proof.Machine

/-- First byte of the trailer in the data area (R115). -/
def trailerAt : Nat := 8084

/-- The first 12 bytes of a trailer (R120, R206). -/
def trailerBytes (clip chainIdx page count first : Nat) : List Byte :=
  [byte1 (if first = 0 then 1 else 2)] ++ leBytes 2 clip ++ [byte1 chainIdx, byte1 page, byte1 count]
    ++ leBytes 4 first ++ [0, 0]

/-- Code of a port (R200). -/
def portByte (p : PortId) : Byte := byte1 (portIdx p)

/-- The seal's fields from P to the checksum, 52 bytes (R206). -/
def sealFields (v : Seal) : List Byte :=
  leBytes 2 v.rate ++ leBytes 4 v.k ++ [byte1 v.blocks, byte1 v.comps.length, byte1 v.pcrIndex, portByte v.origin]
    ++ compBytes v.comps ++ leBytes 5 v.c0 ++ leBytes 5 v.endPts ++ leBytes 6 v.pcr0 ++ leBytes 2 v.checksum

/-- The seal area: the fields and the seal check (R121, R206). -/
def sealBytes (v : Seal) : List Byte := sealFields v ++ leBytes 4 (byteSum (sealFields v))

/-- Bytes that the ECC of sector `j` covers, from a data area: all 1,024 of the sector but the seal area and the
damage-marker area, which lie in the last (R116, R206). -/
def eccCovers (area : List Byte) (j : Nat) : List Byte :=
  if j = 7 then slice area 7168 928 ++ slice area 8168 24 else slice area (1024 * j) 1024

/-- The data area after a data program: packets from its start, the trailer's first 12 bytes, the rest left erased (R120,
R206). -/
def dataArea (pkts : List Pkt) (trailer : List Byte) : List Byte :=
  let body := pkts.flatten
  body ++ List.replicate (trailerAt - body.length) 0xFF#8 ++ trailer ++ List.replicate 96 0xFF#8

/-- The sector ECC of a data area, 54 bytes a sector, in sector order (R206). The code is not given by the manual: its
bytes are free values (log 12). -/
def eccBytes (area : List Byte) : List Byte :=
  (List.range 8).flatMap (fun j => leBytes 54 (Config.sectorEcc (eccCovers area j)).toNat)

/-- What a program writes, by offset in the page, the spare area counted from 8,192 (R119, R206). -/
def programImage (k : ProgKind) (clip page count : Nat) : List (Nat × List Byte) :=
  match k with
  | .data ci first pkts =>
    let trailer := trailerBytes clip ci page pkts.length first
    [(0, pkts.flatten), (trailerAt, trailer), (8208, eccBytes (dataArea pkts trailer))]
  | .sealing v => [(trailerAt + 12, sealBytes v)]
  | .damage => [(trailerAt + 68, List.replicate 16 0)]
  | .badBlock => [(8192, [0])]
  | .protection i e =>
    (if i then [(0, List.replicate 64 0)] else []) ++ (if e then [(64, List.replicate 64 0)] else [])
      ++ [(128 + 64 * count, List.replicate 64 0)]

/-- The channel's check of a page as read (R116): ERASED when no sector, its ECC included, has more than 8 positions that
read 0; GOOD with every error corrected when no sector has more than 8 bit errors; otherwise UNCORRECTABLE. -/
def judgePage (area ecc : List Byte) : ReadOutcome :=
  let eccOf := fun (j : Nat) => slice ecc (54 * j) 54
  let errors := fun (j : Nat) => Config.sectorErrors (eccCovers area j) (eccOf j)
  let mend := fun (j : Nat) =>
    let c := eccCovers area j
    if errors j = 0 then c else (List.range c.length).map (Config.corrected c (eccOf j))
  if (List.range 8).all (fun j => decide (zeroBits (slice area (1024 * j) 1024 ++ eccOf j) ≤ 8)) then .erased
  else if (List.range 8).all (fun j => decide (errors j ≤ 8)) then
    let last := mend 7
    .good ((List.range 7).flatMap mend ++ last.take 928 ++ slice area 8096 72 ++ last.drop 928)
  else .uncorrectable

/-- The outcome that a read gives its requester (R116). -/
def judge : ReadOutcome → ReadOutcome
  | .page area ecc => judgePage area ecc
  | .erased => .erased
  | .good d => .good d
  | .uncorrectable => .uncorrectable

/-- The trailer of a page names what the requester expects (R116, R140). -/
def trailerMatches (d : List Byte) (clip chainIdx page : Nat) : Bool :=
  leField d (trailerAt + 1) 2 == clip && leField d (trailerAt + 3) 1 == chainIdx && leField d (trailerAt + 4) 1 == page

/-- The packets of a page (R120). -/
def pagePackets (d : List Byte) (count : Nat) : List Pkt := (List.range count).map (fun j => slice d (188 * j) 188)

/-- The component positions of a seal, read in order. No test of R121 looks at the kind codes: one outside the three is
kept as it was read (log 40). -/
def readComps (d : List Byte) (off : Nat) : Nat → List Comp
  | 0 => []
  | n + 1 =>
    let code := leField d (off + 2) 1
    { pid := leField d off 2, kind := (kindOf code).getD (.other code) } :: readComps d (off + 3) n

/-- The port of a code. -/
def portOf : Nat → Option PortId
  | 0 => some .tp | 1 => some .pp | 2 => some .ap | _ => none

/-- The seal of a head page, when it is present and valid (R121, R206). -/
def readSeal (d : List Byte) : Option Seal :=
  let a := trailerAt + 12
  let n := leField d (a + 7) 1
  let v : Seal := { rate := leField d a 2, k := leField d (a + 2) 4, blocks := leField d (a + 6) 1, comps := [],
                    pcrIndex := leField d (a + 8) 1, c0 := leField d (a + 34) 5, endPts := leField d (a + 39) 5,
                    pcr0 := leField d (a + 44) 6, checksum := leField d (a + 50) 2, origin := .tp }
  if leField d (a + 52) 4 ≠ byteSum (slice d a 52) ∨ v.blocks ≠ blocksOf v.k ∨ v.rate < 100 ∨ 20000 < v.rate
    ∨ n = 0 ∨ 8 < n ∨ n ≤ v.pcrIndex then none
  else (portOf (leField d (a + 9) 1)).map (fun p => { v with comps := readComps d (a + 10) n, origin := p })

/-- The damage marker of a head page reads present (R206). -/
def damagePresent (d : List Byte) : Bool := decide (64 < zeroBits (slice d (trailerAt + 68) 16))

/-- The protection record of block 0's page 0, each mark by the majority of its bits (R130, R206). -/
def readProtection (d : List Byte) : ProtCopy :=
  let mark := fun off => decide (256 < zeroBits (slice d off 64))
  { ingestLock := mark 0, eraseLock := mark 64,
    count := ([128, 192, 256, 320].filter mark).length }

/-- Classification of a block by page 0 read GOOD (R132). -/
def classifyGood (d : List Byte) : ScanClass :=
  let kind := leField d trailerAt 1
  let clip := leField d (trailerAt + 1) 2
  let ci := leField d (trailerAt + 3) 1
  let pi := leField d (trailerAt + 4) 1
  if (kind ≠ 1 ∧ kind ≠ 2) ∨ clip = 0 ∨ clip = 65535 ∨ pi ≠ 0 ∨ 118 < ci ∨ (kind = 1 ∧ ci ≠ 0) ∨ (kind = 2 ∧ ci = 0)
  then .dirty
  else if kind = 1 then .head clip (readSeal d) (damagePresent d)
  else .member clip ci

/-- Classification of a block other than block 0; none when it is free (R132). -/
def classify (o : ReadOutcome) (marker : Byte) : Option ScanClass :=
  if marker ≠ 0xFF#8 then some .bad
  else match judge o with
    | .erased => none
    | .good d => some (classifyGood d)
    | _ => some .dirty

end Sys2Proof.Machine
end

