-- ==== Sys2Proof/Machine/Scan.lean ====
section
/-! DEFINITION. The start-up scan: reads, the settling of the clip ids, and the completing act (R131 to R135). -/

namespace Sys2Proof.Machine

/-- Clip id that a note names. -/
def ScanClass.clip? : ScanClass → Option Nat
  | .head c _ _ => some c
  | .member c _ => some c
  | _ => none

/-- What the scan makes of one clip id: a record candidate, and the blocks that go to dirty (R133). -/
structure Settled where
  rec? : Option ClipRec
  dirty : List Nat

/-- The chain of a sealed head from the remaining members, when each index stands once (R133). -/
def assemble (blocks : Nat) (ms : List (Nat × Nat)) : Option (List Nat) :=
  (List.range (blocks - 1)).foldr (fun j acc =>
    match ms.filter (fun m => m.2 == j + 1), acc with
    | [m], some r => some (m.1 :: r)
    | _, _ => none) (some [])

/-- Settle one clip id over its notes (R133). -/
def settleId (c : Nat) (notes : List (Nat × ScanClass)) : Settled :=
  let unsealed := notes.filterMap (fun n => match n.2 with | .head d none _ => if d = c then some n.1 else none | _ => none)
  let heads := notes.filterMap (fun n => match n.2 with
    | .head d (some v) dmg => if d = c then some (n.1, v, dmg) else none
    | _ => none)
  let members := notes.filterMap (fun n => match n.2 with
    | .member d j => if d = c then some (n.1, j) else none
    | _ => none)
  let gone := if unsealed.isEmpty then [] else unsealed ++ members.map (·.1)
  let ms := if unsealed.isEmpty then members else []
  match heads with
  | [] => { rec? := none, dirty := gone ++ ms.map (·.1) }
  | [(b, v, dmg)] =>
    let kept := ms.filter (fun m => blockRegion m.1 == blockRegion b && decide (m.2 < v.blocks))
    let strays := ms.filter (fun m => !(blockRegion m.1 == blockRegion b && decide (m.2 < v.blocks)))
    match assemble v.blocks kept with
    | some chain =>
      { rec? := some { clip := c, region := blockRegion b, chain := b :: chain, decl := none, sealVals := some v, refs := 0,
                       st := if dmg then .damaged else .good, marker := if dmg then .written else .none },
        dirty := gone ++ strays.map (·.1) }
    | none => { rec? := none, dirty := gone ++ [b] ++ ms.map (·.1) }
  | _ => { rec? := none, dirty := gone ++ heads.map (·.1) ++ ms.map (·.1) }

/-- Candidates by ascending head block. -/
def insertRec (r : ClipRec) : List ClipRec → List ClipRec
  | [] => [r]
  | x :: l => if r.chain.headD 0 < x.chain.headD 0 then r :: x :: l else x :: insertRec r l

/-- The clip ids that notes name, ascending. -/
def scanIds (notes : List (Nat × ScanClass)) : List Nat := (notes.filterMap (fun n => n.2.clip?)).foldr insertNat []

/-- The completing act of the scan (R133, R134, R135). -/
def scanComplete (s : State) : State :=
  let f := s.flash
  let notes := f.scanNotes
  let settled := (scanIds notes).map (fun c => settleId c notes)
  let cands := (settled.filterMap (·.rec?)).foldr insertRec []
  let kept := cands.take 512
  let noted := notes.map (·.1)
  let dirty := ((notes.filter (fun n => n.2 == .dirty)).map (·.1) ++ settled.flatMap (·.dirty)
    ++ (cands.drop 512).flatMap (·.chain)).foldr insertNat []
  let bad := (notes.filter (fun n => n.2 == .bad)).map (·.1)
  let mk := fun (l : List Nat) => l.map (fun b => ({ block := b, job := none } : Dirty))
  let free := fun (lo n : Nat) => (List.range' lo n).filter (fun b => !noted.contains b)
  let f' : Flash := { f with
    freeA := free 1 255, freeM := free 256 3840,
    dirtyA := mk (dirty.filter (fun b => blockRegion b == .alert)), dirtyM := mk (dirty.filter (fun b => blockRegion b == .main)),
    bad := bad, nextPage := noted.foldl (fun t b => Table.set 0 t b 64) [], prot := f.scanProt, unusable := f.scanMark0,
    scanNext := 0, scanNotes := [], scanProt := ⟨false, false, 0⟩, scanMark0 := false }
  let s1 := kept.foldl (fun s r => s.setClip r.clip (some r)) { s with flash := f', part := .running, dir := [] }
  s1.pushAll (.scanDone kept.length dirty.length bad.length)

/-- The outcome of the scan's read of page 0 of a block (R132, R135). Block 0 has no sector ECC and is read as the
protection record (R130); the marks of a read that gives no data are free values (log 13). -/
def scanRead (s : State) (b : Nat) (o : ReadOutcome) (marker : Byte) : State :=
  let f := s.flash
  let f1 : Flash :=
    if b = 0 then
      let d := match o with
        | .erased => List.replicate 384 0xFF#8
        | .good d => d
        | .page area _ => area
        | .uncorrectable => (List.range 384).map (Config.unreadBlock0 s.freeCtr)
      { f with scanProt := readProtection d, scanMark0 := marker != 0xFF#8, scanNext := 1 }
    else match classify o marker with
      | some c => { f with scanNotes := f.scanNotes ++ [(b, c)], scanNext := b + 1 }
      | none => { f with scanNext := b + 1 }
  let s1 := (if b = 0 ∧ o = .uncorrectable then s.fresh.2 else s).withFlash f1
  if b = 4095 then scanComplete s1 else s1

end Sys2Proof.Machine
end

