-- ==== Sys2Proof/Machine/Channel.lean ====
section
/-! DEFINITION. The flash channel: its requesters, the arbiter, and the outcomes of reads, programs and erases
(R136 to R152). -/

namespace Sys2Proof.Machine

/-! ### Fill and conditions (R146, R139) -/

/-- An instance of an entry or of a level-3 hold. -/
def Inst.counted (n : Inst) : Bool := n.owner != .ended

/-- The service has an instance of an ARMED or ACTIVE entry, or of a level-3 hold (R146). -/
def SpliceRec.counted (p : SpliceRec) : Bool :=
  (match p.cur with | some n => n.counted | none => false) || (match p.nxt with | some n => n.counted | none => false)

/-- The service is short (R146). -/
def SpliceRec.short (p : SpliceRec) : Bool := p.counted && decide (p.fill < 3) && (choosePage p).isSome

/-- The service is ample, or not counted (R146). -/
def SpliceRec.ample (p : SpliceRec) : Bool := !p.counted || decide (5 ≤ p.fill) || (choosePage p).isNone

/-- Some service is short (R139). -/
def anyShort (s : State) : Bool := s.listed.any (fun i => (s.sp i).short)

/-- Every service counted is ample (R139). -/
def allAmple (s : State) : Bool := s.listed.all (fun i => (s.sp i).ample)

/-- A request of a class is grantable (R139). -/
def grantable (s : State) (cls : Nat) (k : OpKind) : Bool :=
  if cls = 2 then
    s.flash.supply == .normal && !anyShort s
      && (match k with | .program (.protection _ _) => s.flash.release.isNone | _ => true)
  else if cls = 4 then s.flash.supply == .normal && allAmple s
  else true

/-! ### The request set (R137), by position in the ring -/

/-- An operation as it would start now. -/
def mkOp (s : State) (q : Requester) (k : OpKind) (block page clip : Nat) (writes : List (Nat × List Byte)) : FlashOp :=
  { req := q, kind := k, block := block, page := page, clip := clip, started := s.localCount, orphan := false,
    writes := writes }

/-- A read of clip page `p` (R140). -/
def clipRead (s : State) (q : Requester) (chain : List Nat) (clip p : Nat) : FlashOp :=
  mkOp s q .read (chain.getD (p / 64) 0) (p % 64) clip []

/-- Class of a service's read (R146). -/
def readClass (p : SpliceRec) (r : Role) : Nat :=
  match p.inst r with
  | some n => match n.owner with
    | .alert _ => 0
    | _ => if p.fill < 3 then 1 else 3
  | none => 3

/-- The standing request of a service's read-ahead, as it was chosen: one for a current instance with 4 pages or more goes on
standing when a next instance comes to want pages (R147; DESIGN CHOICE, log 74). -/
def raRequest (s : State) (i : Nat) : Option (Nat × FlashOp) :=
  let p := s.sp i
  match p.raReq with
  | some q => match p.inst q.role with
    | some n => some (readClass p q.role, clipRead s (.readAhead i q.role) n.chain n.clip q.page)
    | none => none
  | none => none

/-- The standing fill request of a preload slot (R173). -/
def preloadRequest (s : State) (j : Nat) : Option (Nat × FlashOp) :=
  let q := s.preload j
  if q.st = .filling then
    (s.clip q.clip).map (fun r => (0, clipRead s (.preload j) r.chain q.clip q.pages.length))
  else none

/-- The standing program of an ingest unit (R157, R160): a data program goes to the page's block of the chain, a seal to
the head block. -/
def ingestRequest (s : State) (p : PortId) : Option (Nat × FlashOp) :=
  let g := s.ingest p
  match g.request p, s.clip g.clip with
  | some k, some r =>
    let pg := g.requestPage
    let img := programImage k g.clip (pg % 64) 0
    let op := fun (b page : Nat) => (2, mkOp s (.ingest p) (.program k) b page g.clip img)
    match k with
    | .data ci _ _ => r.chain[ci]?.map (fun b => op b (pg % 64))
    | _ => r.chain.head?.map (fun b => op b 0)
  | _, _ => none

/-- The standing program of the marker queue (R137). -/
def markerRequest (s : State) : Option (Nat × FlashOp) :=
  match s.flash.markerQ with
  | m :: _ =>
    let k : ProgKind := if m.damage then .damage else .badBlock
    some (2, mkOp s .marker (.program k) m.block 0 m.clip (programImage k m.clip 0 0))
  | [] => none

/-- The requested protection program (R183). -/
def protectionRequest (s : State) : Option (Nat × FlashOp) :=
  s.flash.protReq.map (fun l =>
    let k := ProgKind.protection l.1 l.2
    (2, mkOp s .protection (.program k) 0 0 0 (programImage k 0 0 s.flash.prot.count)))

/-- The standing read of a checksum (R167). -/
def checksumRequest (s : State) (p : PortId) : Option (Nat × FlashOp) :=
  match s.check p with
  | some c => (s.clip c.clip).map (fun r => (3, clipRead s (.checksum p) r.chain c.clip c.page))
  | none => none

/-- The scan's next read (R131). -/
def scanRequest (s : State) : Option (Nat × FlashOp) :=
  if s.part = .scanning ∧ s.flash.scanNext < 4096 then some (3, mkOp s .scan .read s.flash.scanNext 0 0 []) else none

/-- A region eraser's standing request (R142). -/
def eraserRequest (s : State) (r : Region) : Option (Nat × FlashOp) :=
  if r = .alert ∧ s.flash.prot.eraseLock then none
  else match s.flash.dirty r with
    | d :: _ => some (4, mkOp s (.eraser r) .erase d.block 0 0 [])
    | [] => none

/-- The release eraser's standing request (R143). -/
def releaseRequest (s : State) : Option (Nat × FlashOp) :=
  match s.flash.release with
  | some r => if r.block0.isNone then some (4, mkOp s .releaseEraser .erase 0 0 0 []) else none
  | none => none

/-- The port at a place of the ring. -/
def ringPort (j : Nat) : PortId := if j = 0 then .tp else if j = 1 then .pp else .ap

/-- The standing request at a place of the ring, with its class: S00 … S47, preload slots, ingest units, marker queue,
protection, checksums, scan, alert and main erasers, release eraser (R137). -/
def requestAt (s : State) (j : Nat) : Option (Nat × FlashOp) :=
  if j < 48 then raRequest s j
  else if j < 52 then preloadRequest s (j - 48)
  else if j < 55 then ingestRequest s (ringPort (j - 52))
  else if j = 55 then markerRequest s
  else if j = 56 then protectionRequest s
  else if j < 60 then checksumRequest s (ringPort (j - 57))
  else if j = 60 then scanRequest s
  else if j = 61 then eraserRequest s .alert
  else if j = 62 then eraserRequest s .main
  else releaseRequest s

/-- The grantable requests of a class, in the ring after the round-robin position (R138). -/
def firstInClass (s : State) (reqs : List (Nat × Nat × FlashOp)) (cls : Nat) : Option (Nat × FlashOp) :=
  let l := (reqs.filter (fun r => r.2.1 == cls && grantable s cls r.2.2.kind)).map (fun r => (r.1, r.2.2))
  let pos := Table.get 0 s.flash.rr cls
  ((l.filter (fun r => decide (pos ≤ r.1))) ++ (l.filter (fun r => decide (r.1 < pos)))).head?

/-- The arbiter's choice: the lowest class that holds a grantable request (R138). The request at the place `skip` is not in
the set yet. -/
def arbChoice (skip : Option Nat) (s : State) : Option (Nat × Nat × FlashOp) :=
  let reqs := (List.range 64).filterMap (fun j =>
    if skip = some j then none else (requestAt s j).map (fun r => (j, r.1, r.2)))
  ((List.range 5).filterMap (fun cls => (firstInClass s reqs cls).map (fun r => (cls, r.1, r.2)))).head?

/-! ### Outcomes of programs (R141, R144) -/

/-- How a program or an erase ended. -/
inductive OpEnd where
  | pass | fail | abort
  deriving DecidableEq, Repr

/-- The marker state of a clip after its damage-marker program (R129); a record that is gone, or another with its
number, stays as it is. -/
def markerDone (s : State) (o : FlashOp) (e : OpEnd) : State :=
  match s.clip o.clip with
  | some r =>
    if r.st = .damaged ∧ r.chain.head? = some o.block then
      s.setClip o.clip (some { r with marker := if e = .pass then .written else .failed })
    else s
  | none => s

/-- The end of a protection program (R141, R183). -/
def protectionDone (s : State) (i e : Bool) (r : OpEnd) : State :=
  let c := s.flash.prot
  let c' : ProtCopy := if r = .pass then
      { ingestLock := c.ingestLock || i, eraseLock := c.eraseLock || e, count := c.count + 1 }
    else { c with count := c.count + 1 }
  let fr := (s.modFlash (fun f => { f with prot := c' })).fresh
  fr.2.push .ap (.protectSet (r == .pass) c' fr.1)

/-- A program has ended; `reached` says that it reached the array, so a data program raises the index (R118, R141). One whose
ingest a bad boundary or a VERIFY failure had ended leaves its block on the dirty list, also when it failed (R156; DESIGN CHOICE
for a failure, log 71). -/
def programEnded (s0 : State) (o : FlashOp) (k : ProgKind) (e : OpEnd) (reached : Bool) : State :=
  let s := match k with
    | .data _ _ _ => if reached then s0.modFlash (fun f => f.setIndex o.block (f.index o.block + 1)) else s0
    | _ => s0
  if o.orphan then s
  else match o.req, k with
    | .ingest p, _ => match e with
      | .pass => ingestPassed s p k
      | .fail => ingestFailed s p o.block true
      | .abort => ingestFailed s p o.block false
    | _, .damage => markerDone s o e
    | _, .protection i l => protectionDone s i l e
    | _, _ => s

/-! ### Outcomes of erases (R142, R143, R165, R185) -/

/-- The release is complete (R143, R185): PROTECT_DONE, and the flag is cleared. -/
def checkRelease (s : State) : State :=
  match s.flash.release with
  | some r => match r.block0 with
    | some ok => if s.flash.dirtyA.isEmpty then
        (s.modFlash (fun f => { f with release := none })).push .ap (.protectRelease ok s.flash.prot r.freed r.bad)
      else s
    | none => s
  | none => s

/-- A block of a Clip Erase has left its dirty list (R142, R165). -/
def jobBlock (s : State) (job : Option Nat) (pass : Bool) : State :=
  match job with
  | none => s
  | some id =>
    let upd := fun (j : EraseJob) => if j.id = id then
        (if pass then { j with freed := j.freed + 1 } else { j with bad := j.bad + 1 }) else j
    let f := s.flash
    let jobs := f.jobs.map upd
    if (f.dirtyA ++ f.dirtyM).any (fun d => d.job == some id) then s.withFlash { f with jobs := jobs }
    else
      let s1 := s.withFlash { f with jobs := jobs.filter (fun j => j.id != id) }
      match jobs.find? (fun j => j.id == id) with
      | some j => s1.push j.p (.eraseDone j.clip j.freed j.bad)
      | none => s1

/-- The count of a release takes the erase of an alert block (R185). -/
def Flash.releaseCount (f : Flash) (r : Region) (pass : Bool) : Flash :=
  if r = .alert then
    { f with release := f.release.map (fun x => if pass then { x with freed := x.freed + 1 } else { x with bad := x.bad + 1 }) }
  else f

/-- The erase of a block of a dirty list has ended (R142): when it ends both a Clip Erase and a release, ERASE_DONE is queued before
PROTECT_DONE (DESIGN CHOICE, log 66). -/
def eraseEnded (s : State) (r : Region) (b : Nat) (e : OpEnd) : State :=
  let f := s.flash
  let job := ((f.dirty r).find? (fun d => d.block == b)).bind (·.job)
  let f1 := f.setDirty r ((f.dirty r).filter (fun d => d.block != b))
  match e with
  | .abort => s
  | .pass =>
    let f2 := ((f1.setFree r (f1.free r ++ [b])).setIndex b 0).setMarks b PageMarks.none
    checkRelease (jobBlock (s.withFlash (f2.releaseCount r true)) job true)
  | .fail => checkRelease (jobBlock (s.withFlash ((f1.addBad b).releaseCount r false)) job false)

/-- The erase of block 0 for a release has ended (R143). -/
def block0Ended (s : State) (e : OpEnd) : State :=
  match e with
  | .abort => s
  | .pass => checkRelease (s.modFlash (fun f =>
      { f with prot := ⟨false, false, 0⟩, release := f.release.map (fun r => { r with block0 := some true }) }))
  | .fail => checkRelease (s.modFlash (fun f =>
      { f with unusable := true, release := f.release.map (fun r => { r with block0 := some false }) }))

/-- An erase has ended. -/
def erased (s : State) (o : FlashOp) (e : OpEnd) : State :=
  match o.req with
  | .eraser r => eraseEnded s r o.block e
  | .releaseEraser => block0Ended s e
  | _ => s

/-! ### Outcomes of reads (R140, R148, R151, R152, R167, R173) -/

/-- The data of a clip page that its requester may use (R116, R140). -/
def pageData (o : FlashOp) (chain : List Nat) (r : ReadOutcome) : Option (List Byte) :=
  match judge r with
  | .good d => if trailerMatches d o.clip (chain.idxOf o.block) o.page then some d else none
  | _ => none

/-- Pages of a preload slot's clip that the slot holds when READY (R172). -/
def preloadGoal (k : Nat) : Nat := min 16 (pagesOf k)

/-- Clear a preload slot and release its reference (R172, R173). -/
def clearPreload (s : State) (j : Nat) : State :=
  let q := s.preload j
  let s1 := (s.setPreload j Preload.empty).modFlash (fun f => f.orphan (fun x => x == .preload j))
  if q.st = .empty then s1 else s1.dropRef q.clip

/-- The outcome of a read for a service's read-ahead (R148, R151). An uncorrectable page raises LOST, marks the clip for
every user of it, and then acts on the instance that read it (R102, R129; log 23). -/
def readAheadDone (s : State) (o : FlashOp) (i : Nat) (role : Role) (r : ReadOutcome) : State :=
  match (s.sp i).inst role with
  | some n =>
    match pageData o n.chain r with
    | some d =>
      let g : Page := { no := n.fetch, pkts := pagePackets d (pageCount n.sealVals.k n.fetch) }
      s.modSp i (fun p => p.setInst role (some (n.place g)))
    | none => instanceFault (markDamaged (raise s i .lost) o.clip) i role n
  | none => s

/-- The outcome of a preload fill (R173). -/
def preloadDone (s : State) (o : FlashOp) (j : Nat) (r : ReadOutcome) : State :=
  let q := s.preload j
  match s.clip q.clip, s.sealOf q.clip with
  | some x, some v =>
    let no := q.pages.length
    match pageData o x.chain r with
    | some d =>
      let pages := q.pages ++ [{ no := no, pkts := pagePackets d (pageCount v.k no) }]
      if pages.length = preloadGoal v.k then
        let fr := (s.setPreload j { q with st := .ready, pages := pages }).fresh
        fr.2.push .ap (.preloadReady j q.clip fr.1)
      else s.setPreload j { q with pages := pages }
    | none => (clearPreload (markDamaged s o.clip) j).push .ap (.preloadFailed j q.clip no)
  | _, _ => s

/-- The outcome of a checksum's read (R167). -/
def checksumDone (s : State) (o : FlashOp) (p : PortId) (r : ReadOutcome) : State :=
  match s.check p with
  | none => s
  | some c => match s.clip c.clip, s.sealOf c.clip with
    | some x, some v =>
      match pageData o x.chain r with
      | some d =>
        let sum := (c.sum + byteSum (d.take (188 * pageCount v.k c.page))) % 65536
        if c.page + 1 = pagesOf v.k then
          let fr := ((s.setCheck p none).dropRef c.clip).fresh
          fr.2.push p (.checksumDone c.clip v.checksum (some ((65536 - sum) % 65536)) none fr.1)
        else s.setCheck p (some { c with page := c.page + 1, sum := sum })
      | none =>
        let fr := (((markDamaged s o.clip).setCheck p none).dropRef c.clip).fresh
        fr.2.push p (.checksumDone c.clip v.checksum none (some c.page) fr.1)
    | _, _ => s

/-- A read whose requester has gone (R152): an uncorrectable page still marks the clip. -/
def orphanRead (s : State) (o : FlashOp) (r : ReadOutcome) : State :=
  match s.clip o.clip with
  | some x => if (pageData o x.chain r).isNone then markDamaged s o.clip else s
  | none => s

/-- A read has ended. -/
def readEnded (s : State) (o : FlashOp) (r : ReadOutcome) (marker : Byte) : State :=
  if o.orphan then orphanRead s o r
  else match o.req with
    | .readAhead i role => readAheadDone s o i role r
    | .preload j => preloadDone s o j r
    | .checksum p => checksumDone s o p r
    | .scan => scanRead s o.block r marker
    | _ => s

/-! ### Grants (R138, R141) -/

/-- The condition of R119 at the grant. -/
def programAllowed (s : State) (o : FlashOp) (k : ProgKind) : Bool :=
  match k with
  | .data _ _ _ => s.flash.index o.block == o.page && decide (o.page < 64)
  | .sealing _ => decide (0 < s.flash.index o.block) && !(s.flash.marks o.block).sealing
  | .damage => (match s.clip o.clip with | some r => r.st != .ingesting | none => false) && !(s.flash.marks o.block).damage
  | .badBlock => o.block != 0 && s.flash.bad.contains o.block && !(s.flash.marks o.block).badBlock
  | .protection _ _ => decide (s.flash.prot.count < 4)

/-- A program that starts is made on its page, whatever comes of it (R119): a partial one is noted with its block. -/
def Flash.noteMade (f : Flash) (b : Nat) (k : ProgKind) : Flash :=
  let m := f.marks b
  match k with
  | .sealing _ => f.setMarks b { m with sealing := true }
  | .damage => f.setMarks b { m with damage := true }
  | .badBlock => f.setMarks b { m with badBlock := true }
  | .data _ _ _ => f
  | .protection _ _ => f

/-- A program starts. -/
def Flash.start (f : Flash) (o : FlashOp) (k : ProgKind) : Flash := { f.noteMade o.block k with op := some o }

/-- The granted request leaves the request set. -/
def consumeRequest (s : State) (q : Requester) : State :=
  match q with
  | .readAhead i _ => s.modSp i (fun p => { p with raReq := none })
  | .marker => s.modFlash (fun f => { f with markerQ := f.markerQ.tail })
  | .protection => s.modFlash (fun f => { f with protReq := none })
  | _ => s

/-- One grant (R138): the operation starts, or a program whose condition fails ends as failed without reaching the
array (R141). The flag says whether the arbiter must look again. -/
def grant (s : State) (cls j : Nat) (o : FlashOp) : State × Bool :=
  let s1 := (consumeRequest s o.req).modFlash (fun f => { f with rr := Table.set 0 f.rr cls (j + 1) })
  match o.kind with
  | .program k =>
    if programAllowed s o k then (s1.modFlash (fun f => f.start o k), false)
    else (programEnded s1 o k .fail false, true)
  | _ => (s1.modFlash (fun f => { f with op := some o }), false)

/-- The arbiter (R138): it grants while the channel is idle and a request is grantable (log 20 for the bound), the one at the
place `skip` not standing yet. -/
def arbLoop (skip : Option Nat) : Nat → State → State
  | 0, s => s
  | f + 1, s =>
    if s.flash.op.isSome then s
    else match arbChoice skip s with
      | none => s
      | some (cls, j, o) =>
        let (s1, again) := grant s cls j o
        if again then arbLoop skip f (settle s1) else s1

/-- The part at rest after a change: the splice engine's acts, then the arbiter. -/
def rest (s : State) : State := arbLoop none 4096 (settle s)

/-- The ring place of a requester that reads "one read at a time" and places its next read only after the completion: a port's
checksum (R167) and a preload slot's fill (R173). -/
def Requester.between : Requester → Option Nat
  | .preload j => some (48 + j)
  | .checksum .tp => some 57
  | .checksum .pp => some 58
  | .checksum .ap => some 59
  | _ => none

/-- The part at rest after a read has ended. The arbiter tests at the completion, before a requester that reads one at a time
places its next read, and again at its placing (R137, R138, 8.7). Every other requester's next request stands at the
completion's test (DESIGN CHOICE, log 60). -/
def restAfter (o : FlashOp) (s : State) : State :=
  match o.req.between with
  | some j => arbLoop none 4096 (arbLoop (some j) 4096 (settle s))
  | none => rest s

/-! ### Completions (R136, R140 to R144) -/

/-- Maximum time of an operation in ticks (R136). -/
def OpKind.limit : OpKind → Nat
  | .read => 1620 | .program _ => 27000 | .erase => 324000

/-- The channel is idle again. -/
def opOver (s : State) : State := s.modFlash (fun f => { f with op := none })

/-- The operation in flight ends by its time limit (R136). -/
def opTimedOut (s : State) (o : FlashOp) : State :=
  match o.kind with
  | .read =>
    if o.req = .scan then readEnded (opOver s.fresh.2) o .uncorrectable (Config.unreadMarker s.fresh.1 o.block)
    else readEnded (opOver s) o .uncorrectable 0xFF#8
  | .program k => programEnded (opOver s) o k .fail true
  | .erase => erased (opOver s) o .fail

/-- A program or an erase in flight is aborted at once by the assertion of LOWSUPPLY (R144). -/
def supplyAbort (s : State) : State :=
  match s.flash.op with
  | some o => match o.kind with
    | .read => s
    | .program k => programEnded (opOver s) o k .abort true
    | .erase => erased (opOver s) o .abort
  | none => s

end Sys2Proof.Machine
end

