-- ==== Sys2Proof/Machine/Cues.lean ====
section
/-! DEFINITION. The cue parser, the cue memory, and what OUT, IN and CANCEL cues do to the schedule (chapter 3). -/

namespace Sys2Proof.Machine

/-- Kind of a cue kind code (R205). -/
def cueKindOf : Nat → Option CueKind
  | 1 => some .out | 2 => some .into | 3 => some .cancel | _ => none

/-- The section in a payload, with its flags byte, when it passes the tests of R36; reduced as R37 gives. -/
def parseCue (p : List Byte) : Option (CueRec × Byte) :=
  let flags := byteAt p 7
  let hasTime := flags.getLsbD 7
  let hasDur := flags.getLsbD 6
  let durAt := if hasTime then 13 else 8
  let tagAt := if hasDur then durAt + 4 else durAt
  if byteAt p 0 = 0x4C#8 ∧ byteAt p 1 = 0x01#8 ∧ tagAt + 4 ≤ p.length
    ∧ beVal (slice p (tagAt + 2) 2) = byteSum (p.take (tagAt + 2)) % 65536 then
    match cueKindOf (byteAt p 6).toNat with
    | some k =>
      let content : CueContent :=
        { splice := if hasTime then some (beVal (slice p 8 5) % nPts) else none
          duration := if hasDur then some (beVal (slice p durAt 4)) else none
          auto := hasDur && flags.getLsbD 5
          tag := beVal (slice p tagAt 2) }
      some ({ id := beVal (slice p 2 4), kind := k, content := content }, flags)
    | none => none
  else none

/-- The comparison with the cue memory (R39): the memory after, and whether the cue is handed on. -/
def compareCue (m : List CueRec) (c : CueRec) : List CueRec × Bool :=
  if m.contains c then (m, false)
  else
    let same := fun (x : CueRec) => x.id == c.id && x.kind == c.kind
    if m.any same then (m.filter (fun x => !same x) ++ [c], true)
    else ((if 8 ≤ m.length then m.tail else m) ++ [c], true)

/-- An entry waits PENDING for an OUT with a tag (R41). -/
def Entry.awaitsTag (e : Entry) (tag : Nat) : Bool := e.st == .pending && e.trigger == .cue tag

/-- An OUT cue (R41, R42): the best PENDING entry with the tag fires, bound to the cue; the others end SUPERSEDED
(log 31 for the order). -/
def outCue (s : State) (i : Nat) (c : CueRec) (flags : Byte) : State :=
  match byLevel ((entriesOf s i).filter (fun e => e.awaitsTag c.content.tag)) with
  | [] => s
  | n :: rest =>
    let b : Binding := { cueId := c.id, flags := flags, splice := c.content.splice,
                         duration := c.content.duration, auto := c.content.auto }
    let s1 := armAndArbitrate (s.modEntry n (fun e => { e with a := c.content.splice, binding := some b })) n
    (rest.foldr insertNat []).foldl (fun s m =>
      match s.entry m with
      | some e => if e.awaitsTag c.content.tag then endEntry s e .superseded else s
      | none => s) s1

/-- The cue memory holds a CANCEL of the cue's id: an OUT that arrives then fires nothing (R41). -/
def cancelHeld (m : List CueRec) (c : CueRec) : Bool := m.any (fun x => x.id == c.id && x.kind == .cancel)

/-- The entry is bound to a cue id (R42). -/
def Entry.boundTo (e : Entry) (id : Nat) : Bool :=
  match e.binding with
  | some b => b.cueId == id
  | none => false

/-- An IN cue (R43). -/
def inCue (s : State) (i : Nat) (c : CueRec) : State :=
  match activeEntry s i with
  | some e =>
    if e.retMode = .cue ∧ e.boundTo c.id ∧ !returnBegun s i then
      match c.content.splice with
      | some t => setE s e.num t
      | none => match estimate s i with
        | some x => setE s e.num x
        | none => awaitLead s i false
    else s
  | none => s

/-- The entry is WAITING or ARMED. -/
def Entry.waitsOrArmed (e : Entry) : Bool :=
  match e.st with
  | .waiting _ => true
  | .armed => true
  | _ => false

/-- The WAITING and ARMED entries of a service that are bound to a cue id. -/
def boundEntries (s : State) (i id : Nat) : List Entry :=
  (entriesOf s i).filter (fun e => e.boundTo id && e.waitsOrArmed)

/-- A CANCEL cue (R44): every WAITING and ARMED entry bound to its id ends CANCELLED, in ascending number, and then an
ARMED one among them has released the service (R72; log 31 for the order). -/
def cancelCue (s : State) (i : Nat) (c : CueRec) : State :=
  let es := boundEntries s i c.id
  let s1 := es.foldl (fun s e => endEntry s e .cancelled) s
  if es.any (fun e => e.st == .armed) then afterEnd s1 i else s1

/-- A packet on the cue PID (R35 to R44). -/
def cuePacket (s : State) (i : Nat) (b : Pkt) : State :=
  if pktPusi b && hasPayload b then
    match parseCue (b.drop (payloadAt b)) with
    | none => raise s i .cuebad
    | some (c, flags) =>
      let m := compareCue (s.svc i).cues c
      let s1 := s.modSvc i (fun v => { v with cues := m.1 })
      if m.2 then
        match c.kind with
        | .out => if cancelHeld (s.svc i).cues c then s1 else outCue s1 i c flags
        | .into => inCue s1 i c
        | .cancel => cancelCue s1 i c
      else s1
  else s

end Sys2Proof.Machine
end

