-- ==== Sys2Proof/Machine/Stream.lean ====
section
/-! DEFINITION. PACKET_ARRIVAL: presence, observation by the timebase unit, and the classification of component
packets with their cuts and resumes (R6, R7, R10 to R12, R24 to R30, R79 to R82, R96). -/

namespace Sys2Proof.Machine

/-! ### The timebase unit -/

/-- The effect of a PCR observation on the clock record and the pacing offset (R24 to R26, R90); the flags say that
the service first locked and that σ was set. -/
def pcrEffect (s : State) (i v : Nat) (disc : Bool) : ClockRec × Option Nat × Bool × Bool :=
  let clk := (s.svc i).clk
  let l := s.localCount
  let o := subMod nClk v l
  let window := (s.cfgOf i).lockWindow
  let accepted := { clk with sigma := o, cand := none, st := .locked, lossTimer := some l }
  let pace := (s.sp i).sigmaP
  let moved := pace.map (fun x => addSigned nClk x ((o : Int) - clk.sigma))
  if clk.st = .unlocked then (accepted, pace, true, true)
  else if disc then ({ accepted with leads := [] }, pace, false, true)
  else if s.monitor = .backup then (accepted, moved, false, true)
  else if (sdiff nClk v (addMod nClk l clk.sigma)).natAbs ≤ window then (accepted, moved, false, true)
  else match clk.cand with
    | none => ({ clk with cand := some o }, pace, false, false)
    | some x =>
      if (sdiff nClk o x).natAbs ≤ window then ({ accepted with leads := [] }, pace, false, true)
      else ({ clk with cand := some o }, pace, false, false)

/-- A PCR observation (R24, R25, R26): its effect, and the scheduler's notices (R28, R53, R54). -/
def observePcr (s : State) (i : Nat) (b : Pkt) : State :=
  match pktPcr b with
  | none => s
  | some (base, ext) =>
    if 300 ≤ ext then s
    else
      let (clk, pace, first, set) := pcrEffect s i (base * 300 + ext) (pktDisc b)
      let s1 := s.modSvc i (fun v => { v with clk := clk, sp := { v.sp with sigmaP := pace } })
      if first then firstLock s1 i else if set then fireDue s1 i else s1

/-- A lead sample (R29, R30); λ becoming present re-evaluates WAITING(CLOCK) entries (R67). -/
def leadSample (s : State) (i pts : Nat) : State :=
  match serviceTime s i with
  | none => s
  | some c =>
    let x := sdiff nPts pts (c / 300)
    let old := (s.svc i).clk.leads
    let leads := (if 32 ≤ old.length then old.tail else old) ++ [x]
    let s1 := s.modSvc i (fun v => { v with clk := { v.clk with leads := leads } })
    if old.isEmpty then reeval s1 i .clock else s1

/-- The seek timers of a service after the estimate may have come or gone (R81, R101, R102). -/
def syncTimers (s : State) (i : Nat) : State :=
  s.modSp i (fun p =>
    { p with
      nxt := p.nxt.map (fun n =>
        if n.phase = .seeking ∧ n.s.isNone then n else { n with seekTimer := syncTimer s i n.seekTimer })
      cutTimer := if p.cutX.isSome then syncTimer s i p.cutTimer else none
      retTimer := match p.ret with
        | .returning _ => syncTimer s i p.retTimer
        | _ => p.retTimer })

/-! ### Component packets -/

/-- The service's cut searches that are past their deadline or their timer become overdue (R81). -/
def latchSearches (s : State) (i : Nat) : State :=
  s.modSp i (fun p =>
    { p with
      nxt := p.nxt.map (fun n => { n with overdue :=
        match n.phase with
        | .seeking => seekOverdue s i n
        | _ => if p.cur.isSome then stopOverdue s i n else n.overdue })
      cutOverdue := match p.cutX with
        | some x => p.cutOverdue || (p.comps.any (·.search) &&
            (pastDeadline s i x p.cutSeek || timerDone s p.cutTimer p.cutSeek))
        | none => false })

/-- E awaited from the next lead PES start is fixed (R43, R74, R97, R180). -/
def fixReturn (s : State) (i pts : Nat) : State :=
  match playingOwner s i with
  | some (.entry n) => setE s n pts
  | some (.alert r) => alertE s r i pts
  | _ => s

/-- The component's pending resume takes this packet (R96, R98, R102). -/
def resumes (p : SpliceRec) (pts : Option Nat) : Bool :=
  match p.ret with
  | .returning e => ptsAt pts e || p.retOverdue
  | .emergency => pts.isSome || p.retOverdue
  | .idle => false

/-- The component's own cut search takes this packet, and whether it is forced (R80, R82): it is when the search has been found
overdue (log 25). -/
def componentCutOf (s : State) (i : Nat) (c : CompState) (pts : Option Nat) : Option Bool :=
  let p := s.sp i
  match p.cutX with
  | some x =>
    if !c.search then none
    else if p.cutOverdue then some true
    else if ptsAt pts x then some false else none
  | none => none

/-- The network cut that a packet of the lead component brings (R79, R81, R86, R101), forced when the search has been found
overdue (log 25). -/
def networkCutOf (s : State) (i : Nat) (pts : Option Nat) : Option (Inst × Nat × Bool) :=
  match (s.sp i).nxt with
  | some n =>
    if n.phase = .seeking ∧ searchMode (s.sp i) = .network then
      (cutPoint n.overdue n pts).map (fun r => (n, r.1, r.2))
    else none
  | none => none

/-- The splice engine's decision on a packet of component `j` that it may examine (R10, R79 to R82, R96): the state,
and whether the packet enters the FIFO. A resume is judged before a cut (log 26); FORCED is raised before the cut is reported
(DESIGN CHOICE, log 58). -/
def decide_ (s0 : State) (i j : Nat) (pts : Option Nat) : State × Bool :=
  let lead := leadIdx (s0.svc i).defComps == some j
  let s := match pts with
    | some x => if lead && (s0.sp i).fixE then fixReturn s0 i x else s0
    | none => s0
  match (s.sp i).comps[j]? with
  | none => (s, true)
  | some c =>
    if c.replaced && resumes (s.sp i) pts then
      ((resumeComp s i j).modSp i (fun p => { p with comps := p.comps.modify j (fun x => { x with mark := true }) }), true)
    else match (if lead then networkCutOf s i pts else none) with
      | some (n, sEff, forced) => (networkCut (raiseIf forced s i .forced) i j n sEff, false)
      | none => match componentCutOf s i c pts with
        | some forced => (componentCut (raiseIf forced s i .forced) i j, false)
        | none => (s, !c.replaced)

/-- Enter a packet into the delay FIFO (R12): the flag says that it was entered, not dropped by overrun. -/
def enterFifo (s : State) (k : Nat) (b : Pkt) (mark : Bool) : State × Bool :=
  let l := s.lane k
  if l.fifo.length < 16384 then
    (s.setLane k { l with fifo := l.fifo ++ [{ pkt := b, stamp := s.localCount, resume := mark }] }, true)
  else
    let s1 := s.setLane k { l with overrun := true }
    (if l.overrun then s1 else s1.pushAll (.overrun k), false)

/-- The next packet of a component owes the resume mark (R96, R103). -/
def markOwed (s : State) (i j : Nat) : Bool :=
  match (s.sp i).comps[j]? with
  | some c => c.mark
  | none => false

/-- A component packet that goes on as a network packet: it carries the mark that its component owes; a marked
packet lost to an overrun leaves the mark owed (log 16). -/
def enterComponent (s : State) (k i j : Nat) (b : Pkt) : State :=
  let mark := markOwed s i j
  let r := enterFifo s k b mark
  if r.2 && mark then
    r.1.modSp i (fun p => { p with comps := p.comps.modify j (fun x => { x with mark := false }) })
  else r.1

/-- Index of the component with a PID. -/
def compIndex (v : Service) (pid : Nat) : Option Nat := firstIdx (fun c => c.pid == pid) v.defComps 0

/-- The service of a lane that names a PID as a component or as its cue PID. -/
def serviceOfPid (s : State) (k pid : Nat) : Option Nat :=
  (s.servicesOf k).find? (fun i => (compIndex (s.svc i) pid).isSome || ((s.svc i).defn.bind (·.cuePid)) == some pid)

/-- What the timebase unit takes from a component packet (R11): the PCR first, then the lead sample. -/
def observeComp (s : State) (i j : Nat) (b : Pkt) : State :=
  let v := s.svc i
  let s1 := if v.defn.map (·.pcrPid) = some (pktPid b) then observePcr s i b else s
  match pktPes b with
  | some p => if leadIdx v.defComps = some j then leadSample s1 i p.pts else s1
  | none => s1

/-- The PTS of the PES start that the splice engine sees in a packet: none in one that R6 excludes. -/
def seenPts (b : Pkt) : Option Nat := if excluded b then none else (pktPes b).map (·.pts)

/-- What precedes the splice engine's decision on a component packet: searches that are past their deadline as the packet
arrives are overdue (R81, R83; log 25), then the timebase unit takes its observations, none from a packet that R6 excludes. -/
def observePacket (s : State) (i j : Nat) (b : Pkt) : State :=
  let s1 := latchSearches s i
  if excluded b then s1 else syncTimers (observeComp s1 i j b) i

/-- A packet of a component (R10, R11). One that R6 excludes shows nothing, but it is a packet that arrives: an overdue search
or return takes it (R81, R82, R98; log 15). -/
def componentPacket (s : State) (k i j : Nat) (b : Pkt) : State :=
  let r := decide_ (observePacket s i j b) i j (seenPts b)
  if r.2 then enterComponent r.1 k i j b else r.1

/-- A packet on a service's cue PID (R10, R35, R45): it is read before it enters the FIFO, so that what its cue does comes
before the OVERRUN of a full one (DEDUCED, log 57). -/
def cuePidPacket (s : State) (k i : Nat) (b : Pkt) : State :=
  let s1 := if excluded b then s else cuePacket s i b
  match (s.svc i).defn with
  | some d => if d.strip then s1 else (enterFifo s1 k b false).1
  | none => s1

/-- An accepted packet on a RUNNING lane (R10, R11). -/
def classifyPacket (s : State) (k : Nat) (b : Pkt) : State :=
  let pid := pktPid b
  if pid = 0x1FFF then s
  else match serviceOfPid s k pid with
    | some i => match compIndex (s.svc i) pid with
      | some j => componentPacket s k i j b
      | none => cuePidPacket s k i b
    | none => (enterFifo s k b false).1

/-- Presence of the lane's input (R7). -/
def acceptInput (s : State) (k : Nat) : State :=
  let l := s.lane k
  let s1 := s.setLane k { l with inputPresent := true, inputTimer := some s.localCount }
  if l.inputPresent then s1 else s1.pushAll (.inputPresent k)

/-- PACKET_ARRIVAL (R6). -/
def packetArrival (s : State) (k : Nat) (b : Pkt) : State :=
  if s.resetAsserted ∨ b.headD 0 ≠ 0x47#8 then s
  else
    let s1 := acceptInput s k
    match (s.lane k).mode with
    | .bypass => s1.setLane k { (s1.lane k) with out := some b }
    | .running => rest (classifyPacket s1 k b)

/-- INPUT_LOST (R7): the input-loss timer of 100 ms expires. -/
def inputLost (s : State) (k : Nat) : State :=
  let l := s.lane k
  match l.inputPresent, l.inputTimer with
  | true, some t =>
    if s.resetAsserted then s
    else
      let s1 := advanceTo s (addMod nClk t (msTicks 100))
      (s1.setLane k { l with inputPresent := false, inputTimer := none }).pushAll (.inputLost k)
  | _, _ => s

/-- PCR_LOSS_TIMEOUT (R27): the loss timer of a LOCKED service expires. -/
def pcrLossTimeout (s : State) (i : Nat) : State :=
  match (s.svc i).clk.st, (s.svc i).clk.lossTimer with
  | .locked, some t =>
    if s.resetAsserted then s
    else
      let s1 := advanceTo s (addMod nClk t (msTicks (s.cfgOf i).lossTimeout))
      raise (s1.modSvc i (fun v => { v with clk := { v.clk with st := .holdover, lossTimer := none } })) i .hold
  | _, _ => s

end Sys2Proof.Machine
end

