-- ==== Sys2Proof/Machine/Merger.lean ====
section
/-! DEFINITION. SLOT: the output merger's choice, the late test, ownership of PIDs and continuity counters (R13 to R18). -/

namespace Sys2Proof.Machine

/-- A due time has come at a slot time (R13, R14). -/
def dueAt (t due : Nat) : Bool := atOrAfter nClk t due

/-- A clip packet's PID is open to its service (R16). -/
def pidOpen (l : Lane) (i pid : Nat) : Bool := (l.pid pid).owner == .clip i && (l.pid pid).tail == 0

/-- The clip packet at a service's head is considered at the slot: due, and its PID open (R14, R16). -/
def considered (s : State) (k i t : Nat) : Option HeadPkt :=
  match (s.sp i).head with
  | some h => if dueAt t h.due && pidOpen (s.lane k) i h.pid then some h else none
  | none => none

/-- The late test of R15. -/
def tooLate (s : State) (k t : Nat) (h : HeadPkt) : Bool :=
  atOrAfter nClk h.due h.w && decide ((msTicks (s.lane k).cfg.lateLimit : Int) < sdiff nClk t h.due)

/-- Remove the packet at a head, dropped with DROP. -/
def dropHead (s : State) (i : Nat) : State := raise (s.modSp i (fun p => { p with head := none })) i .drop

/-- A bound that the late tests of one slot cannot reach: a packet dropped is late by less than N_CLK / 2, and each drop of
a role brings a due time at least 27,000,000 / 20,000 ticks later (R89; log 20). -/
def lateBound : Nat := 4294967296

/-- Test a service's head for lateness, and the packets that follow it, for one slot (R15; log 20 for the bound). -/
def lateTests : Nat → State → Nat → Nat → Nat → State
  | 0, s, _, _, _ => s
  | f + 1, s, k, i, t =>
    match considered s k i t with
    | some h => if tooLate s k t h then lateTests f (settle (dropHead s i)) k i t else s
    | none => s

/-- What the merger sends at a slot. -/
inductive Choice where
  | network
  | clip (svc : Nat)
  | idle
  deriving DecidableEq, Repr

/-- The candidates of a slot with their due times (R14): the FIFO head, then the services in ascending order. -/
def candidates (s : State) (k t : Nat) : List (Choice × Nat) :=
  let l := s.lane k
  let net := match l.fifo with
    | e :: _ =>
      let due := addMod nClk e.stamp (msTicks l.cfg.delay)
      if dueAt t due then [(Choice.network, due)] else []
    | [] => []
  net ++ (s.servicesOf k).filterMap (fun i => (considered s k i t).map (fun h => (Choice.clip i, h.due)))

/-- The candidate with the earliest due time, the first of equals (R14). -/
def earliestOf (t : Nat) : List (Choice × Nat) → Choice × Nat → Choice
  | [], b => b.1
  | c :: r, b => if sdiff nClk t b.2 < sdiff nClk t c.2 then earliestOf t r c else earliestOf t r b

/-- The merger's choice (R14). -/
def chooseSlot (s : State) (k t : Nat) : Choice :=
  match candidates s k t with
  | c :: r => earliestOf t r c
  | [] => .idle

/-- The last output CC as a rule reads it (R17). -/
def PidEntry.readLast (e : PidEntry) : BitVec 4 := e.lastCC.getD 15#4

/-- The CC of a clip packet, and the entry after it (R17). One with neither payload nor adaptation field (adaptation field
control 00), of which R17 says nothing, goes as one without payload (DESIGN CHOICE, log 56). -/
def clipCC (e : PidEntry) (b : Pkt) : BitVec 4 × PidEntry :=
  if hasPayload b then (e.readLast + 1, { e with lastCC := some (e.readLast + 1) }) else (e.readLast, e)

/-- The CC of a network packet, and the entry after it (R18). A resume-marked one with neither payload nor adaptation field
sets the offset as one with an adaptation field only (DESIGN CHOICE, log 56). A mark acts also after a forced clear that met the
packet in the FIFO (DEDUCED, log 62). -/
def networkCC (e : PidEntry) (b : Pkt) (resume : Bool) : BitVec 4 × PidEntry :=
  let c := pktCC b
  let off := if resume then (if hasPayload b then e.readLast + 1 - c else e.readLast - c) else e.offset
  let e1 := { e with offset := off }
  if hasPayload b then
    if !resume && e.prevIn == some c then (e.readLast, e1)
    else (c + off, { e1 with lastCC := some (c + off), prevIn := some c })
  else (c + off, e1)

/-- The tail and owner of a PID as a network packet of it is sent (R16). -/
def PidEntry.afterNetwork (e : PidEntry) (resume : Bool) : PidEntry :=
  if 0 < e.tail then { e with tail := e.tail - 1 }
  else if resume then { e with owner := .network } else e

/-- A marked packet was sent with the tail at 0, so that its PID is the network's, whoever owned it before (R16, R99): a
clip packet of it at the head is dropped, and so is each that reaches the head afterwards (log 48). -/
def handBack (s : State) (k pid : Nat) : State :=
  match serviceOfPid s k pid with
  | none => s
  | some i => match compIndex (s.svc i) pid with
    | none => s
    | some j =>
      let s1 := s.modSp i (fun p =>
        { p with comps := p.comps.modify j (fun x => { x with unsent := false, handedBack := true }) })
      match (s1.sp i).head with
      | some h => if h.pid = pid then dropHead s1 i else s1
      | none => s1

/-- Send the packet at the head of the FIFO (R12, R16, R18). -/
def sendNetwork (s : State) (k : Nat) : State :=
  let l := s.lane k
  match l.fifo with
  | [] => s
  | e :: r =>
    let pid := pktPid e.pkt
    let p := l.pid pid
    let x := networkCC (p.afterNetwork e.resume) e.pkt e.resume
    let s1 := s.setLane k ({ l with fifo := r, out := some (setCC e.pkt x.1) }.setPid pid x.2)
    if e.resume ∧ p.tail = 0 then handBack s1 k pid else s1

/-- Send the clip packet at a service's head (R14, R17). -/
def sendClip (s : State) (k i : Nat) : State :=
  match (s.sp i).head with
  | none => s
  | some h =>
    let l := s.lane k
    let x := clipCC (l.pid h.pid) h.pkt
    let s1 := s.setLane k ({ l with out := some (setCC h.pkt x.1) }.setPid h.pid x.2)
    s1.modSp i (fun p => { p with head := none })

/-- Send what was chosen; with no candidate, a null packet (R14). -/
def sendChoice (s : State) (k : Nat) (c : Choice) : State :=
  match c with
  | .network => sendNetwork s k
  | .clip i => sendClip s k i
  | .idle => s.setLane k { (s.lane k) with out := some nullPacket }

/-- The slot accumulator goes on to the next slot (R13). -/
def Lane.nextSlot (l : Lane) : Lane :=
  let r := l.slotRem + 27000000
  { l with slotNo := l.slotNo + 1, slotRem := r % l.cfg.rOut, slotTime := addMod nClk l.slotTime (r / l.cfg.rOut) }

/-- SLOT (R14): the lane's next slot. The late tests of a slot (R15) go by ascending service, all of them before the send
(DESIGN CHOICE, log 61). -/
def slot (s : State) (k : Nat) : State :=
  if s.resetAsserted ∨ (s.lane k).mode = .bypass then s
  else
    let t := (s.lane k).slotTime
    let s1 := advanceTo s t
    let s2 := (s1.servicesOf k).foldl (fun s i => lateTests lateBound s k i t) s1
    let s3 := sendChoice s2 k (chooseSlot s2 k t)
    rest (s3.setLane k (s3.lane k).nextSlot)

end Sys2Proof.Machine
end

