-- ==== Sys2Proof/Machine/Timers.lean ====
section
/-! DEFINITION. The rows of passing time: TIME_TRIGGER, SEARCH_OVERDUE, SEEK_TIMER_EXPIRY, RETURN_OVERDUE and
ALERT_EXPIRY (R53, R81, R98, R101, R102, R179). A row taken before its moment moves the local count there (log 2). -/

namespace Sys2Proof.Machine

/-- The local tick at which the service time reaches a value (R23). -/
def localOf (s : State) (i c : Nat) : Nat := subMod nClk c (s.svc i).clk.sigma

/-- The local tick at which the estimate reaches a presentation time; absent while the estimate is (R31). -/
def estimateReaches (s : State) (i x : Nat) : Option Nat :=
  match serviceTime s i, lead s i with
  | some _, some l => some (localOf s i (300 * addSigned nPts x (-l)))
  | _, _ => none

/-- TIME_TRIGGER (R53). -/
def timeTrigger (s : State) (n : Nat) : State :=
  match s.entry n with
  | none => s
  | some e =>
    match e.st, e.trigger, serviceTime s e.svc with
    | .pending, .time t, some _ =>
      if s.resetAsserted ∨ !s.live e.svc then s
      else
        let fire := localOf s e.svc (subMod nClk t (msTicks (s.cfgOf e.svc).preroll))
        rest (armAndArbitrate (advanceTo s fire) n)
    | _, _, _ => s

/-- Deadlines of the service's open cut searches that are not yet overdue (R81, R82, R84). -/
def openDeadlines (p : SpliceRec) : List Nat :=
  (match p.nxt with
    | some n =>
      if n.overdue then []
      else match n.phase, n.s, n.sEff with
        | .seeking, some x, _ => [deadline x n.seekLimit]
        | .seeking, none, _ => []
        | _, _, some x => if p.cur.isSome then [deadline x n.seekLimit] else []
        | _, _, none => []
    | none => [])
  ++ (match p.cutX with
    | some x => if !p.cutOverdue && p.comps.any (·.search) then [deadline x p.cutSeek] else []
    | none => [])

/-- The earlier of points on a circle; none of none. -/
def earliestPoint (n : Nat) : List Nat → Option Nat
  | [] => none
  | x :: r => some (r.foldl (fun m y => if sdiff n y m < 0 then y else m) x)

/-- SEARCH_OVERDUE (R81). -/
def searchOverdue (s : State) (i : Nat) : State :=
  if s.resetAsserted then s
  else match (earliestPoint nPts (openDeadlines (s.sp i))).bind (estimateReaches s i) with
    | some t => rest (latchSearches (advanceTo s t) i)
    | none => s

/-- The return becomes overdue (R98, R102): FORCED, once for the return. -/
def latchReturn (s : State) (i : Nat) : State :=
  let p := s.sp i
  if p.retOverdue then s
  else raiseIf (!p.retForced) (s.modSp i (fun p => { p with retOverdue := true, retForced := true })) i .forced

/-- Expiry ticks of the service's running seek timers (R81, R101, R102). -/
def timerExpiries (p : SpliceRec) : List Nat :=
  let at_ := fun (t : Option Nat) (lim : Nat) => match t with
    | some t => [addMod nClk t (msTicks lim)]
    | none => []
  (match p.nxt with
    | some n => if !n.overdue && (n.phase == .seeking || p.cur.isSome) then at_ n.seekTimer n.seekLimit else []
    | none => [])
  ++ (if !p.cutOverdue && p.comps.any (·.search) then at_ p.cutTimer p.cutSeek else [])
  ++ (if p.ret != .idle && !p.retOverdue then at_ p.retTimer p.retSeek else [])

/-- SEEK_TIMER_EXPIRY (R81, R101, R102). -/
def seekTimerExpiry (s : State) (i : Nat) : State :=
  if s.resetAsserted then s
  else match earliestPoint nClk (timerExpiries (s.sp i)) with
    | some t =>
      let s1 := latchSearches (advanceTo s t) i
      let p := s1.sp i
      rest (if p.ret ≠ .idle ∧ timerDone s1 p.retTimer p.retSeek then latchReturn s1 i else s1)
    | none => s

/-- RETURN_OVERDUE (R98). -/
def returnOverdue (s : State) (i : Nat) : State :=
  let p := s.sp i
  match p.ret with
  | .returning e =>
    if s.resetAsserted ∨ p.retOverdue then s
    else match estimateReaches s i (deadline e p.retSeek) with
      | some t => rest (latchReturn (advanceTo s t) i)
      | none => s
  | _ => s

/-- ALERT_EXPIRY (R179). -/
def alertExpiry (s : State) (r : Nat) : State :=
  let a := s.alert r
  match a.st, a.timer with
  | .on, some t =>
    if s.resetAsserted then s
    else rest (endAlert (advanceTo s (addMod nClk t a.remTicks)) r .expired 0)
  | _, _ => s

end Sys2Proof.Machine
end

