-- ==== Sys2Proof/Machine/Pins.lean ====
section
/-! DEFINITION. The rows of the pins and of the clock monitor: RESETN, LOWSUPPLY and REFCLK (R21, R22, R131, R144, R199). -/

namespace Sys2Proof.Machine

/-- A link while RESETN is asserted: it receives nothing and sends nothing (R199). -/
def Link.silent (l : Link) : Link :=
  { l with rx := Rx.hunt, out := none, refusal := none, refusalFirst := false, tx := none, nextRate := none }

/-- RESETN_ASSERT (R136, R199): the operation in flight is torn, replies are cut off, the ports fall silent. -/
def resetnAssert (s : State) : State :=
  allPorts.foldl (fun s p => s.setLink p (s.link p).silent)
    { s with resetAsserted := true, flash := { s.flash with op := none } }

/-- RESETN_RELEASE (R131, R144, R199): every register at its reset value, the supply state at the pin's level with its
event, and the scan's first read granted. The pins and the queue of commands stand. -/
def resetnRelease (s : State) : State :=
  let s1 := { State.afterReset with
    pending := s.pending, lowsupply := s.lowsupply, refclk := s.refclk, freeCtr := s.freeCtr
    flash := { Flash.reset with supply := if s.lowsupply then .low else .normal } }
  rest (if s.lowsupply then s1.pushAll .supplyAsserted else s1)

/-- LOWSUPPLY_ASSERT (R144): the event, and the abort of a program or erase in flight. -/
def lowsupplyAssert (s : State) : State :=
  if s.lowsupply then s
  else if s.resetAsserted then { s with lowsupply := true }
  else
    let s1 := { s with lowsupply := true, flash := { s.flash with supply := .low } }
    rest (supplyAbort (s1.pushAll .supplyAsserted))

/-- LOWSUPPLY_RELEASE (R144). -/
def lowsupplyRelease (s : State) : State :=
  if !s.lowsupply then s
  else if s.resetAsserted then { s with lowsupply := false }
  else
    let s1 := { s with lowsupply := false, flash := { s.flash with supply := .normal } }
    rest (s1.pushAll .supplyReleased)

/-- Raise HOLD on every LOCKED service, in ascending number (R21). -/
def holdLocked : List Nat → State → State
  | [], s => s
  | i :: r, s => holdLocked r (raiseIf ((s.svc i).clk.st == .locked) s i .hold)

/-- REF_LOST (R21): the monitor enters BACKUP. -/
def refLost (s : State) : State :=
  if s.resetAsserted ∨ s.monitor = .backup then s
  else
    let s1 := { s with refclk := false, monitor := .backup, backupCount := 64, restoreCount := 0 }
    holdLocked s.listed (s1.pushAll .refLost)

/-- REFCLK edges in BACKUP that restore the reference: 100 ms of them (R22). -/
def restoreGoal : Nat := 2700000

/-- The row taken before its moment: the edges still missing from the restore count have come (log 2, log 4). -/
def edgesCome (s : State) : State := { s with refclk := true, backupCount := 0, restoreCount := max restoreGoal s.restoreCount }

/-- The restore count has reached its goal: the monitor returns to REFERENCE and the count to 0 (R22). -/
def restored (s : State) : State :=
  if restoreGoal ≤ s.restoreCount then ({ s with monitor := .reference, restoreCount := 0 }).pushAll .refRestored else s

/-- REF_RESTORED (R22): the monitor returns to REFERENCE at the 2,700,000th edge of the restore count. -/
def refRestored (s : State) : State :=
  if s.resetAsserted ∨ s.monitor = .reference then s else restored (edgesCome s)

/-- RESTORE_COUNT_GAP (R22): in BACKUP, a gap without edges sets the restore count to 0. -/
def restoreCountGap (s : State) : State :=
  if s.resetAsserted ∨ s.monitor = .reference then s
  else { s with refclk := false, backupCount := 64, restoreCount := 0 }

end Sys2Proof.Machine
end

