-- ==== Sys2Proof/Machine/FlashRows.lean ====
section
/-! DEFINITION. The rows of the flash channel's completions and of its time limits (R136, R140 to R143). -/

namespace Sys2Proof.Machine

/-- Pass or fail as the end of an operation. -/
def opEnd (pass : Bool) : OpEnd := if pass then .pass else .fail

/-- PAGE_READ_COMPLETE (R140): the read in flight ends with the outcome the channel's check gave. -/
def pageReadComplete (s : State) (o : ReadOutcome) (marker : Byte) : State :=
  match s.flash.op with
  | some op => if op.kind = .read then restAfter op (readEnded (opOver s) op o marker) else s
  | none => s

/-- PROGRAM_COMPLETE (R141). -/
def programComplete (s : State) (pass : Bool) : State :=
  match s.flash.op with
  | some op => match op.kind with
    | .program k => rest (programEnded (opOver s) op k (opEnd pass) true)
    | _ => s
  | none => s

/-- ERASE_COMPLETE (R142): the erase of a block of a dirty list. -/
def eraseComplete (s : State) (pass : Bool) : State :=
  match s.flash.op with
  | some op => match op.kind, op.req with
    | .erase, .eraser r => rest (eraseEnded (opOver s) r op.block (opEnd pass))
    | _, _ => s
  | none => s

/-- BLOCK0_ERASE_COMPLETE (R143): the erase of block 0 for a release. -/
def block0EraseComplete (s : State) (pass : Bool) : State :=
  match s.flash.op with
  | some op => match op.kind, op.req with
    | .erase, .releaseEraser => rest (block0Ended (opOver s) (opEnd pass))
    | _, _ => s
  | none => s

/-- FLASH_OP_TIMEOUT (R136): the operation in flight ends at its maximum time; what its requester asks for next is placed as after
its completion (R138; DESIGN CHOICE, log 60). -/
def flashOpTimeout (s : State) : State :=
  match s.flash.op with
  | some op => restAfter op (opTimedOut (advanceTo s (addMod nClk op.started op.kind.limit)) op)
  | none => s

end Sys2Proof.Machine
end

