-- ==== Sys2Proof/Machine/Events.lean ====
section
/-! DEFINITION. The event record of Read Events (R202). -/

namespace Sys2Proof.Machine

/-- Code of a result (R202). -/
def EntryResult.code : EntryResult → Nat
  | .completed => 1 | .truncated => 2 | .preempted => 3 | .cancelled => 4 | .missed => 5 | .superseded => 6 | .faulted => 7

/-- Code of an end cause (R202). -/
def EndCause.code : EndCause → Nat
  | .none => 0 | .expired => 1 | .cancelled => 2 | .vacated => 3

/-- Lock flags in the positions of Protection Set (R201). -/
def lockByte (c : ProtCopy) : Byte := byte1 ((if c.ingestLock then 1 else 0) + (if c.eraseLock then 2 else 0))

/-- Kind, detail and payload of an event (R202). Fields that the case gives no value are free (log 11). -/
def Event.fields : Event → List Byte
  | .entryEnd r n i pod first sEff e =>
    [0x01#8, byte1 r.code, byte1 n, byte1 i, byte1 pod] ++ leBytes 2 first ++ ptsBytes sEff ++ ptsBytes e
  | .condition i c => [0x02#8, byte1 c.pos, byte1 i]
  | .ingestSealed c k b sum => [0x03#8, 1] ++ leBytes 2 c ++ leBytes 4 k ++ [byte1 b] ++ leBytes 2 sum ++ idBytes none
  | .ingestFault c block seed =>
    [0x03#8, 2] ++ leBytes 2 c ++ freeBytes 4 seed 0 ++ freeBytes 1 seed 1 ++ freeBytes 2 seed 2 ++ leBytes 2 block
  | .checksumDone c stored computed page seed =>
    [0x04#8, match computed with | some v => (if v = stored then 1 else 2) | none => 3] ++ leBytes 2 c
      ++ [flagByte computed.isSome] ++ (match computed with | some v => leBytes 2 v | none => freeBytes 2 seed 0)
      ++ leBytes 2 stored ++ (match page with | some v => leBytes 2 v | none => freeBytes 2 seed 1)
  | .eraseDone c freed bad => [0x05#8, 0] ++ leBytes 2 c ++ [byte1 freed, byte1 bad]
  | .alertEnd cause r id held em => [0x06#8, byte1 cause.code, byte1 r] ++ leBytes 2 id ++ [byte1 held, byte1 em]
  | .preloadReady j c seed => [0x07#8, 1, byte1 j] ++ leBytes 2 c ++ freeBytes 1 seed 0
  | .preloadFailed j c page => [0x07#8, 2, byte1 j] ++ leBytes 2 c ++ [byte1 page]
  | .protectSet done copy seed =>
    [0x08#8, 1, if done then 1 else 2, lockByte copy, byte1 copy.count] ++ freeBytes 2 seed 0 ++ freeBytes 2 seed 1
  | .protectRelease block0 copy freed bad =>
    [0x08#8, 2, if block0 then 1 else 3, lockByte copy, byte1 copy.count] ++ leBytes 2 freed ++ leBytes 2 bad
  | .inputPresent k => [0x09#8, 1, byte1 k]
  | .inputLost k => [0x09#8, 2, byte1 k]
  | .overrun k => [0x09#8, 3, byte1 k]
  | .refLost => [0x0A#8, 1]
  | .refRestored => [0x0A#8, 2]
  | .supplyAsserted => [0x0B#8, 1]
  | .supplyReleased => [0x0B#8, 2]
  | .scanDone r d b => [0x0C#8, 0] ++ leBytes 2 r ++ leBytes 2 d ++ leBytes 2 b

/-- The record of 20 bytes, padded with 0 (R202). -/
def Event.record (e : Event) : List Byte := e.fields ++ List.replicate (20 - e.fields.length) 0

end Sys2Proof.Machine
end

