-- ==== Sys2Proof/Machine/PortCommands.lean ====
section
/-! DEFINITION. Identify, Read Status, Port Rate, Read Events and Watch (R192, R194 to R197). -/

namespace Sys2Proof.Machine

/-- Geometry and capacities in the order R196 lists them (R115, R196). Of the two regions' block ranges, the alert region's
comes first, and each has its first block before its last (DEDUCED, log 10). -/
def identifyValues : List Nat :=
  [4096, 64, 43, 8192, 448, 4, 0, 255, 256, 4095,
   4, 48, 16, 1, 8, 16384, 256, 4, 512, 119, 4, 4, 16, 8, 8, 32, 32]

/-- Results of Identify (R196). -/
def identifyBytes (s : State) (p : PortId) : List Byte :=
  leBytes 2 Config.partCode.toNat ++ [portByte p, byte1 (s.link p).rate, 0, 1, 2, 3]
    ++ identifyValues.flatMap (leBytes 2)

/-- Identify (R196). -/
def runIdentify (p : PortId) (res : Nat) (s : State) : Ans :=
  if res ≠ 0 then err s .badparam else ok s (identifyBytes s p)

/-- Mode, input-present flag and OVERRUN flag of a lane (R197). -/
def laneStatus (l : Lane) : List Byte :=
  [byte1 (match l.mode with | .bypass => 0 | .running => 1), flagByte l.inputPresent, flagByte l.overrun]

/-- Results of Read Status (R197). -/
def statusBytes (s : State) (p : PortId) : List Byte :=
  [byte1 (match s.part with | .scanning => 0 | .running => 1),
   byte1 (match s.flash.supply with | .normal => 0 | .low => 1),
   byte1 (match s.monitor with | .reference => 0 | .backup => 1)]
  ++ laneStatus (s.lane 0) ++ laneStatus (s.lane 1) ++ laneStatus (s.lane 2) ++ laneStatus (s.lane 3)
  ++ leBytes 2 (s.box p).queue.length ++ [flagByte (s.box p).lostEvents]

/-- Clear the OVERRUN flag of a lane (R197). -/
def clearOverrun (s : State) (k : Nat) : State := s.setLane k { (s.lane k) with overrun := false }

/-- Read Status (R197). -/
def runReadStatus (p : PortId) (res : Nat) (s : State) : Ans :=
  if res ≠ 0 then err s .badparam
  else ok (clearOverrun (clearOverrun (clearOverrun (clearOverrun s 0) 1) 2) 3) (statusBytes s p)

/-- Port Rate (R192): the new rate takes effect at the end of the reply. -/
def runPortRate (p : PortId) (rate res : Nat) (s : State) : Ans :=
  if 3 < rate ∨ res ≠ 0 then err s .badparam
  else
    let l := s.link p
    ok (s.setLink p { l with nextRate := if rate = l.rate then none else some rate }) [byte1 rate]

/-- Read Events (R194, R202). -/
def runReadEvents (p : PortId) (count res : Nat) (s : State) : Ans :=
  if count < 1 ∨ 16 < count ∨ res ≠ 0 then err s .badparam
  else
    let b := s.box p
    let out := b.queue.take count
    let left := b.queue.drop count
    ok (s.setBox p { b with queue := left, lostEvents := false })
      ([byte1 out.length, byte1 left.length, flagByte b.lostEvents] ++ out.flatMap Event.record)

/-- Watch (R195): the old set is reported in the 6 bytes that R201 gives the new one (DEDUCED, log 10). -/
def runWatch (p : PortId) (members : BitVec 48) (res : Nat) (s : State) : Ans :=
  if res ≠ 0 then err s .badparam
  else
    let b := s.box p
    ok (s.setBox p { b with watch := members }) (leBytes 6 b.watch.toNat)

end Sys2Proof.Machine
end

