-- ==== Sys2Proof/Machine/LaneCommands.lean ====
section
/-! DEFINITION. Configure Lane (R2 to R5). -/

namespace Sys2Proof.Machine

/-- An optional field lies in its range when it is present. -/
def inRange (v : Option Nat) (lo hi : Nat) : Bool :=
  match v with
  | some x => decide (lo ≤ x ∧ x ≤ hi)
  | none => true

/-- Rounding mode of a code (R201). -/
def roundingOf : Nat → Option Rounding
  | 0 => some .nearestEven | 1 => some .down | 2 => some .up | 3 => some .towardZero | _ => none

/-- Check 1 of R2. D and Q are required and checked when R_out is not 0. -/
def laneArgsOk (a : LaneArgs) : Bool :=
  decide (a.lane ≤ 3) && decide (a.res = 0)
  && (match a.rOut with
      | none => false
      | some 0 => true
      | some r => decide (2000 ≤ r ∧ r ≤ 53000) && a.delay.isSome && inRange a.delay 20 250
          && a.pool.isSome && inRange a.pool 0 53000)
  && inRange a.lateLimit 1 100 && inRange a.preroll 100 5000 && inRange a.seekLimit 40 2000
  && inRange a.rounding 0 3 && inRange a.lockWindow 270 270000 && inRange a.lossTimeout 40 700

/-- The settings of an accepted command, absent fields at their defaults (R2). With R_out 0 D and Q are not checked and may
be absent: one given is held as it is, an absent one as 0 (DESIGN CHOICE, log 50). -/
def settingsOf (a : LaneArgs) : LaneSettings :=
  { rOut := a.rOut.getD 0, delay := a.delay.getD 0, pool := a.pool.getD 0, lateLimit := a.lateLimit.getD 20,
    preroll := a.preroll.getD 500, seekLimit := a.seekLimit.getD 400,
    rounding := (roundingOf (a.rounding.getD 0)).getD .nearestEven, lockWindow := a.lockWindow.getD 2700,
    lossTimeout := a.lossTimeout.getD 150 }

/-- A service has an ARMED or ACTIVE insertion or a level-3 hold (R2, R110). -/
def engaged (s : State) (i : Nat) : Bool :=
  (armedEntry s i).isSome || (activeEntry s i).isSome || (holdingAlert s i).isSome

/-- A component's owed marks end with its lane's RUNNING (log 17). -/
def Service.unmark (v : Service) : Service :=
  { v with sp := { v.sp with comps := v.sp.comps.map (fun c => { c with mark := false }) } }

/-- The lane starts from nothing (R3). -/
def startLane (s : State) (k : Nat) (c : LaneSettings) : State :=
  let l := s.lane k
  let s1 := s.setLane k { l with mode := .running, cfg := c, fifo := [], pids := [], base := s.localCount, slotNo := 0,
                                 slotRem := 0, slotTime := s.localCount }
  let s2 := (s.servicesOf k).foldl (fun s i => s.modSvc i (fun v => { v.unmark with clk := ClockRec.reset })) s1
  poolFreed s2 k

/-- The first slot of the present sequence at or after now (R4). A slot at the present tick that has been sent already is not
counted: the next one is slot 0 (DESIGN CHOICE, log 73). -/
def firstSlotFrom (l : Lane) (now : Nat) : Nat :=
  if atOrAfter nClk l.slotTime now then l.slotTime
  else
    let d := (sdiff nClk now l.slotTime).toNat
    let m := ceilDiv (d * l.cfg.rOut - l.slotRem) 27000000
    addMod nClk l.slotTime ((l.slotRem + m * 27000000) / l.cfg.rOut)

/-- A RUNNING lane goes on with new settings (R4): the slot sequence restarts when R_out changes, the pool counts as
freed, and a changed preroll is tested (R53), in this order and the services ascending (DESIGN CHOICE, log 51). A command
that changes no setting has no effect beyond its reply, so the arbiter does not run either (DEDUCED, log 52). -/
def adjustLane (s : State) (k : Nat) (c : LaneSettings) : State :=
  let l := s.lane k
  if l.cfg = c then s
  else
    let base := firstSlotFrom l s.localCount
    let l1 : Lane := if l.cfg.rOut = c.rOut then { l with cfg := c }
      else { l with cfg := c, base := base, slotNo := 0, slotRem := 0, slotTime := base }
    let s1 := poolFreed (s.setLane k l1) k
    if l.cfg.preroll = c.preroll then s1 else (s.servicesOf k).foldl fireDue s1

/-- The entries of a service end CANCELLED, in ascending number (R5, R112). -/
def cancelAll (s : State) (i : Nat) : State :=
  ((entriesOf s i).map (·.num)).foldl (fun s n =>
    match s.entry n with
    | some e => endEntry s e .cancelled
    | none => s) s

/-- A RUNNING lane returns to BYPASS (R5); its services end their entries by ascending service, then entry (DESIGN CHOICE,
log 51). -/
def stopLane (s : State) (k : Nat) (c : LaneSettings) : State :=
  let l := s.lane k
  let s1 := s.setLane k { l with mode := .bypass, cfg := c, fifo := [], pids := [], base := 0, slotNo := 0, slotRem := 0,
                                 slotTime := 0 }
  (s.servicesOf k).foldl (fun s i =>
    (cancelAll s i).modSvc i (fun v => { v.unmark with clk := ClockRec.reset, cues := [] })) s1

/-- Configure Lane (R2 to R5). -/
def runConfigureLane (a : LaneArgs) (s : State) : Ans :=
  if !laneArgsOk a then err s .badparam
  else if (s.servicesOf a.lane).any (engaged s) then err s .inuse
  else
    let c := settingsOf a
    match (s.lane a.lane).mode with
    | .bypass => if c.rOut = 0 then ok s [] else ok (rest (startLane s a.lane c)) []
    | .running => if c.rOut = 0 then ok (rest (stopLane s a.lane c)) [] else ok (rest (adjustLane s a.lane c)) []

end Sys2Proof.Machine
end

