-- ==== Sys2Proof/Machine/ServiceCommands.lean ====
section
/-! DEFINITION. Configure Service, Set Masks, Clear Conditions, Read Service and Clear Service (R8, R9, R107 to R113, R204). -/

namespace Sys2Proof.Machine

/-! ### Component lists of a command body -/

/-- The first `n` positions as components; none when a kind code is outside the three (R201). -/
def takeComps : Nat → List CompPos → Option (List Comp)
  | 0, _ => some []
  | _ + 1, [] => none
  | n + 1, p :: r => match kindOf p.kind, takeComps n r with
    | some k, some cs => some ({ pid := p.pid, kind := k } :: cs)
    | _, _ => none

/-- The positions beyond the count hold 0 (R200). -/
def restZero (n : Nat) (l : List CompPos) : Bool := (l.drop n).all (fun p => p.pid == 0 && p.kind == 0)

/-- A PID that a definition may not name: 0x0000 … 0x000F, 0x1FFF, or not a PID at all (R8, R154; log 30). -/
def badPid (pid : Nat) : Bool := decide (pid < 16) || decide (0x1FFF ≤ pid)

/-- No PID stands twice. -/
def distinctPids (cs : List Comp) : Bool := decide ((cs.map (·.pid)).Nodup)

/-- Some component is VIDEO or AUDIO (R8, R154). -/
def hasLead (cs : List Comp) : Bool := (leadIdx cs).isSome

/-! ### Configure Service -/

/-- Check 1 of R8 without the component list. -/
def serviceArgsOk (a : ServiceArgs) : Bool :=
  decide (a.svc ≤ 47) && decide (a.lane ≤ 3) && decide (a.count ≤ 8) && decide (a.handling ≤ 1)
    && decide (a.ceiling ≤ 20000) && decide (a.res = 0) && restZero a.count a.positions

/-- PIDs that a definition names as component or cue PID. -/
def ServiceDef.pids (d : ServiceDef) : List Nat := d.comps.map (·.pid) ++ d.cuePid.toList

/-- The definition of a command (R8, R9). -/
def defOf (a : ServiceArgs) (cs : List Comp) : ServiceDef :=
  { lane := a.lane, comps := cs, pcrPid := a.pcrPid, cuePid := a.cuePid, strip := a.handling == 0, ceiling := a.ceiling }

/-- Checks 2 to 4 of R8. -/
def definitionOk (d : ServiceDef) : Bool :=
  !(d.comps.any (fun c => badPid c.pid)) && !badPid d.pcrPid && !(d.cuePid.toList.any badPid)
    && distinctPids d.comps && (d.comps.map (·.pid)).contains d.pcrPid
    && !(d.cuePid.toList.any (fun x => (d.comps.map (·.pid)).contains x))
    && hasLead d.comps

/-- Check 5 of R8: a PID of the definition is named by another service of the lane. -/
def pidTaken (s : State) (i : Nat) (d : ServiceDef) : Bool :=
  (s.servicesOf d.lane).any (fun j => j != i && (match (s.svc j).defn with
    | some x => x.pids.any (fun p => d.pids.contains p)
    | none => false))

/-- Check 6 of R8: an entry of the service, or a level-3 hold. -/
def claimed (s : State) (i : Nat) : Bool := !(entriesOf s i).isEmpty || (holdingAlert s i).isSome

/-- Check 7 of R8: the lane would hold 17 services. -/
def laneFull (s : State) (i k : Nat) : Bool := decide (16 ≤ ((s.servicesOf k).filter (fun j => j != i)).length)

/-- The PIDs of the old definition return to their entry state (R9). -/
def restoreOld (s : State) (i : Nat) : State :=
  match (s.svc i).defn with
  | some d => s.setLane d.lane ((s.lane d.lane).restorePids (d.pids ++ [d.pcrPid]))
  | none => s

/-- Lead PID and kind (R9, R204). -/
def leadBytesOf (cs : List Comp) : List Byte :=
  match (leadIdx cs).bind (fun j => cs[j]?) with
  | some c => leBytes 2 c.pid ++ [byte1 c.kind.code]
  | none => [0, 0, 0]

/-- What a removal is checked for besides check 6 of R8: the service number, and the reserved field and unused positions
of R200 (log 29). Its lane, PIDs, handling and ceiling define nothing. -/
def removalArgsOk (a : ServiceArgs) : Bool := decide (a.svc ≤ 47) && decide (a.res = 0) && restZero 0 a.positions

/-- A Configure Service with 0 components (R9). It has no lead to report: its reply's fields are free (log 29). -/
def removeService (a : ServiceArgs) (s : State) : Ans :=
  if !removalArgsOk a then err s .badparam
  else if claimed s a.svc then err s .inuse
  else
    let fr := s.fresh
    ok (rest ((restoreOld fr.2 a.svc).setSvc a.svc Service.reset)) (freeBytes 2 fr.1 0 ++ freeBytes 1 fr.1 1)

/-- Configure Service (R8, R9). -/
def runConfigureService (a : ServiceArgs) (s : State) : Ans :=
  if a.count = 0 then removeService a s
  else if !serviceArgsOk a then err s .badparam
  else match takeComps a.count a.positions with
    | none => err s .badparam
    | some cs =>
      let d := defOf a cs
      if !definitionOk d then err s .badparam
      else if pidTaken s a.svc d then err s .badparam
      else if claimed s a.svc then err s .inuse
      else if laneFull s a.svc a.lane then err s .full
      else
        ok (rest ((restoreOld s a.svc).setSvc a.svc
          { Service.reset with defn := some d, sp := SpliceRec.reset cs.length })) (leadBytesOf cs)

/-! ### Set Masks and Clear Conditions -/

/-- The check of R107 and R108. -/
def conditionArgsOk (s : State) (i : Nat) (v : BitVec 16) (res : Nat) : Bool :=
  decide (i ≤ 47) && decide (res = 0) && (v >>> 10 == 0#16) && (s.svc i).defn.isSome

/-- Ten flags or masks in two bytes, at the positions of R201: so R204 lays them out, and the replies of Set Masks and Clear
Conditions take the same bytes (DEDUCED, log 10). -/
def condBytes (v : BitVec 10) : List Byte := leBytes 2 v.toNat

/-- Set Masks (R107). -/
def runSetMasks (i : Nat) (masks : BitVec 16) (res : Nat) (s : State) : Ans :=
  if !conditionArgsOk s i masks res then err s .badparam
  else ok (s.modSvc i (fun v => { v with cond := { v.cond with masks := masks.setWidth 10 } }))
    (condBytes (s.svc i).cond.flags)

/-- Clear Conditions (R108). -/
def runClearConditions (i : Nat) (conds : BitVec 16) (res : Nat) (s : State) : Ans :=
  if !conditionArgsOk s i conds res then err s .badparam
  else ok (s.modSvc i (fun v => { v with cond := { v.cond with flags := v.cond.flags &&& ~~~(conds.setWidth 10) } }))
    (condBytes (s.svc i).cond.flags)

/-! ### Read Service -/

/-- Holder of a service: kind code, number, S and E (R49, R109). -/
def holderOf (s : State) (i : Nat) : Nat × Nat × Option Nat × Option Nat :=
  match activeEntry s i with
  | some e => (1, e.num, e.s, e.e)
  | none => match holdingAlert s i with
    | some r => match (s.alert r).target i with
      | some t => (2, r, t.s, t.e)
      | none => (2, r, none, none)
    | none => (0, 0, none, none)

/-- Phase code (R204). -/
def Phase.code : Phase → Nat
  | .seeking => 0 | .playing => 1 | .ending => 2

/-- An instance as Read Service reports it (R204). -/
def instBytes : Option Inst → List Byte
  | some n => leBytes 2 n.clip ++ [byte1 n.phase.code] ++ ptsBytes n.delta
  | none => idBytes none ++ [0] ++ ptsBytes none

/-- Pages an instance holds. -/
def pagesHeld : Option Inst → Nat
  | some n => n.pages.length
  | none => 0

/-- The snapshot of 106 bytes (R109, R204). Which fields of an unconfigured context are 0 and which absent, and the packet
index 0 of a context without a current instance, are the model's (DEDUCED, log 46). -/
def serviceBytes (s : State) (i : Nat) : List Byte :=
  let v := s.svc i
  let p := v.sp
  let h := holderOf s i
  let armed := armedEntry s i
  match v.defn with
  | none =>
    [0] ++ List.replicate 33 0 ++ idBytes none ++ List.replicate 6 0 ++ idBytes none ++ [byte1 0]
      ++ tickBytes (some 0) ++ leadBytes none ++ List.replicate 3 0#8 ++ instBytes none ++ instBytes none
      ++ leBytes 4 0 ++ tickBytes none ++ ptsBytes none ++ ptsBytes none ++ ptsBytes none ++ List.replicate 2 0#8
      ++ condBytes CondRec.reset.flags ++ condBytes CondRec.reset.masks
  | some d =>
    [byte1 i, 1, byte1 d.lane, flagByte (s.live i), byte1 d.comps.length] ++ compBytes d.comps ++ leadBytesOf d.comps
      ++ leBytes 2 d.pcrPid ++ idBytes d.cuePid ++ [byte1 (if d.strip then 0 else 1)] ++ leBytes 2 d.ceiling
      ++ [byte1 h.1, byte1 h.2.1, byte1 (heldLevel s i)] ++ idBytes (armed.map (·.num))
      ++ [byte1 (match v.clk.st with | .unlocked => 0 | .locked => 1 | .holdover => 2)]
      ++ tickBytes (some v.clk.sigma) ++ leadBytes (lead s i) ++ [flagByte v.clk.cand.isSome,
          byte1 (match s.monitor with | .reference => 0 | .backup => 1),
          byte1 (match p.ret with | .idle => 0 | .returning _ => 1 | .emergency => 2)]
      ++ instBytes p.cur ++ instBytes p.nxt ++ leBytes 4 (match p.cur with | some n => n.k | none => 0)
      ++ tickBytes p.sigmaP ++ ptsBytes h.2.2.1 ++ ptsBytes h.2.2.2 ++ ptsBytes (armed.bind (·.s))
      ++ [byte1 (pagesHeld p.cur), byte1 (pagesHeld p.nxt)] ++ condBytes v.cond.flags
      ++ condBytes v.cond.masks

/-- Read Service (R109). -/
def runReadService (i res : Nat) (s : State) : Ans :=
  if 47 < i ∨ res ≠ 0 then err s .badparam else ok s (serviceBytes s i)

/-! ### Clear Service -/

/-- PLAIN (R111). -/
def plainClear (s : State) (i : Nat) : State :=
  s.modSvc i (fun v => { v with clk := ClockRec.reset, cues := [], cond := { v.cond with flags := 0 } })

/-- The splice engine under a forced clear (R103): instances, head, searches and return go, and a component that was
REPLACED owes the resume mark to its next packet. A NETWORK component that still owes one keeps it owed (DEDUCED, log 62). -/
def stopSplice (s : State) (i : Nat) : State :=
  (discardRole (discardRole s i .current) i .next).modSp i (fun p =>
    { SpliceRec.reset p.comps.length with
      comps := p.comps.map (fun c => { CompState.reset with mark := c.replaced || c.mark }) })

/-- The service's state under a forced clear (R113). A packet of a NETWORK component that stands in the FIFO with a resume mark
keeps the mark, and R18 sets the offset anew at it (DEDUCED, log 62). -/
def forcedReset (s : State) (i : Nat) : State :=
  match (s.svc i).defn with
  | none => s
  | some d =>
    (s.setLane d.lane ((s.lane d.lane).restorePids (d.comps.map (·.pid)))).modSvc i (fun v =>
      { v with clk := ClockRec.reset, cues := [], cond := CondRec.reset })

/-- An entry of the service held pool (R112). -/
def heldPool (s : State) (i : Nat) : Bool := (armedEntry s i).isSome || (activeEntry s i).isSome

/-- FORCED (R112, R113): splicing stops, the service leaves its alert's held set and that record is tested, the entries
end, the arbiter runs once, the state is reset, and only then a DEFERRED record takes the service (R182; log 24). -/
def forcedClear (s : State) (i : Nat) : State :=
  let s1 := stopSplice s i
  let s2 := match holdingAlert s i with
    | some r => testRecord (leaveHeld s1 r i false) r
    | none => s1
  let s3 := cancelAll s2 i
  let s4 := if heldPool s i then poolFreed s3 ((s.laneOf i).getD 0) else s3
  let s5 := forcedReset s4 i
  if (holdingAlert s i).isSome then passOn s5 i else s5

/-- Clear Service (R110). Its reply gives the holder as R204 does, a kind byte and a number byte (DEDUCED, log 10). -/
def runClearService (p : PortId) (i form res : Nat) (s : State) : Ans :=
  if form = 1 ∧ p ≠ .ap then err s .denied
  else if 47 < i ∨ 1 < form ∨ res ≠ 0 then err s .badparam
  else if (s.svc i).defn.isNone then err s .badparam
  else
    let h := holderOf s i
    if form = 0 then
      if engaged s i then err s .inuse else ok (plainClear s i) ([byte1 h.1, byte1 h.2.1] ++ leBytes 2 0)
    else ok (rest (forcedClear s i)) ([byte1 h.1, byte1 h.2.1] ++ leBytes 2 (entriesOf s i).length)

end Sys2Proof.Machine
end

