-- ==== Sys2Proof/Machine/ScheduleCommands.lean ====
section
/-! DEFINITION. Add Entry, Cancel Entry and Read Entry (R50, R51, R53, R55, R73 to R75, R203). -/

namespace Sys2Proof.Machine

/-- Check 1 of R50, with the positions that a kind leaves unused (R200; log 38). -/
def entryArgsOk (a : EntryArgs) : Bool :=
  decide (a.svc ≤ 47) && decide (1 ≤ a.podCount ∧ a.podCount ≤ 4)
    && (a.pod.take a.podCount).all (fun c => c != 0 && c != 65535) && (a.pod.drop a.podCount).all (· == 0)
    && decide (a.trigKind ≤ 2) && decide (a.retKind ≤ 2)
    && (match a.trigKind with
        | 0 => decide (a.trigValue < 65536)
        | 1 => decide (a.trigValue < nClk)
        | _ => decide (a.trigValue = 0))
    && (if a.retKind = 1 then decide (1 ≤ a.duration ∧ a.duration ≤ 324000000) else decide (a.duration = 0))
    && decide (a.window ≤ 900000) && decide (a.res = 0)

/-- Trigger of a command (R201). -/
def triggerOf (kind value : Nat) : Trigger :=
  match kind with
  | 0 => .cue value
  | 1 => .time value
  | _ => .now

/-- Return mode of a command (R201). -/
def retModeOf (kind duration : Nat) : RetMode :=
  match kind with
  | 0 => .cue
  | 1 => .duration duration
  | _ => .clipEnd

/-- A clip that an entry may name: SEALED, in the main region (R50). -/
def playable (s : State) (c : Nat) : Bool :=
  match s.clip c with
  | some r => r.st == .good && r.region == .main
  | none => false

/-- The lowest free entry number (R51). -/
def freeNumber (s : State) : Option Nat := (List.range 256).find? (fun n => (s.entry n).isNone)

/-- The entry of an accepted command (R51). -/
def newEntry (p : PortId) (a : EntryArgs) (n : Nat) : Entry :=
  { num := n, origin := p, svc := a.svc, trigger := triggerOf a.trigKind a.trigValue, pod := a.pod.take a.podCount,
    retMode := retModeOf a.retKind a.duration, window := a.window, st := .pending, a := none, binding := none,
    s := none, sEff := none, e := none, commitment := 0, podIdx := 0, cancelled := false, xEnd := none,
    podEnded := false }

/-- The trigger of a new entry acts at once (R51, R53, R55). -/
def applyTrigger (s : State) (n : Nat) : State :=
  match s.entry n with
  | some e => match e.trigger with
    | .now => armAndArbitrate s n
    | .time _ => if timeDue s e then armAndArbitrate s n else s
    | .cue _ => s
  | none => s

/-- Waiting cause code (R201). -/
def WaitCause.code : WaitCause → Nat
  | .held => 1 | .pool => 2 | .clock => 3

/-- State and cause of an entry as bytes (R201, R203). -/
def EntryState.bytes : EntryState → List Byte
  | .pending => [0, 0] | .waiting c => [1, byte1 c.code] | .armed => [2, 0] | .active => [3, 0]

/-- State byte and cause byte of a reply to Add Entry (R201): an entry that has ended within its own command has
ended MISSED, the one result it can reach there. -/
def addReply (s : State) (n : Nat) : List Byte :=
  match s.entry n with
  | some e => e.st.bytes
  | none => [byte1 (0x80 + EntryResult.missed.code), 0]

/-- Add Entry (R50, R51). -/
def runAddEntry (p : PortId) (a : EntryArgs) (s : State) : Ans :=
  let pod := a.pod.take a.podCount
  if !entryArgsOk a then err s .badparam
  else if a.retKind = 0 ∧ a.trigKind ≠ 0 then err s .badparam
  else if !s.live a.svc then err s .badparam
  else if !(pod.all (playable s)) then err s .notfound
  else if (((s.svc a.svc).defn.map (·.ceiling)).getD 0) < podRate s pod then err s .badparam
  else match freeNumber s with
    | none => err s .full
    | some n =>
      let s1 := (pod.foldl State.addRef s).setEntry n (some (newEntry p a n))
      let s2 := applyTrigger s1 n
      ok (rest s2) (byte1 n :: addReply s2 n)

/-- Cancel Entry of an ACTIVE entry (R74). -/
def cancelActive (s : State) (e : Entry) : State :=
  if e.cancelled then s
  else
    let s1 := s.setEntry e.num (some { e with cancelled := true })
    if returnBegun s e.svc then s1
    else match estimate s e.svc with
      | some x => match e.e with
        | some y => if sdiff nPts y x < 0 then s1 else setE s1 e.num x
        | none => setE s1 e.num x
      | none => awaitLead (s1.setEntry e.num (some { e with cancelled := true, e := none })) e.svc true

/-- Cancel Entry (R73): the reply's state is its byte alone, without a waiting cause (DEDUCED, log 10). -/
def runCancelEntry (p : PortId) (n res : Nat) (s : State) : Ans :=
  if 255 < n ∨ res ≠ 0 then err s .badparam
  else match s.entry n with
    | none => err s .notfound
    | some e =>
      if e.origin ≠ p then err s .denied
      else
        let s1 := if e.st = .active then cancelActive s e else endAndRelease s e .cancelled
        ok (rest s1) [e.st.bytes.headD 0]

/-- Kind and value of a trigger (R203). -/
def triggerBytes : Trigger → List Byte
  | .cue t => 0 :: leBytes 6 t | .time t => 1 :: leBytes 6 t | .now => 2 :: leBytes 6 0

/-- Kind and duration of a return mode (R203). -/
def retModeBytes : RetMode → List Byte
  | .cue => 0 :: leBytes 4 0 | .duration d => 1 :: leBytes 4 d | .clipEnd => 2 :: leBytes 4 0

/-- The cue binding: present, cue id, flags, splice time, break duration (R203). An absent splice time has the absent
encoding of R200. A break duration that the OUT did not carry is not valid, and the manual gives its bytes no value: the
model's choice is 0 (DESIGN CHOICE, log 45). -/
def bindingBytes : Option Binding → List Byte
  | some b => [1] ++ leBytes 4 b.cueId ++ [b.flags] ++ ptsBytes b.splice ++ leBytes 4 (b.duration.getD 0)
  | none => List.replicate 15 0

/-- The record of 69 bytes (R75, R203). -/
def entryBytes (s : State) (e : Entry) : List Byte :=
  [byte1 e.num, portByte e.origin, byte1 e.svc, byte1 (levelOf e.origin)] ++ e.st.bytes ++ triggerBytes e.trigger
    ++ retModeBytes e.retMode ++ leBytes 4 e.window ++ [byte1 e.pod.length]
    ++ (List.range 4).flatMap (fun j => idBytes e.pod[j]?) ++ ptsBytes e.a ++ bindingBytes e.binding
    ++ ptsBytes e.s ++ ptsBytes e.sEff ++ ptsBytes e.e
    ++ [byte1 e.podIdx, flagByte e.cancelled, byte1 (heldLevel s e.svc)]

/-- Read Entry (R75). -/
def runReadEntry (n res : Nat) (s : State) : Ans :=
  if 255 < n ∨ res ≠ 0 then err s .badparam
  else match s.entry n with
    | none => err s .notfound
    | some e => ok s (entryBytes s e)

end Sys2Proof.Machine
end

