-- ==== Sys2Proof/Machine/IngestCommands.lean ====
section
/-! DEFINITION. Ingest Open, Ingest Data, Ingest Close and Ingest Abort (R154 to R162). -/

namespace Sys2Proof.Machine

/-- Region that a port ingests into (R117, R154). -/
def regionOf : PortId → Region
  | .ap => .alert
  | _ => .main

/-- A clip id that a command may name. -/
def badClip (c : Nat) : Bool := c == 0 || decide (65535 ≤ c)

/-- Check 1 of R154 without the component list. -/
def ingestArgsOk (a : IngestArgs) : Bool :=
  !badClip a.clip && decide (100 ≤ a.rate ∧ a.rate ≤ 20000) && decide (1 ≤ a.kDecl ∧ a.kDecl ≤ 327488)
    && decide (1 ≤ a.count ∧ a.count ≤ 8) && decide (a.pcrIndex < a.count) && decide (a.res = 0)
    && restZero a.count a.positions

/-- The rest of check 1 of R154. -/
def ingestCompsOk (cs : List Comp) : Bool := !(cs.any (fun c => badPid c.pid)) && distinctPids cs && hasLead cs

/-- Checks 2 to 7 of R154. -/
def ingestRefusal (s : State) (p : PortId) (a : IngestArgs) : Option Status :=
  let f := s.flash
  if (s.ingest p).st ≠ .none then some .inuse
  else if p = .ap ∧ f.unusable then some .fault
  else if p = .ap ∧ f.prot.ingestLock then some .protected_
  else if p = .ap ∧ f.release.isSome then some .busy
  else if f.supply = .low then some .busy
  else if (s.clip a.clip).isSome then some .duplicate
  else if 512 ≤ s.directory.length then some .full
  else if (f.free (regionOf p)).length < blocksOf a.kDecl then some .full
  else none

/-- The effects of an accepted Ingest Open (R155). -/
def openIngest (s : State) (p : PortId) (a : IngestArgs) (cs : List Comp) : State :=
  let r := regionOf p
  let n := blocksOf a.kDecl
  let l := s.flash.free r
  let d : Declared := { rate := a.rate, kDecl := a.kDecl, comps := cs, pcrIndex := a.pcrIndex }
  let rec_ : ClipRec := { clip := a.clip, region := r, chain := l.take n, st := .ingesting, decl := some d,
                          sealVals := none, marker := .none, refs := 0 }
  let g : Ingest := { Ingest.reset with
    st := .open_, clip := a.clip, region := r, decl := d, lead := leadIndex cs
    bufA := { Buf.empty with st := .filling } }
  ((s.modFlash (fun f => f.setFree r (l.drop n))).setClip a.clip (some rec_)).setIngest p g

/-- Ingest Open (R154, R155). Its reply gives the lead component's index in one byte (DEDUCED, log 10). -/
def runIngestOpen (p : PortId) (a : IngestArgs) (s : State) : Ans :=
  if !ingestArgsOk a then err s .badparam
  else match takeComps a.count a.positions with
    | none => err s .badparam
    | some cs =>
      if !ingestCompsOk cs then err s .badparam
      else match ingestRefusal s p a with
        | some st => err s st
        | none => ok (rest (openIngest s p a cs)) (leBytes 2 (blocksOf a.kDecl) ++ [byte1 (leadIndex cs)])

/-- Ingest Data in OPEN (R156, R157): aborted on a bad boundary, refused over the declaration, taken, or held. -/
def takeData (p : PortId) (data : List Byte) (s : State) : Ans :=
  let g := s.ingest p
  let m := g.declared (g.split188 data).1
  if g.badBoundary data then err (rest (endIngest s p none)) .badparam
  else if g.decl.kDecl < g.stored + m then err s .full
  else if m ≤ g.freePositions then
    let g1 := g.take data
    ok (rest (s.setIngest p g1)) (leBytes 4 g1.stored)
  else { s := s.setIngest p { g with held := .data data }, reply := none }

/-- Ingest Data (R156, R162). -/
def runIngestData (p : PortId) (data : List Byte) (s : State) : Ans :=
  match (s.ingest p).st with
  | .none => err s .notfound
  | .open_ => takeData p data s
  | _ => err s .inuse

/-- Cause byte of a VERIFY reply (R159, R200): bits 0 to 3 in the order of R159's list (DEDUCED, log 10). -/
def verifyCause (g : Ingest) (expected : Nat) : Nat :=
  (if g.c0.isNone then 1 else 0) + (if g.pcr.isNone then 2 else 0) + (if g.split then 4 else 0)
    + (if g.checksum ≠ expected then 8 else 0)

/-- The unit at an accepted Ingest Close (R160): a FILLING buffer with packets is handed as the last page. -/
def Ingest.close (g : Ingest) (duration : Nat) : Ingest :=
  let g1 := { g with st := .closing, asm := [], endPts := addMod nPts (g.c0.getD 0) duration }
  (match g1.find .filling with
    | some b => if (g1.buf b).pkts.isEmpty then g1.setBuf b Buf.empty else g1.hand b
    | none => g1).pump

/-- Ingest Close in OPEN (R159, R160). -/
def closeIngest (p : PortId) (checksum duration : Nat) (s : State) : Ans :=
  let g := s.ingest p
  let cause := verifyCause g checksum
  if cause ≠ 0 then
    { s := rest (endIngest s p none),
      reply := some (.verify, [byte1 cause] ++ leBytes 2 g.checksum ++ leBytes 2 g.asm.length) }
  else
    let g1 := g.close duration
    ok (rest (s.setIngest p g1))
      (leBytes 2 g.checksum ++ ptsBytes g.c0 ++ tickBytes g.pcr0 ++ ptsBytes (some g1.endPts) ++ leBytes 4 g.stored
        ++ leBytes 2 g.asm.length)

/-- Ingest Close (R159, R162). -/
def runIngestClose (p : PortId) (checksum duration res : Nat) (s : State) : Ans :=
  if duration < 1 ∨ 324000000 < duration ∨ res ≠ 0 then err s .badparam
  else match (s.ingest p).st with
    | .none => err s .notfound
    | .open_ => closeIngest p checksum duration s
    | _ => err s .inuse

/-- Ingest Abort (R161, R162): at once, or held until the program in flight completes. -/
def runIngestAbort (p : PortId) (res : Nat) (s : State) : Ans :=
  if res ≠ 0 then err s .badparam
  else match (s.ingest p).st with
    | .none => err s .notfound
    | .ending => err s .inuse
    | _ =>
      if ingestInFlight s p then
        { s := s.setIngest p { (s.ingest p) with st := .ending, held := .abort }, reply := none }
      else ok (rest (endIngest s p none)) []

end Sys2Proof.Machine
end

