-- ==== Sys2Proof/Machine/ClipCommands.lean ====
section
/-! DEFINITION. Clip Erase, Clip Checksum, List Directory and Read Clip (R164 to R169). -/

namespace Sys2Proof.Machine

/-- The identity of a new Clip Erase: one above those that stand (R142, log 33). -/
def newJob (f : Flash) : Nat := f.jobs.foldl (fun m j => max m (j.id + 1)) 0

/-- The effects of an accepted Clip Erase (R164). -/
def eraseClip (s : State) (p : PortId) (r : ClipRec) : State :=
  let id := newJob s.flash
  let s1 := s.removeClip r r.chain (some id)
  s1.modFlash (fun f => { f with jobs := f.jobs ++ [{ id := id, p := p, clip := r.clip, freed := 0, bad := 0 }] })

/-- Clip Erase (R164). -/
def runClipErase (p : PortId) (c res : Nat) (s : State) : Ans :=
  if badClip c ∨ res ≠ 0 then err s .badparam
  else match s.clip c with
    | none => err s .notfound
    | some r =>
      if r.region ≠ regionOf p then err s .denied
      else if r.region = .alert ∧ s.flash.prot.eraseLock then err s .protected_
      else if r.st = .ingesting ∨ 0 < r.refs then err s .inuse
      else ok (rest (eraseClip s p r)) (leBytes 2 r.chain.length)

/-- Clip Checksum (R166). -/
def runClipChecksum (p : PortId) (c res : Nat) (s : State) : Ans :=
  if badClip c ∨ res ≠ 0 then err s .badparam
  else match s.clip c with
    | none => err s .notfound
    | some r =>
      if r.st = .ingesting then err s .notfound
      else if (s.check p).isSome then err s .inuse
      else ok (rest ((s.addRef c).setCheck p (some { clip := c, page := 0, sum := 0 }))) []

/-- State code of a record: INGESTING, SEALED, DAMAGED (R125, R200). -/
def ClipState.code : ClipState → Nat
  | .ingesting => 0 | .good => 1 | .damaged => 2

/-- Marker code (R125, R200). -/
def Marker.code : Marker → Nat
  | .none => 0 | .queued => 1 | .written => 2 | .failed => 3

/-- Region code (R117, R200). -/
def Region.code : Region → Nat
  | .alert => 0 | .main => 1

/-- The ingest unit that receives a clip. -/
def ingestOf (s : State) (c : Nat) : Option (PortId × Ingest) :=
  (allPorts.find? (fun p => (s.ingest p).st != .none && (s.ingest p).clip == c)).map (fun p => (p, s.ingest p))

/-- P of a record (R168). -/
def ClipRec.rate (r : ClipRec) : Nat :=
  match r.sealVals, r.decl with
  | some v, _ => v.rate
  | none, some d => d.rate
  | none, none => 0

/-- Packets of a record: K, or the packets stored so far (R168). -/
def packetsOf (s : State) (r : ClipRec) : Nat :=
  match r.sealVals with
  | some v => v.k
  | none => match ingestOf s r.clip with
    | some g => g.2.stored
    | none => 0

/-- A record of List Directory (R168): the reference count in 2 bytes (DEDUCED, log 10); an INGESTING clip has no marker state, and the
field is free (log 11). -/
def listBytes (s : State) (seed : Nat) (r : ClipRec) : List Byte :=
  leBytes 2 r.clip ++ [byte1 r.region.code, byte1 r.st.code] ++ leBytes 2 r.chain.length ++ leBytes 2 r.rate
    ++ leBytes 4 (packetsOf s r) ++ leBytes 2 r.refs
    ++ (if r.st = .ingesting then freeBytes 1 seed r.clip else [byte1 r.marker.code])

/-- The results of List Directory (R168): the list lengths stand in the order alert free, alert dirty, main free, main dirty
(DEDUCED, log 10). -/
def directoryBytes (s : State) (seed start : Nat) : List Byte :=
  let l := s.directory.filter (fun r => decide (start ≤ r.clip))
  let out := l.take 32
  let next := if (l.drop 32).isEmpty then none else out.getLast?.map (fun r => r.clip + 1)
  let f := s.flash
  [byte1 out.length] ++ out.flatMap (listBytes s seed) ++ idBytes next ++ leBytes 2 s.directory.length
    ++ leBytes 2 f.freeA.length ++ leBytes 2 f.dirtyA.length ++ leBytes 2 f.freeM.length ++ leBytes 2 f.dirtyM.length
    ++ leBytes 2 f.bad.length

/-- List Directory (R168). -/
def runListDirectory (start res : Nat) (s : State) : Ans :=
  if start < 1 ∨ 65534 < start ∨ res ≠ 0 then err s .badparam
  else ok s.fresh.2 (directoryBytes s s.fresh.1 start)

/-- A component list in a reply: its count, then PID and kind of each (R200). -/
def compListBytes (cs : List Comp) : List Byte :=
  byte1 cs.length :: cs.flatMap (fun c => leBytes 2 c.pid ++ [byte1 c.kind.code])

/-- Seal values in the order of R121 (R169). The list's entry that carries the PCR is shown as its index, in one byte after the
list (DEDUCED, log 10). -/
def sealReply (v : Seal) : List Byte :=
  leBytes 2 v.rate ++ leBytes 4 v.k ++ leBytes 2 v.blocks ++ compListBytes v.comps ++ [byte1 v.pcrIndex]
    ++ ptsBytes (some v.c0) ++ ptsBytes (some v.endPts) ++ tickBytes (some v.pcr0) ++ leBytes 2 v.checksum
    ++ [portByte v.origin]

/-- Declared values and progress of an INGESTING clip (R169), the PCR entry's index after the list (DEDUCED, log 10). -/
def ingestReply (p : PortId) (g : Ingest) : List Byte :=
  leBytes 2 g.decl.rate ++ leBytes 4 g.decl.kDecl ++ compListBytes g.decl.comps ++ [byte1 g.decl.pcrIndex, portByte p]
    ++ leBytes 4 g.stored ++ leBytes 2 g.handed ++ leBytes 2 g.programmed ++ ptsBytes g.c0 ++ tickBytes g.pcr0

/-- The results of Read Clip (R169): the reference count in 2 bytes (DEDUCED, log 10); no marker state while INGESTING (log 11). -/
def clipBytes (s : State) (seed : Nat) (r : ClipRec) : List Byte :=
  [byte1 r.region.code, byte1 r.st.code] ++ (if r.st = .ingesting then freeBytes 1 seed 0 else [byte1 r.marker.code])
    ++ leBytes 2 r.refs ++ [byte1 r.chain.length] ++ r.chain.flatMap (leBytes 2)
    ++ (match r.sealVals with
        | some v => sealReply v
        | none => match ingestOf s r.clip with
          | some g => ingestReply g.1 g.2
          | none => [])

/-- Read Clip (R169). -/
def runReadClip (c res : Nat) (s : State) : Ans :=
  if badClip c ∨ res ≠ 0 then err s .badparam
  else match s.clip c with
    | none => err s .notfound
    | some r => ok s.fresh.2 (clipBytes s s.fresh.1 r)

end Sys2Proof.Machine
end

