-- ==== Sys2Proof/Machine/AlertCommands.lean ====
section
/-! DEFINITION. Alert Preload, Alert Activate and Alert Cancel (R172, R174 to R176, R179). -/

namespace Sys2Proof.Machine

/-- An alert clip that a command may name: SEALED, in the alert region (R172, R174). -/
def alertClip (s : State) (c : Nat) : Bool :=
  match s.clip c with
  | some r => r.st == .good && r.region == .alert
  | none => false

/-! ### Alert Preload -/

/-- State code of a preload slot (R172, R200). -/
def PreloadState.code : PreloadState → Nat
  | .empty => 0 | .filling => 1 | .ready => 2

/-- State, clip id and pages held of a slot (R172); an EMPTY slot's clip id is absent (DEDUCED, log 10). -/
def preloadBytes (q : Preload) : List Byte :=
  byte1 q.st.code :: (idBytes (if q.st = .empty then none else some q.clip) ++ leBytes 2 q.pages.length)

/-- The effect of an accepted Alert Preload on its slot (R172). -/
def setPreloadClip (s : State) (j : Nat) (clip : Option Nat) : State :=
  let q := s.preload j
  match clip with
  | none => if q.st = .empty then s else clearPreload s j
  | some c =>
    if q.st ≠ .empty ∧ q.clip = c then s
    else ((clearPreload s j).setPreload j { st := .filling, clip := c, pages := [] }).addRef c

/-- Alert Preload (R172). -/
def runAlertPreload (j named c res : Nat) (s : State) : Ans :=
  if 3 < j ∨ 1 < named ∨ (named = 1 ∧ badClip c) ∨ (named = 0 ∧ c ≠ 0) ∨ res ≠ 0 then err s .badparam
  else if s.flash.release.isSome then err s .busy
  else if named = 1 ∧ !alertClip s c then err s .notfound
  else
    let s1 := setPreloadClip s j (if named = 1 then some c else none)
    ok (rest s1) ((List.range 4).flatMap (fun k => preloadBytes (s1.preload k)))

/-! ### Alert Activate -/

/-- Check 1 of R174. -/
def alertArgsOk (a : AlertArgs) : Bool :=
  let ts := a.targets.take a.count
  a.alert != 0 && decide (1 ≤ a.count ∧ a.count ≤ 48) && decide ts.Nodup && ts.all (fun t => decide (t ≤ 47))
    && (a.targets.drop a.count).all (· == 0) && !badClip a.clip && decide (1 ≤ a.duration ∧ a.duration ≤ 7200)
    && decide (a.loop ≤ 1) && decide (a.res = 0)

/-- A record in ON or ENDING holds an alert id (R174, R179). -/
def recordOf (s : State) (id : Nat) : Option Nat :=
  (List.range 4).find? (fun r => (s.alert r).st != .idle && (s.alert r).id == id)

/-- A service is DEFERRED in some record. -/
def isDeferred (s : State) (i : Nat) : Bool :=
  (List.range 4).any (fun r => (s.alert r).st != .idle &&
    (s.alert r).targets.any (fun t => t.svc == i && t.status == .deferred))

/-- The status of a target at acceptance (R175). -/
def targetStatus (s : State) (i : Nat) : TStatus :=
  if !s.live i then .unavailable
  else match holdingAlert s i with
    | some r =>
      if (s.alert r).st = .on then .otherAlert else if isDeferred s i then .otherAlert else .deferred
    | none => if isDeferred s i then .otherAlert else .held

/-- The target is not taken. -/
def TStatus.refused (t : TStatus) : Bool := t == .otherAlert || t == .unavailable

/-- Reason code (R200), in the INUSE and the OK reply alike: 0 for none (DEDUCED, log 10). -/
def TStatus.reason : TStatus → Nat
  | .otherAlert => 1 | .unavailable => 2 | _ => 0

/-- Status code: HELD, DEFERRED, NOT_TAKEN, RELEASED (R170, R200). -/
def TStatus.code : TStatus → Nat
  | .held => 0 | .deferred => 1 | .otherAlert => 2 | .unavailable => 2 | .released => 3

/-- A target as it stands before its turn. -/
def newTarget (i : Nat) : Target :=
  { svc := i, status := .unavailable, s := none, e := none, cut := false, byEmergency := false }

/-- The record of an accepted command (R175). -/
def newAlert (s : State) (a : AlertArgs) : AlertRec :=
  { st := .on, id := a.alert, targets := (a.targets.take a.count).map newTarget, clip := a.clip, duration := a.duration,
    loop := a.loop == 1, timer := some s.localCount, remTicks := a.duration * 27000000, cause := .none }

/-- One target is given its status, and is taken when that is HELD (R175, R176). -/
def placeTarget (s : State) (r i : Nat) : State :=
  let st := targetStatus s i
  if st = .held then takeService s r i
  else s.modAlert r (fun a => a.modTarget i (fun t => { t with status := st }))

/-- The effects of an accepted Alert Activate (R175). -/
def activateAlert (s : State) (r : Nat) (a : AlertArgs) : State :=
  (a.targets.take a.count).foldl (fun s i => placeTarget s r i) ((s.addRef a.clip).setAlert r (newAlert s a))

/-- A target in the reply: status, reason, SLOWSTART, one byte each (R175, R176; DEDUCED, log 10). -/
def targetBytes (slow : Bool) (t : Target) : List Byte :=
  [byte1 t.status.code, byte1 t.status.reason, flagByte (slow && t.status == .held)]

/-- The lowest IDLE record (R175). -/
def idleRecord (s : State) : Option Nat := (List.range 4).find? (fun r => (s.alert r).st == .idle)

/-- Alert Activate (R174 to R176). -/
def runAlertActivate (a : AlertArgs) (s : State) : Ans :=
  let ts := a.targets.take a.count
  if !alertArgsOk a then err s .badparam
  else if !alertClip s a.clip then err s .notfound
  else if (recordOf s a.alert).isSome then err s .duplicate
  else match idleRecord s with
    | none => err s .full
    | some r =>
      if ts.all (fun i => (targetStatus s i).refused) then
        { s := s, reply := some (.inuse, ts.map (fun i => byte1 (targetStatus s i).reason)) }
      else
        let slow := !readySlot s a.clip
        let s1 := activateAlert s r a
        ok (rest s1) ([byte1 r, byte1 ts.length] ++ (s1.alert r).targets.flatMap (targetBytes slow))

/-! ### Alert Cancel -/

/-- State code of a record (R170, R200). -/
def AlertState.code : AlertState → Nat
  | .idle => 0 | .on => 1 | .ending => 2

/-- Alert Cancel (R179). The held set is counted before the releases of R180 (DESIGN CHOICE, log 63). -/
def runAlertCancel (id res : Nat) (s : State) : Ans :=
  if id = 0 ∨ res ≠ 0 then err s .badparam
  else match recordOf s id with
    | none => err s .notfound
    | some r =>
      let a := s.alert r
      let rem := remaining s a
      let reply := [byte1 r, byte1 a.st.code] ++ leBytes 4 (rem / 27000) ++ leBytes 2 (a.count (·.status == .held))
      if a.st = .on then ok (rest (endAlert s r .cancelled rem)) reply else ok s reply

end Sys2Proof.Machine
end

