-- ==== Sys2Proof/Machine/ProtectionCommands.lean ====
section
/-! DEFINITION. Protection Set, Protection Release and Read Protection (R130, R183 to R186, R206). -/

namespace Sys2Proof.Machine

/-- A Protection Set's program is requested or in flight (R183). -/
def protectionPending (f : Flash) : Bool :=
  f.protReq.isSome || (match f.op with
    | some o => o.req == .protection
    | none => false)

/-- Protection Set (R183). Its reply gives the copy in the form that R206 gives the reply to Read Protection, the locks in one byte
and then the program count in one (DEDUCED, log 10), and gives it too where every named lock is set already (DESIGN CHOICE,
log 75). -/
def runProtectionSet (locks : BitVec 8) (res : Nat) (s : State) : Ans :=
  let f := s.flash
  let i := locks.getLsbD 0
  let e := locks.getLsbD 1
  if locks = 0#8 ∨ locks >>> 2 ≠ 0#8 ∨ res ≠ 0 then err s .badparam
  else if f.unusable then err s .fault
  else if f.supply = .low ∨ f.release.isSome ∨ protectionPending f then err s .busy
  else if f.prot.count = 4 then err s .full
  else
    let reply := [lockByte f.prot, byte1 f.prot.count]
    if (!i || f.prot.ingestLock) && (!e || f.prot.eraseLock) then ok s reply
    else ok (rest (s.modFlash (fun f => { f with protReq := some (i, e) }))) reply

/-- The alert clips of the directory. -/
def alertClips (s : State) : List ClipRec := s.directory.filter (fun r => r.region == .alert)

/-- The alert dirty list after an accepted release (R185): every alert block but block 0 and the bad ones, ascending,
with the Clip Erase identities they carried; a block whose erase is in flight is sorted in (DESIGN CHOICE, log 65). -/
def releaseDirty (f : Flash) : List Dirty :=
  ((List.range' 1 255).filter (fun b => !f.bad.contains b)).map (fun b =>
    { block := b, job := (f.dirtyA.find? (fun d => d.block == b)).bind (·.job) })

/-- The effects of an accepted Protection Release (R185). -/
def startRelease (s : State) : State :=
  let s1 := (alertClips s).foldl (fun s r => s.removeClip r [] none) s
  s1.modFlash (fun f => { f with freeA := [], dirtyA := releaseDirty s.flash, release := some ⟨none, 0, 0⟩ })

/-- Protection Release (R184, R185); the reply counts the blocks newly placed (log 32). -/
def runProtectionRelease (res : Nat) (s : State) : Ans :=
  let f := s.flash
  if res ≠ 0 then err s .badparam
  else if f.unusable then err s .fault
  else if f.supply = .low ∨ f.release.isSome ∨ protectionPending f then err s .busy
  else if f.prot.eraseLock then err s .protected_
  else if (s.ingest .ap).st ≠ .none ∨ (alertClips s).any (fun r => decide (0 < r.refs)) then err s .inuse
  else
    ok (rest (startRelease s))
      (leBytes 2 (alertClips s).length ++ leBytes 2 ((releaseDirty f).length - f.dirtyA.length))

/-- Read Protection (R130, R206). -/
def runReadProtection (res : Nat) (s : State) : Ans :=
  let f := s.flash
  if res ≠ 0 then err s .badparam
  else ok s [lockByte f.prot, byte1 f.prot.count, flagByte f.unusable, flagByte f.release.isSome]

end Sys2Proof.Machine
end

