-- ==== Sys2Proof/Machine/LinkRows.lean ====
section
/-! DEFINITION. The rows of the links: RECEIVE_BYTE, FRAME_GAP, FRAMING_ERROR, FRAME_REFUSED and REPLY_SENT
(R188, R189, R190, R192). -/

namespace Sys2Proof.Machine

/-- The owning rule's answer to a taken command (R189); a row that is no command is never taken. -/
def runTaken (c : Instr) (s : State) : Ans :=
  match c with
  | .identify p res => runIdentify p res s
  | .readStatus p res => runReadStatus p res s
  | .portRate p rate res => runPortRate p rate res s
  | .readEvents p count res => runReadEvents p count res s
  | .watch p m res => runWatch p m res s
  | .configureLane _ a => runConfigureLane a s
  | .configureService _ a => runConfigureService a s
  | .setMasks _ i m res => runSetMasks i m res s
  | .clearConditions _ i m res => runClearConditions i m res s
  | .readService _ i res => runReadService i res s
  | .clearService p i form res => runClearService p i form res s
  | .addEntry p a => runAddEntry p a s
  | .cancelEntry p n res => runCancelEntry p n res s
  | .readEntry _ n res => runReadEntry n res s
  | .ingestOpen p a => runIngestOpen p a s
  | .ingestData p data => runIngestData p data s
  | .ingestClose p sum d res => runIngestClose p sum d res s
  | .ingestAbort p res => runIngestAbort p res s
  | .clipErase p c res => runClipErase p c res s
  | .clipChecksum p c res => runClipChecksum p c res s
  | .listDirectory _ c res => runListDirectory c res s
  | .readClip _ c res => runReadClip c res s
  | .alertPreload _ j named c res => runAlertPreload j named c res s
  | .alertActivate _ a => runAlertActivate a s
  | .alertCancel _ id res => runAlertCancel id res s
  | .protectionSet _ locks res => runProtectionSet locks res s
  | .protectionRelease _ res => runProtectionRelease res s
  | .readProtection _ res => runReadProtection res s
  | _ => { s := s, reply := none }

/-- A frame is complete at the arrival of its CHK byte (R189). -/
def completeFrame (s : State) (p : PortId) (body : List Byte) (chk : Byte) : State :=
  let code := body.headD 0
  match judgeFrame s p body chk with
  | some st => refuseFrame s p code st
  | none => match decodeBody p body with
    | some c => (runTaken c (openExchange s p code.toNat)).done p
    | none => s

/-- The receiver after a byte that does not complete a frame (R188). -/
def rxByte (r : Rx) (now : Nat) (b : Byte) : Rx :=
  match r.st with
  | .hunt => if b = 0xB4#8 then { st := .length, len := 0, got := [], lastByte := now, stale := false } else r
  | .length =>
    match r.got with
    | [] => { r with got := [b], lastByte := now }
    | lo :: _ =>
      let n := lo.toNat + 256 * b.toNat
      if n = 0 ∨ 1040 < n then Rx.hunt else { r with st := .body, len := n, got := [], lastByte := now }
  | .body =>
    let got := b :: r.got
    { r with got := got, lastByte := now, st := if got.length = r.len then .check else .body }
  | .check => r

/-- RECEIVE_BYTE (R188). -/
def receiveByte (s : State) (p : PortId) (b : Byte) : State :=
  if s.resetAsserted then s
  else
    let l := s.link p
    match l.rx.st with
    | .check => completeFrame s p l.rx.got.reverse b
    | _ => s.setLink p { l with rx := rxByte l.rx s.localCount b }

/-- FRAME_GAP (R188): 20 ms without a byte in an unfinished frame. -/
def frameGap (s : State) (p : PortId) : State :=
  let l := s.link p
  if s.resetAsserted ∨ l.rx.st = .hunt then s
  else toHunt (advanceTo s (addMod nClk l.rx.lastByte 540000)) p

/-- FRAMING_ERROR (R187, R188). -/
def framingError (s : State) (p : PortId) : State :=
  if s.resetAsserted ∨ (s.link p).rx.st = .hunt then s else toHunt s p

/-- FRAME_REFUSED (R189): a complete frame that cases 1 to 6 refuse. A frame that case 7 would take is no such row. -/
def frameRefused (s : State) (p : PortId) (body : List Byte) (chk : Byte) : State :=
  if s.resetAsserted ∨ body.length = 0 ∨ 1040 < body.length then s
  else match judgeFrame s p body chk with
    | some st => refuseFrame s p (body.headD 0) st
    | none => s

/-- REPLY_SENT (R190, R192). -/
def replySent (s : State) (p : PortId) : State :=
  if s.resetAsserted then s else s.setLink p (s.link p).sent

end Sys2Proof.Machine
end

