-- ==== Sys2Proof/Machine/Rows.lean ====
section
/-! DEFINITION. The meaning of every row of spec/opcode_table.json, one definition a row. Each takes a next state. -/

namespace Sys2Proof.Machine

/-- A step's outcome. -/
abbrev Out := Host.Outcome State Fault Refusal

/-! ### Pins, stream, time, flash, links -/

/-- RESETN_ASSERT (R199). -/
def execResetnAssert (s : State) : Out := .next (resetnAssert s)

/-- RESETN_RELEASE (R131, R199). -/
def execResetnRelease (s : State) : Out := .next (resetnRelease s)

/-- LOWSUPPLY_ASSERT (R144). -/
def execLowsupplyAssert (s : State) : Out := .next (lowsupplyAssert s)

/-- LOWSUPPLY_RELEASE (R144). -/
def execLowsupplyRelease (s : State) : Out := .next (lowsupplyRelease s)

/-- REF_LOST (R21). -/
def execRefLost (s : State) : Out := .next (refLost s)

/-- REF_RESTORED (R22). -/
def execRefRestored (s : State) : Out := .next (refRestored s)

/-- RESTORE_COUNT_GAP (R22). -/
def execRestoreCountGap (s : State) : Out := .next (restoreCountGap s)

/-- PACKET_ARRIVAL (R6). -/
def execPacketArrival (k : Fin 4) (b : Pkt) (s : State) : Out := .next (packetArrival s k.val b)

/-- INPUT_LOST (R7). -/
def execInputLost (k : Fin 4) (s : State) : Out := .next (inputLost s k.val)

/-- PCR_LOSS_TIMEOUT (R27). -/
def execPcrLossTimeout (v : Fin 48) (s : State) : Out := .next (pcrLossTimeout s v.val)

/-- SLOT (R14). -/
def execSlot (k : Fin 4) (s : State) : Out := .next (slot s k.val)

/-- TIME_TRIGGER (R53). -/
def execTimeTrigger (n : Fin 256) (s : State) : Out := .next (timeTrigger s n.val)

/-- SEARCH_OVERDUE (R81). -/
def execSearchOverdue (v : Fin 48) (s : State) : Out := .next (searchOverdue s v.val)

/-- SEEK_TIMER_EXPIRY (R81, R102). -/
def execSeekTimerExpiry (v : Fin 48) (s : State) : Out := .next (seekTimerExpiry s v.val)

/-- RETURN_OVERDUE (R98). -/
def execReturnOverdue (v : Fin 48) (s : State) : Out := .next (returnOverdue s v.val)

/-- ALERT_EXPIRY (R179). -/
def execAlertExpiry (r : Fin 4) (s : State) : Out := .next (alertExpiry s r.val)

/-- PAGE_READ_COMPLETE (R140). -/
def execPageReadComplete (o : ReadOutcome) (marker : Byte) (s : State) : Out := .next (pageReadComplete s o marker)

/-- PROGRAM_COMPLETE (R141). -/
def execProgramComplete (pass : Bool) (s : State) : Out := .next (programComplete s pass)

/-- ERASE_COMPLETE (R142). -/
def execEraseComplete (pass : Bool) (s : State) : Out := .next (eraseComplete s pass)

/-- BLOCK0_ERASE_COMPLETE (R143). -/
def execBlock0EraseComplete (pass : Bool) (s : State) : Out := .next (block0EraseComplete s pass)

/-- FLASH_OP_TIMEOUT (R136). -/
def execFlashOpTimeout (s : State) : Out := .next (flashOpTimeout s)

/-- FRAME_REFUSED (R189). -/
def execFrameRefused (p : PortId) (body : List Byte) (chk : Byte) (s : State) : Out := .next (frameRefused s p body chk)

/-- FRAME_GAP (R188). -/
def execFrameGap (p : PortId) (s : State) : Out := .next (frameGap s p)

/-- FRAMING_ERROR (R188). -/
def execFramingError (p : PortId) (s : State) : Out := .next (framingError s p)

/-- REPLY_SENT (R190). -/
def execReplySent (p : PortId) (s : State) : Out := .next (replySent s p)

/-- RECEIVE_BYTE (R188). -/
def execReceiveByte (p : PortId) (b : Byte) (s : State) : Out := .next (receiveByte s p b)

/-! ### Commands -/

/-- IDENTIFY (R196). -/
def execIdentify (p : PortId) (res : Nat) (s : State) : Out :=
  .next (command p 0x01 s (runIdentify p res))

/-- READ_STATUS (R197). -/
def execReadStatus (p : PortId) (res : Nat) (s : State) : Out :=
  .next (command p 0x02 s (runReadStatus p res))

/-- PORT_RATE (R192). -/
def execPortRate (p : PortId) (rate : Nat) (res : Nat) (s : State) : Out :=
  .next (command p 0x03 s (runPortRate p rate res))

/-- READ_EVENTS (R194). -/
def execReadEvents (p : PortId) (count : Nat) (res : Nat) (s : State) : Out :=
  .next (command p 0x04 s (runReadEvents p count res))

/-- WATCH (R195). -/
def execWatch (p : PortId) (members : BitVec 48) (res : Nat) (s : State) : Out :=
  .next (command p 0x05 s (runWatch p members res))

/-- CONFIGURE_LANE (R2). -/
def execConfigureLane (p : PortId) (a : LaneArgs) (s : State) : Out :=
  .next (command p 0x10 s (runConfigureLane a))

/-- CONFIGURE_SERVICE (R8). -/
def execConfigureService (p : PortId) (a : ServiceArgs) (s : State) : Out :=
  .next (command p 0x11 s (runConfigureService a))

/-- SET_MASKS (R107). -/
def execSetMasks (p : PortId) (v : Nat) (masks : BitVec 16) (res : Nat) (s : State) : Out :=
  .next (command p 0x12 s (runSetMasks v masks res))

/-- CLEAR_CONDITIONS (R108). -/
def execClearConditions (p : PortId) (v : Nat) (conds : BitVec 16) (res : Nat) (s : State) : Out :=
  .next (command p 0x13 s (runClearConditions v conds res))

/-- READ_SERVICE (R109). -/
def execReadService (p : PortId) (v : Nat) (res : Nat) (s : State) : Out :=
  .next (command p 0x14 s (runReadService v res))

/-- CLEAR_SERVICE (R110). -/
def execClearService (p : PortId) (v : Nat) (form : Nat) (res : Nat) (s : State) : Out :=
  .next (command p 0x15 s (runClearService p v form res))

/-- ADD_ENTRY (R50). -/
def execAddEntry (p : PortId) (a : EntryArgs) (s : State) : Out :=
  .next (command p 0x20 s (runAddEntry p a))

/-- CANCEL_ENTRY (R73). -/
def execCancelEntry (p : PortId) (n : Nat) (res : Nat) (s : State) : Out :=
  .next (command p 0x21 s (runCancelEntry p n res))

/-- READ_ENTRY (R75). -/
def execReadEntry (p : PortId) (n : Nat) (res : Nat) (s : State) : Out :=
  .next (command p 0x22 s (runReadEntry n res))

/-- INGEST_OPEN (R154). -/
def execIngestOpen (p : PortId) (a : IngestArgs) (s : State) : Out :=
  .next (command p 0x30 s (runIngestOpen p a))

/-- INGEST_DATA (R156). -/
def execIngestData (p : PortId) (data : List Byte) (s : State) : Out :=
  .next (command p 0x31 s (runIngestData p data))

/-- INGEST_CLOSE (R159). -/
def execIngestClose (p : PortId) (checksum : Nat) (duration : Nat) (res : Nat) (s : State) : Out :=
  .next (command p 0x32 s (runIngestClose p checksum duration res))

/-- INGEST_ABORT (R161). -/
def execIngestAbort (p : PortId) (res : Nat) (s : State) : Out :=
  .next (command p 0x33 s (runIngestAbort p res))

/-- CLIP_ERASE (R164). -/
def execClipErase (p : PortId) (c : Nat) (res : Nat) (s : State) : Out :=
  .next (command p 0x34 s (runClipErase p c res))

/-- CLIP_CHECKSUM (R166). -/
def execClipChecksum (p : PortId) (c : Nat) (res : Nat) (s : State) : Out :=
  .next (command p 0x35 s (runClipChecksum p c res))

/-- LIST_DIRECTORY (R168). -/
def execListDirectory (p : PortId) (start : Nat) (res : Nat) (s : State) : Out :=
  .next (command p 0x36 s (runListDirectory start res))

/-- READ_CLIP (R169). -/
def execReadClip (p : PortId) (c : Nat) (res : Nat) (s : State) : Out :=
  .next (command p 0x37 s (runReadClip c res))

/-- ALERT_PRELOAD (R172). -/
def execAlertPreload (p : PortId) (j : Nat) (named : Nat) (c : Nat) (res : Nat) (s : State) : Out :=
  .next (command p 0x40 s (runAlertPreload j named c res))

/-- ALERT_ACTIVATE (R174). -/
def execAlertActivate (p : PortId) (a : AlertArgs) (s : State) : Out :=
  .next (command p 0x41 s (runAlertActivate a))

/-- ALERT_CANCEL (R179). -/
def execAlertCancel (p : PortId) (id : Nat) (res : Nat) (s : State) : Out :=
  .next (command p 0x42 s (runAlertCancel id res))

/-- PROTECTION_SET (R183). -/
def execProtectionSet (p : PortId) (locks : BitVec 8) (res : Nat) (s : State) : Out :=
  .next (command p 0x43 s (runProtectionSet locks res))

/-- PROTECTION_RELEASE (R184). -/
def execProtectionRelease (p : PortId) (res : Nat) (s : State) : Out :=
  .next (command p 0x44 s (runProtectionRelease res))

/-- READ_PROTECTION (R130, R206). -/
def execReadProtection (p : PortId) (res : Nat) (s : State) : Out :=
  .next (command p 0x45 s (runReadProtection res))

end Sys2Proof.Machine
end

