-- ==== Sys2Proof/Machine/Dispatch.lean ====
section
/-! DEFINITION. Dispatch: one arm per row, each a direct call of the row's meaning. -/

namespace Sys2Proof.Machine

def exec (i : Instr) (s : State) : Host.Outcome State Fault Refusal :=
  match i with
  | .resetnAssert => Sys2Proof.Machine.execResetnAssert s
  | .resetnRelease => Sys2Proof.Machine.execResetnRelease s
  | .lowsupplyAssert => Sys2Proof.Machine.execLowsupplyAssert s
  | .lowsupplyRelease => Sys2Proof.Machine.execLowsupplyRelease s
  | .refLost => Sys2Proof.Machine.execRefLost s
  | .refRestored => Sys2Proof.Machine.execRefRestored s
  | .restoreCountGap => Sys2Proof.Machine.execRestoreCountGap s
  | .packetArrival k b => Sys2Proof.Machine.execPacketArrival k b s
  | .inputLost k => Sys2Proof.Machine.execInputLost k s
  | .pcrLossTimeout v => Sys2Proof.Machine.execPcrLossTimeout v s
  | .slot k => Sys2Proof.Machine.execSlot k s
  | .timeTrigger n => Sys2Proof.Machine.execTimeTrigger n s
  | .searchOverdue v => Sys2Proof.Machine.execSearchOverdue v s
  | .seekTimerExpiry v => Sys2Proof.Machine.execSeekTimerExpiry v s
  | .returnOverdue v => Sys2Proof.Machine.execReturnOverdue v s
  | .alertExpiry r => Sys2Proof.Machine.execAlertExpiry r s
  | .pageReadComplete o marker => Sys2Proof.Machine.execPageReadComplete o marker s
  | .programComplete pass => Sys2Proof.Machine.execProgramComplete pass s
  | .eraseComplete pass => Sys2Proof.Machine.execEraseComplete pass s
  | .block0EraseComplete pass => Sys2Proof.Machine.execBlock0EraseComplete pass s
  | .flashOpTimeout => Sys2Proof.Machine.execFlashOpTimeout s
  | .frameRefused p body chk => Sys2Proof.Machine.execFrameRefused p body chk s
  | .frameGap p => Sys2Proof.Machine.execFrameGap p s
  | .framingError p => Sys2Proof.Machine.execFramingError p s
  | .replySent p => Sys2Proof.Machine.execReplySent p s
  | .identify p res => Sys2Proof.Machine.execIdentify p res s
  | .readStatus p res => Sys2Proof.Machine.execReadStatus p res s
  | .portRate p rate res => Sys2Proof.Machine.execPortRate p rate res s
  | .readEvents p count res => Sys2Proof.Machine.execReadEvents p count res s
  | .watch p members res => Sys2Proof.Machine.execWatch p members res s
  | .configureLane p a => Sys2Proof.Machine.execConfigureLane p a s
  | .configureService p a => Sys2Proof.Machine.execConfigureService p a s
  | .setMasks p v masks res => Sys2Proof.Machine.execSetMasks p v masks res s
  | .clearConditions p v conds res => Sys2Proof.Machine.execClearConditions p v conds res s
  | .readService p v res => Sys2Proof.Machine.execReadService p v res s
  | .clearService p v form res => Sys2Proof.Machine.execClearService p v form res s
  | .addEntry p a => Sys2Proof.Machine.execAddEntry p a s
  | .cancelEntry p n res => Sys2Proof.Machine.execCancelEntry p n res s
  | .readEntry p n res => Sys2Proof.Machine.execReadEntry p n res s
  | .ingestOpen p a => Sys2Proof.Machine.execIngestOpen p a s
  | .ingestData p data => Sys2Proof.Machine.execIngestData p data s
  | .ingestClose p checksum duration res => Sys2Proof.Machine.execIngestClose p checksum duration res s
  | .ingestAbort p res => Sys2Proof.Machine.execIngestAbort p res s
  | .clipErase p c res => Sys2Proof.Machine.execClipErase p c res s
  | .clipChecksum p c res => Sys2Proof.Machine.execClipChecksum p c res s
  | .listDirectory p start res => Sys2Proof.Machine.execListDirectory p start res s
  | .readClip p c res => Sys2Proof.Machine.execReadClip p c res s
  | .alertPreload p j named c res => Sys2Proof.Machine.execAlertPreload p j named c res s
  | .alertActivate p a => Sys2Proof.Machine.execAlertActivate p a s
  | .alertCancel p id res => Sys2Proof.Machine.execAlertCancel p id res s
  | .protectionSet p locks res => Sys2Proof.Machine.execProtectionSet p locks res s
  | .protectionRelease p res => Sys2Proof.Machine.execProtectionRelease p res s
  | .readProtection p res => Sys2Proof.Machine.execReadProtection p res s
  | .receiveByte p b => Sys2Proof.Machine.execReceiveByte p b s

end Sys2Proof.Machine
end

