-- ==== Sys2Proof/Machine/Tick.lean ====
section
/-! DEFINITION. The passing of time: one tick of the active timing source, with the rows whose moment has come
(R19 to R22, log 1, 3, 4). -/

namespace Sys2Proof.Machine

/-- The local count goes on by one tick (R19). -/
def State.countOne (s : State) : State := { s with localCount := addMod nClk s.localCount 1 }

/-- An absent REFCLK may bring an edge in the cycle: whether it does is a free value (log 4). -/
def edgeReturns (s : State) : State :=
  if s.refclk then s else { s with refclk := Config.refReturns s.freeCtr, freeCtr := s.freeCtr + 1 }

/-- One cycle of the clock (R19, R21, R22): with REFCLK present each cycle is also an edge of it, and in BACKUP each edge
adds one to the restore count. The count of backup cycles since the last edge stops at 64, beyond which no rule reads it
(DESIGN CHOICE, log 4). -/
def clockCycle (s0 : State) : State :=
  let s := edgeReturns s0
  match s.monitor with
  | .reference =>
    if s.refclk then { s.countOne with backupCount := 0 } else { s with backupCount := min 64 (s.backupCount + 1) }
  | .backup =>
    if s.refclk then { s.countOne with backupCount := 0, restoreCount := s.restoreCount + 1 }
    else { s.countOne with backupCount := min 64 (s.backupCount + 1) }

/-- The rows of the clock monitor that the cycle brings (R21, R22). -/
def clockRows (s0 s : State) : List Instr :=
  match s.monitor with
  | .reference => if s.backupCount = 64 ∧ s0.backupCount ≠ 64 then [.refLost] else []
  | .backup =>
    if s.restoreCount = restoreGoal then [.refRestored]
    else if s.backupCount = 64 ∧ s0.backupCount ≠ 64 then [.restoreCountGap] else []

/-- A tick lies at or before the local count. -/
def reached (s : State) (t : Nat) : Bool := atOrAfter nClk s.localCount t

/-- The input-loss timer of a lane has run out (R7). -/
def inputLostDue (s : State) (k : Fin 4) : Bool :=
  match (s.lane k.val).inputPresent, (s.lane k.val).inputTimer with
  | true, some t => reached s (addMod nClk t (msTicks 100))
  | _, _ => false

/-- A lane's next slot has come (R13). -/
def slotDue (s : State) (k : Fin 4) : Bool := (s.lane k.val).mode == .running && reached s (s.lane k.val).slotTime

/-- A service's PCR loss timer has run out (R27). -/
def pcrLossDue (s : State) (i : Fin 48) : Bool :=
  match (s.svc i.val).clk.st, (s.svc i.val).clk.lossTimer with
  | .locked, some t => reached s (addMod nClk t (msTicks (s.cfgOf i.val).lossTimeout))
  | _, _ => false

/-- The condition of a PENDING TIME entry holds (R53). -/
def triggerDue (s : State) (n : Fin 256) : Bool :=
  match s.entry n.val with
  | some e => s.live e.svc && timeDue s e
  | none => false

/-- A point's tick has come. -/
def pointDue (s : State) (t : Option Nat) : Bool :=
  match t with
  | some t => reached s t
  | none => false

/-- A cut search of the service has reached its deadline (R81). -/
def searchDue (s : State) (i : Fin 48) : Bool :=
  pointDue s ((earliestPoint nPts (openDeadlines (s.sp i.val))).bind (estimateReaches s i.val))

/-- A seek timer of the service has run out (R81). -/
def seekDue (s : State) (i : Fin 48) : Bool := pointDue s (earliestPoint nClk (timerExpiries (s.sp i.val)))

/-- The service's return has reached its deadline (R98). -/
def returnDue (s : State) (i : Fin 48) : Bool :=
  match (s.sp i.val).ret with
  | .returning e => !(s.sp i.val).retOverdue && pointDue s (estimateReaches s i.val (deadline e (s.sp i.val).retSeek))
  | _ => false

/-- A record's remaining time has reached 0 (R179). -/
def alertDue (s : State) (r : Fin 4) : Bool :=
  match (s.alert r.val).st, (s.alert r.val).timer with
  | .on, some t => reached s (addMod nClk t (s.alert r.val).remTicks)
  | _, _ => false

/-- The operation in flight has reached its maximum time (R136). -/
def flashDue (s : State) : Bool :=
  match s.flash.op with
  | some o => reached s (addMod nClk o.started o.kind.limit)
  | none => false

/-- 20 ms have passed since the last byte of an unfinished frame (R188). -/
def gapDue (s : State) (p : PortId) : Bool :=
  (s.link p).rx.st != .hunt && reached s (addMod nClk (s.link p).rx.lastByte 540000)

/-- The rows of passing time, in the order in which those of one tick are taken (DESIGN CHOICE, log 3). -/
def timedRows : List Instr :=
  (List.finRange 4).map .inputLost ++ (List.finRange 48).map .pcrLossTimeout ++ (List.finRange 256).map .timeTrigger
    ++ (List.finRange 48).map .searchOverdue ++ (List.finRange 48).map .seekTimerExpiry ++ (List.finRange 48).map .returnOverdue
    ++ (List.finRange 4).map .alertExpiry ++ (List.finRange 4).map .slot ++ [.flashOpTimeout] ++ allPorts.map .frameGap

/-- The moment of a row of passing time has come; no other row has one. -/
def rowDue (s : State) : Instr → Bool
  | .inputLost k => inputLostDue s k
  | .pcrLossTimeout i => pcrLossDue s i
  | .timeTrigger n => triggerDue s n
  | .searchOverdue i => searchDue s i
  | .seekTimerExpiry i => seekDue s i
  | .returnOverdue i => returnDue s i
  | .alertExpiry r => alertDue s r
  | .slot k => slotDue s k
  | .flashOpTimeout => flashDue s
  | .frameGap p => gapDue s p
  | _ => false

/-- Take a row: the state its meaning answers. -/
def runRow (s : State) (c : Instr) : State :=
  match exec c s with
  | .next t => t
  | .fault _ => s
  | .refused _ => s

/-- Take a row of passing time if, at its turn, its moment has come: one that a row before it has called off is not taken, and
none moves the local count (R19, log 3). -/
def runDue (s : State) (c : Instr) : State := if rowDue s c then runRow s c else s

/-- One tick of an idle part: the count goes on, then what is due happens, the clock monitor's row first. Nothing runs under
RESETN (R199). -/
def tick (s : State) : State :=
  if s.resetAsserted then s
  else
    let s1 := clockCycle s
    timedRows.foldl runDue ((clockRows s s1).foldl runRow s1)

end Sys2Proof.Machine
end

