-- ==== Sys2Proof/Safety.lean ====
section
/-! DEFINITION. What the statements say of a state: when a port takes a command, what an answered command leaves, the
observed packet, the invariants of the manual, and the canonical form of the tables. -/

namespace Sys2Proof.Machine

/-! ### Ports -/

/-- The part is released, and a port may open an exchange: none is outstanding, and the rate has not changed under the
frame (R189 case 2, R192, R199). -/
def State.free (s : State) (p : PortId) : Prop :=
  s.resetAsserted = false ∧ (s.link p).out = none ∧ (s.link p).rx.stale = false

/-- A free port of a RUNNING part: every command admitted from the port is taken (R189, R198). -/
def State.takes (s : State) (p : PortId) : Prop := s.free p ∧ s.part = .running

/-- The port's exchange holds a formed reply (R190). -/
def State.replied (t : State) (p : PortId) (code : Byte) (st : Status) (results : List Byte) : Prop :=
  (t.link p).out = some { code := code, reply := some { code := code, status := st, results := results } }

/-- `t` is `u` but for the exchange that the port now holds: the reply is formed, the receiver is in HUNT, the port's
rate and the other ports' links are as in `u`. -/
structure State.onlyAnswers (u t : State) (p : PortId) (code : Byte) (st : Status) (results : List Byte) : Prop where
  frame : t = { u with links := t.links }
  others : ∀ q, q ≠ p → t.link q = u.link q
  reply : t.replied p code st results
  rx : (t.link p).rx = Rx.hunt
  rate : (t.link p).rate = (u.link p).rate

/-- The reserved field of a command (R201): 0 for a row that has none. -/
def reservedField : Instr → Nat
  | .identify _ r => r
  | .readStatus _ r => r
  | .portRate _ _ r => r
  | .readEvents _ _ r => r
  | .watch _ _ r => r
  | .configureLane _ a => a.res
  | .configureService _ a => a.res
  | .setMasks _ _ _ r => r
  | .clearConditions _ _ _ r => r
  | .readService _ _ r => r
  | .clearService _ _ _ r => r
  | .addEntry _ a => a.res
  | .cancelEntry _ _ r => r
  | .readEntry _ _ r => r
  | .ingestOpen _ a => a.res
  | .ingestClose _ _ _ r => r
  | .ingestAbort _ r => r
  | .clipErase _ _ r => r
  | .clipChecksum _ _ r => r
  | .listDirectory _ _ r => r
  | .readClip _ _ r => r
  | .alertPreload _ _ _ _ r => r
  | .alertActivate _ a => a.res
  | .alertCancel _ _ r => r
  | .protectionSet _ _ r => r
  | .protectionRelease _ r => r
  | .readProtection _ r => r
  | _ => 0

/-! ### Frames on the wire (11 section 11.2) -/

/-- The bytes of a command frame with a good check byte: start byte, LEN, body, CHK. -/
def commandFrame (body : List Byte) : List Byte :=
  let counted := leBytes 2 body.length ++ body
  0xB4#8 :: counted ++ [byte1 (256 - byteSum counted % 256)]

/-- The state after the bytes of a list have arrived at a port, one RECEIVE_BYTE each. -/
def receiveAll (s : State) (p : PortId) (bytes : List Byte) : State := bytes.foldl (fun s b => receiveByte s p b) s

/-! ### Packets -/

/-- A lane in RUNNING accepts the packet and does not discard it as a null packet (R6, R10). -/
structure State.accepts (s : State) (k : Fin 4) (b : Pkt) : Prop where
  released : s.resetAsserted = false
  sync : b.headD 0 = 0x47#8
  running : (s.lane k.val).mode = .running
  notNull : pktPid b ≠ 0x1FFF

/-- The accepted packet is one of component `j` of service `i` (R10). -/
structure State.arrives (s : State) (k : Fin 4) (i j : Nat) (b : Pkt) : Prop where
  accepted : s.accepts k b
  service : serviceOfPid s k.val (pktPid b) = some i
  component : compIndex (s.svc i) (pktPid b) = some j

/-- It is such a packet, and R6 does not keep it from observation (R10, R11). -/
structure State.examines (s : State) (k : Fin 4) (i j : Nat) (b : Pkt) : Prop extends s.arrives k i j b where
  observable : excluded b = false

/-- The state once presence and the timebase unit have taken the packet, and the splice engine is to decide on it (R7, R11). -/
def State.observed (s : State) (k : Fin 4) (i j : Nat) (b : Pkt) : State := observePacket (acceptInput s k.val) i j b

/-! ### The arming computation and its order -/

/-- What one run of the arming computation makes of entry `n`, which is not ARMED, of a service of lane `k`: the state `u`, and
whether an ARMED entry was demoted. The recorded trigger time is kept, or converted from the target (R57); S is the later of it
and of the earliest feasible point (R58); the first case of R60 that applies decides; an entry that arms has R61's effects. -/
def ArmingOutcome (s : State) (n k : Nat) (e : Entry) (u : State) (demoted : Bool) : Prop :=
  let i := e.svc
  let a := match e.a, e.trigger with
    | none, .time t => convert s i t
    | x, _ => x
  let damaged := ∃ c ∈ e.pod, s.clipDamaged c = true
  let rate := podRate s e.pod
  let lowerRate := match armedEntry s i with | some l => l.commitment | none => 0
  let fits := committed s k - lowerRate + rate ≤ (s.lane k).cfg.pool
  let waits := fun (c : WaitCause) => demoted = false ∧ u = s.setEntry n (some { e with st := .waiting c, a := a })
  let ends := fun (r : EntryResult) => demoted = false
    ∧ u.entry n = none ∧ (∀ m, m ≠ n → u.entry m = s.entry m)
    ∧ (∀ p, u.box p = if p = e.origin then
        pushBox (s.box p) (.entryEnd r n i e.podIdx (e.pod.headD 0) e.sEff e.e) else s.box p)
    ∧ (∀ c, u.clip c = (s.clip c).map (fun x => { x with refs := x.refs - e.pod.count c }))
    ∧ u = { s with dir := u.dir, entries := u.entries, boxes := u.boxes }
  let arms := fun (sp : Nat) => demoted = (armedEntry s i).isSome
    ∧ u.entry n = some { e with st := .armed, a := a, s := some sp, commitment := rate }
    ∧ (∀ l, armedEntry s i = some l → s.entry l.num = some l →
        u.entry l.num = some { l with st := .waiting .held, s := none, commitment := 0 })
    ∧ (∀ m, m ≠ n → (∀ l, armedEntry s i = some l → m ≠ l.num) → u.entry m = s.entry m)
    ∧ u = { s with entries := u.entries, services := u.services, boxes := u.boxes, flash := u.flash }
    ∧ (∀ j, j ≠ i → u.svc j = s.svc j)
    ∧ (u.svc i).cond.flags.getLsbD Cond.latearm.pos
        = ((s.svc i).cond.flags.getLsbD Cond.latearm.pos || (a.isSome && a != some sp))
    ∧ (∀ r v, (∀ x, (s.sp i).nxt = some x → x.phase = .seeking) → s.clip (e.pod.headD 0) = some r → r.sealVals = some v →
        ∃ x, (u.sp i).nxt = some x ∧ x.clip = e.pod.headD 0 ∧ x.owner = .entry n ∧ x.phase = .seeking
          ∧ x.s = some sp ∧ x.sealVals = v ∧ x.chain = r.chain)
    ∧ (∀ x, (s.sp i).nxt = some x → x.phase ≠ .seeking → (u.sp i).nxt = some x
        ∧ (u.sp i).waiting = some { clip := e.pod.headD 0, owner := .entry n, s := some sp })
  (damaged → ends .faulted)
  ∧ (¬damaged → earliest s i = none → waits .clock)
  ∧ ∀ f, ¬damaged → earliest s i = some f →
    let sp := match a with | some x => if atOrAfter nPts x f = true then x else f | none => f
    (e.window < lateness sp a → ends .missed)
    ∧ (lateness sp a ≤ e.window → levelOf e.origin ≤ heldLevel s i → waits .held)
    ∧ (lateness sp a ≤ e.window → heldLevel s i < levelOf e.origin → ¬fits → waits .pool)
    ∧ (lateness sp a ≤ e.window → heldLevel s i < levelOf e.origin → fits → arms sp)

/-- The numbers of the entries that have a property, in the order of R66 and R67: higher level first, and within a level the
lower number. -/
structure State.inOrder (s : State) (P : Entry → Prop) (ns : List Nat) : Prop where
  mem : ∀ n, n ∈ ns ↔ ∃ e, s.entry n = some e ∧ P e
  sorted : ns.Pairwise (fun a b => ∀ x y, s.entry a = some x → s.entry b = some y →
    levelOf y.origin < levelOf x.origin ∨ levelOf x.origin = levelOf y.origin ∧ a < b)

/-! ### Invariants -/

/-- The capacities that the manual calls laws of the part: the delay FIFO (R12), the lead window (R30), the cue memory
(R38), the event queues (R193). -/
structure Capacities (s : State) : Prop where
  fifo : ∀ k, (s.lane k).fifo.length ≤ 16384
  leads : ∀ i, (s.svc i).clk.leads.length ≤ 32
  cues : ∀ i, (s.svc i).cues.length ≤ 8
  queues : ∀ p, (s.box p).queue.length ≤ 32

/-- The local count is a tick of the modulus, and slot n of every RUNNING lane falls at lane base + floor(n × 27,000,000 /
R_out), the remainder kept beside it (R13, R19). -/
structure SlotTimes (s : State) : Prop where
  count : s.localCount < nClk
  time : ∀ k, (s.lane k).mode = .running → (s.lane k).slotTime =
    ((s.lane k).base + (s.lane k).slotNo * 27000000 / (s.lane k).cfg.rOut) % nClk
  rem : ∀ k, (s.lane k).mode = .running →
    (s.lane k).slotRem = (s.lane k).slotNo * 27000000 % (s.lane k).cfg.rOut

/-- Pages of a block are programmed in ascending order (R118): an index is 0 … 64, and a data program in flight is on the page
at its block's index. -/
structure PageOrder (s : State) : Prop where
  index : ∀ b, s.flash.index b ≤ 64
  flight : ∀ o ci first pkts, s.flash.op = some o → o.kind = .program (.data ci first pkts) →
    s.flash.index o.block = o.page ∧ o.page < 64

/-- The laws of the schedule (R49, R65), with what keeps them: a service has at most one ACTIVE and one ARMED entry, the
ARMED one of strictly higher level; a service held by an alert record has no ARMED entry, and no ACTIVE one once the record's
instance has cut; the commitments of a lane's ARMED and ACTIVE entries never exceed its pool. An instance that plays for an
entry plays for the ACTIVE entry of its own service, and one that has not cut yet, or a request that waits, may be the ARMED
entry's. -/
structure SchedulerLaws (s : State) : Prop where
  table : Table.wf none s.entries = true
  num : ∀ n e, s.entry n = some e → e.num = n
  charged : ∀ n e, s.entry n = some e → e.st ≠ .armed → e.st ≠ .active → e.commitment = 0
  oneActive : ∀ n m e f, s.entry n = some e → s.entry m = some f → e.svc = f.svc → e.st = .active → f.st = .active → n = m
  oneArmed : ∀ n m e f, s.entry n = some e → s.entry m = some f → e.svc = f.svc → e.st = .armed → f.st = .armed → n = m
  levels : ∀ n m e f, s.entry n = some e → s.entry m = some f → e.svc = f.svc → e.st = .armed → f.st = .active →
    levelOf f.origin < levelOf e.origin
  held : ∀ r n e, r < 4 → (s.alert r).holds e.svc = true → s.entry n = some e → e.st ≠ .armed
  cut : ∀ r n e t, r < 4 → (s.alert r).st ≠ .idle → t ∈ (s.alert r).targets → t.svc = e.svc → t.status = .held →
    t.cut = true → s.entry n = some e → e.st ≠ .active
  targets : ∀ r, r < 4 → ((s.alert r).targets.map (·.svc)).Nodup
  pool : ∀ k, committed s k ≤ (s.lane k).cfg.pool
  instances : ∀ i r x n, (s.sp i).inst r = some x → x.owner = .entry n →
    ∃ e, s.entry n = some e ∧ e.svc = i ∧ (e.st = .active ∨ e.st = .armed ∧ r = .next ∧ x.phase = .seeking)
  waits : ∀ i q n, (s.sp i).waiting = some q → q.owner = .entry n →
    (∃ e, s.entry n = some e ∧ e.svc = i ∧ e.st = .armed)
    ∧ ∀ x, (s.sp i).nxt = some x → x.phase = .seeking → x.owner ≠ .entry n

/-- A receiving ingest unit's clip has an INGESTING record of its region, and no two units receive one clip (R153, R155). -/
structure IngestUnits (s : State) : Prop where
  record : ∀ p, (s.ingest p).st ≠ .none →
    ∃ r, s.clip (s.ingest p).clip = some r ∧ r.st = .ingesting ∧ r.region = regionOf p
  apart : ∀ p q, p ≠ q → (s.ingest p).st ≠ .none → (s.ingest q).st ≠ .none → (s.ingest p).clip ≠ (s.ingest q).clip

/-- The holders of a clip that R127 counts: its occurrences in the pods of the schedule, the alert records in ON or ENDING
that name it, the preload slots that hold it, and the checksums in progress on it. -/
def holders (s : State) (c : Nat) : Nat :=
  (s.schedule.map (fun e => e.pod.count c)).sum
    + (s.alerts.filter (fun x => x.2.st != .idle && x.2.clip == c)).length
    + (s.preloads.filter (fun x => x.2.st != .empty && x.2.clip == c)).length
    + (s.checks.filter (fun x => x.2.map (·.clip) == some c)).length

/-- Reference count of a clip: 0 when it has no record. -/
def refsOf (s : State) (c : Nat) : Nat :=
  match s.clip c with
  | some r => r.refs
  | none => 0

/-- The law of R127, with what keeps it: a clip's reference count is the number of its holders. The scan, which makes the
directory anew, runs while nothing holds a clip. -/
structure ClipReferences (s : State) : Prop where
  entries : Table.wf none s.entries = true
  alerts : Table.wf AlertRec.idle s.alerts = true
  preloads : Table.wf Preload.empty s.preloads = true
  checks : Table.wf none s.checks = true
  num : ∀ n e, s.entry n = some e → e.num = n
  key : ∀ c r, s.clip c = some r → r.clip = c
  count : ∀ c, refsOf s c = holders s c
  ingesting : ∀ c r, s.clip c = some r → r.st = .ingesting → r.refs = 0
  units : IngestUnits s
  fills : ∀ o j, s.flash.op = some o → o.orphan = false → o.req = .preload j → (s.preload j).st = .filling
  scan : s.part = .scanning → (∀ c, holders s c = 0) ∧ ∀ p, (s.ingest p).st = .none
  scanOp : ∀ o, s.flash.op = some o → o.req = .scan → s.part = .scanning

/-- The law of R123 for a RUNNING part, with what keeps it: each block but block 0 is in exactly one of the two free lists, the
two dirty lists, the bad set and the chains of the directory, in its own region; an ingest's program in flight is on a block
of its clip's chain, and a region eraser's erase on a block of its dirty list. -/
structure BlockPlaces (s : State) : Prop where
  places : (s.flash.freeA ++ s.flash.freeM ++ s.flash.dirtyA.map (·.block) ++ s.flash.dirtyM.map (·.block) ++ s.flash.bad
    ++ s.directory.flatMap (·.chain)).Perm (List.range' 1 4095)
  free : ∀ r, ∀ b ∈ s.flash.free r, blockRegion b = r
  dirty : ∀ r, ∀ x ∈ s.flash.dirty r, blockRegion x.block = r
  chain : ∀ c r, s.clip c = some r → ∀ b ∈ r.chain, blockRegion b = r.region
  dir : Table.wf none s.dir = true
  key : ∀ c r, s.clip c = some r → r.clip = c
  units : IngestUnits s
  program : ∀ o k p, s.flash.op = some o → o.orphan = false → o.kind = .program k → o.req = .ingest p →
    (s.ingest p).st ≠ .none ∧ ∃ r, s.clip (s.ingest p).clip = some r ∧ o.block ∈ r.chain
  erase : ∀ o r, s.flash.op = some o → o.req = .eraser r → o.block ∈ (s.flash.dirty r).map (·.block)
  scan : ∀ o, s.flash.op = some o → o.req ≠ .scan

/-- Every table is in its canonical form: keys strictly rising, no entry equal to what an unlisted key reads as. -/
structure Canonical (s : State) : Prop where
  lanes : Table.wf Lane.reset s.lanes = true
  pids : ∀ k, Table.wf PidEntry.entry (s.lane k).pids = true
  services : Table.wf Service.reset s.services = true
  entries : Table.wf none s.entries = true
  alerts : Table.wf AlertRec.idle s.alerts = true
  preloads : Table.wf Preload.empty s.preloads = true
  dir : Table.wf none s.dir = true
  ingests : Table.wf Ingest.reset s.ingests = true
  checks : Table.wf none s.checks = true
  links : Table.wf Link.reset s.links = true
  boxes : Table.wf Box.reset s.boxes = true
  rr : Table.wf 0 s.flash.rr = true
  nextPage : Table.wf 0 s.flash.nextPage = true
  made : Table.wf PageMarks.none s.flash.made = true

end Sys2Proof.Machine
end

