-- ==== Sys2Proof/Certificates/Slice0/Obligations.lean ====
section
/-! DEFINITION. The statements for the provers. -/

open Sys2Proof Sys2Proof.Machine

/-! ### The step and the whole machine -/

/-- A step with a command at the front of the queue runs exactly that command on the queue's rest. The model's choice for an
empty queue (log 1, DESIGN CHOICE): a step is one tick. With REFCLK present it is one edge, and then rows of passing time, each with
the effect it has as a command, each when its moment has come at its turn, and those of the slots that fall at the new count among
them; where none is due, nothing else changes. -/
def Obligations.StepRunsFrontCommandOrOneTick : Prop :=
  (∀ (s : State) (c : Instr) (r : List Instr), s.pending = c :: r → step s = exec c { s with pending := r })
  ∧ (∀ s : State, s.pending = [] → s.resetAsserted = false → s.refclk = true →
    ∃ (t : State) (l : List Instr) (f : Nat → State), step s = .next t
      ∧ f 0 = { s with localCount := (s.localCount + 1) % nClk, backupCount := 0
                       restoreCount := if s.monitor = .backup then s.restoreCount + 1 else s.restoreCount }
      ∧ f l.length = t
      ∧ (∀ j c, l[j]? = some c → exec c (f j) = .next (f (j + 1))
          ∧ (rowDue (f j) c = true ∨ c = .refRestored ∧ (f j).monitor = .backup ∧ (f j).restoreCount = 2700000))
      ∧ (∀ k : Fin 4, (s.lane k.val).mode = .running → (s.lane k.val).slotTime = (s.localCount + 1) % nClk →
          Instr.slot k ∈ l))

/-- The capacities of R12, R30, R38 and R193 are kept by every step from every state. -/
def Obligations.CapacitiesKeptByEveryStep : Prop :=
  ∀ s t : State, Capacities s → step s = .next t → Capacities t

/-- Slot n of a RUNNING lane falls at lane base + floor(n × 27,000,000 / R_out) modulo N_CLK, with the remainder kept
beside it: every step keeps this of every lane (R13). -/
def Obligations.SlotTimesStayExact : Prop :=
  ∀ s t : State, SlotTimes s → step s = .next t → SlotTimes t

/-- The pages of a block are programmed in ascending order: every step keeps that an index is 0 … 64 and that a data program
in flight is on the page at its block's index. No step lowers an index but the end of an erase, the scan's reads (which may
complete the scan) and RESETN (R118); a tick does so only by the time limit of an erase or of a read of the scan (log 1). -/
def Obligations.PagesAreProgrammedInOrder : Prop :=
  ∀ s t : State, PageOrder s → step s = .next t → PageOrder t
    ∧ ((∀ c r, s.pending = c :: r → c ≠ .resetnRelease ∧ c ≠ .flashOpTimeout ∧ (∀ p, c ≠ .eraseComplete p)
          ∧ ∀ o m, c ≠ .pageReadComplete o m) →
        (s.pending = [] → ∀ o, s.flash.op = some o → o.kind ≠ .erase ∧ o.req ≠ .scan) →
        ∀ b, s.flash.index b ≤ t.flash.index b)

/-- Every step keeps the laws of the schedule: at most one ACTIVE and one ARMED entry a service, the ARMED one of strictly
higher level, none ARMED under an alert hold and none ACTIVE once the hold has cut (R49), and no lane's commitments above its
pool Q (R65). -/
def Obligations.ScheduleLawsKeptByEveryStep : Prop :=
  ∀ s t : State, SchedulerLaws s → step s = .next t → SchedulerLaws t

/-- Every step keeps each clip's reference count equal to the number of its holders: pod occurrences, alert records in ON or
ENDING, preload slots and checksums (R127). -/
def Obligations.ReferenceCountsEqualHolders : Prop :=
  ∀ s t : State, ClipReferences s → step s = .next t → ClipReferences t

/-- From a RUNNING part, a step that leaves it RUNNING keeps each block but block 0 in exactly one place: a free list, a dirty
list, the bad set or one clip's chain, in its own region (R123). How the scan places them is ScanReadClassifiesBlock's. -/
def Obligations.EachBlockIsInOnePlace : Prop :=
  ∀ s t : State, s.part = .running → BlockPlaces s → step s = .next t → t.part = .running → BlockPlaces t

/-- What a lane, a service and a port hold right after reset (R1, R9, R23, R104, R199); and the capacities, the exactness of
slot times, the page order, the laws of the schedule and of the reference counts hold there. -/
def Obligations.ResetValuesAndInvariantsHoldAfterReset : Prop :=
  (∀ k, let l := State.reset.lane k
    l.mode = .bypass ∧ l.cfg.rOut = 0 ∧ l.cfg.delay = 0 ∧ l.cfg.pool = 0 ∧ l.cfg.lateLimit = 20 ∧ l.cfg.preroll = 500
    ∧ l.cfg.seekLimit = 400 ∧ l.cfg.rounding = .nearestEven ∧ l.cfg.lockWindow = 2700 ∧ l.cfg.lossTimeout = 150
    ∧ l.fifo = [] ∧ l.pids = [] ∧ l.overrun = false ∧ l.inputPresent = false ∧ l.inputTimer = none)
  ∧ (∀ i, let v := State.reset.svc i
    v.defn = none ∧ v.clk.st = .unlocked ∧ v.clk.sigma = 0 ∧ v.clk.cand = none ∧ v.clk.lossTimer = none
    ∧ v.clk.leads = [] ∧ v.cues = [] ∧ v.cond.flags = 0#10
    ∧ ∀ c : Cond, v.cond.masks.getLsbD c.pos = (c != .lost))
  ∧ (∀ p, (State.reset.link p).rate = 0 ∧ (State.reset.link p).rx.st = .hunt ∧ (State.reset.link p).out = none
    ∧ (State.reset.link p).refusal = none ∧ (State.reset.box p).queue = [] ∧ (State.reset.box p).lostEvents = false
    ∧ (State.reset.box p).watch = 0#48)
  ∧ State.reset.part = .scanning ∧ State.reset.monitor = .reference ∧ State.reset.localCount = 0
  ∧ Capacities State.reset ∧ SlotTimes State.reset ∧ PageOrder State.reset ∧ SchedulerLaws State.reset
  ∧ ClipReferences State.reset

/-- The body that a well-formed command has decodes to that command, with every parameter at every value (R200, R201). -/
def Obligations.BodyOfWellFormedCommandDecodes : Prop :=
  ∀ (c : Instr) (p : PortId), c.wf = true → commandPort c = some p → decodeBody p (encodeBody c) = some c

/-- The bytes of a well-formed command's frame, received one by one at a port in HUNT, have the effect of the command's
row: receiver, judging, taking and answering together (R188, R189, R201). That a command's row stands for the completion of its
frame is the model's choice (log 37, DESIGN CHOICE). -/
def Obligations.FrameBytesActAsCommand : Prop :=
  ∀ (c : Instr) (p : PortId) (s : State), c.wf = true → commandPort c = some p → s.resetAsserted = false →
    (s.link p).rx = Rx.hunt → exec c s = .next (receiveAll s p (commandFrame (encodeBody c)))

/-- Only Configure Lane, or bytes that may carry it, and RESETN change a lane's mode or its settings (section 1.1, R1). A protection lock
of the part's copy stays set through every command but the erase of block 0, RESETN, and the read or time limit that may complete the
scan (R130, R143); a clear one becomes set only by the success of a protection program, or by the end of a read of the scan (R130, R135,
R183). -/
def Obligations.LaneSettingsAndLocksChangeOnlyByTheirCommands : Prop :=
  (∀ (c : Instr) (s t : State), (∀ p a, c ≠ .configureLane p a) → (∀ p b, c ≠ .receiveByte p b) → c ≠ .resetnRelease →
    exec c s = .next t → ∀ k, (t.lane k).mode = (s.lane k).mode ∧ (t.lane k).cfg = (s.lane k).cfg)
  ∧ (∀ (c : Instr) (s t : State), (∀ b, c ≠ .block0EraseComplete b) → c ≠ .resetnRelease →
    (∀ o m, c ≠ .pageReadComplete o m) → c ≠ .flashOpTimeout → exec c s = .next t →
    (s.flash.prot.ingestLock = true → t.flash.prot.ingestLock = true)
    ∧ (s.flash.prot.eraseLock = true → t.flash.prot.eraseLock = true))
  ∧ (∀ (c : Instr) (s t : State),
    (c = .programComplete true → ∀ o i e, s.flash.op = some o → o.kind ≠ .program (.protection i e)) →
    ((∃ o m, c = .pageReadComplete o m) ∨ c = .flashOpTimeout → ∀ o, s.flash.op = some o → o.req ≠ .scan) →
    exec c s = .next t →
    (t.flash.prot.ingestLock = true → s.flash.prot.ingestLock = true)
    ∧ (t.flash.prot.eraseLock = true → s.flash.prot.eraseLock = true))

/-! ### Reset, supply and clock -/

/-- While RESETN is asserted the ports are silent and the operation in flight is torn (R136, R199). Its release puts every
register at its reset value and starts the scan (R131, R199); with LOWSUPPLY asserted the supply state is LOW and SUPPLY
(ASSERTED) stands in each queue (R144). That the rest stands meanwhile and an assertion is no premise of the release (log 6,
DEDUCED), that the scan's first read is granted at the release (log 7), and what the scan's lists hold before it (log 8) are
the model's. -/
def Obligations.ResetSilencesThePartAndRestoresResetState : Prop :=
  (∀ s : State, ∃ t, exec .resetnAssert s = .next t
    ∧ t = { s with resetAsserted := true, flash := { s.flash with op := none }, links := t.links }
    ∧ ∀ p, t.link p = { Link.reset with rate := (s.link p).rate })
  ∧ (∀ s : State, s.lowsupply = false → exec .resetnRelease s =
    .next { State.reset with pending := s.pending, refclk := s.refclk, freeCtr := s.freeCtr })
  ∧ (∀ s : State, s.lowsupply = true → ∃ t, exec .resetnRelease s = .next t
    ∧ t = { State.reset with pending := s.pending, refclk := s.refclk, freeCtr := s.freeCtr, lowsupply := true,
                             flash := { State.reset.flash with supply := .low }, boxes := t.boxes }
    ∧ ∀ p, t.box p = { Box.reset with queue := [.supplyAsserted] })

/-- LOWSUPPLY asserted: state LOW, the event to all ports, and no program or erase in flight from then on; negated:
state NORMAL and the event (R144). The aborted operation ends for its requester: an ingest with INGEST_DONE(FAULT), its record gone,
its whole chain, the failing block in it, dirty in chain order and not bad (R124); a damage marker FAILED; a bad-block marker unwritten; a protection
program PROTECT_DONE (FAILED) with the count one higher; an erase leaves its block on its list (R144). That the event of the pin
stands before the events that the abort brings is the model's order (log 43, DEDUCED), the fields without a value are free (log 11,
DESIGN CHOICE). The loss of the reference: the monitor enters BACKUP, the count keeps its value, REF_LOST goes to all
ports, and HOLD is raised on exactly the LOCKED services, whose clock records stay (R21); the restoration returns the monitor
to REFERENCE with REF_RESTORED at all ports, and a gap sets the restore count to 0 and raises no event (R22). The presence of
REFCLK and the count of its absent cycles that these rows leave are the model's (log 4, DESIGN CHOICE), and so is REF_LOST
before HOLD (log 43). Of the passing of time, a tick (log 1, DESIGN CHOICE) moves the local count by one for an edge of REFCLK and for
a cycle in BACKUP, and leaves it in the gap before the loss is found; the rows that a tick brings do not move it (R19, R21). -/
def Obligations.SupplyAndReferenceFollowTheirPins : Prop :=
  (∀ s : State, s.resetAsserted = false → s.lowsupply = false → ∃ t, exec .lowsupplyAssert s = .next t
    ∧ t.lowsupply = true ∧ t.flash.supply = .low
    ∧ (∀ p, (s.box p).queue.length < 32 → (s.box p).queue ++ [.supplyAsserted] <+: (t.box p).queue)
    ∧ (∀ o, t.flash.op = some o → o.kind = .read)
    ∧ (∀ o, s.flash.op = some o → o.kind = .read → t.flash.op.isSome)
    ∧ t.lanes = s.lanes)
  ∧ (∀ (s : State) (o : FlashOp), s.resetAsserted = false → s.lowsupply = false → s.flash.op = some o → o.orphan = false →
    let low := { s.flash with supply := .low, op := none }
    let told := fun (u : State) (q : PortId) (events : List Event) =>
      ∀ p, u.box p = if p = q then events.foldl pushBox (pushBox (s.box p) .supplyAsserted) else pushBox (s.box p) .supplyAsserted
    (∀ k p r, o.kind = .program k → o.req = .ingest p → (s.ingest p).st = .open_ ∨ (s.ingest p).st = .closing →
      s.clip (s.ingest p).clip = some r → r.clip = (s.ingest p).clip →
      ∃ u, exec .lowsupplyAssert s = .next (rest u)
        ∧ u = { s with lowsupply := true, dir := u.dir, flash := u.flash, ingests := u.ingests, boxes := u.boxes
                       links := u.links, freeCtr := s.freeCtr + 1 }
        ∧ (∀ c, u.clip c = if c = r.clip then none else s.clip c) ∧ (∀ q, u.ingest q = if q = p then Ingest.reset else s.ingest q)
        ∧ told u p [.ingestFault r.clip o.block s.freeCtr]
        ∧ u.flash.bad = s.flash.bad
        ∧ u.flash.dirty r.region = s.flash.dirty r.region ++ r.chain.map (fun b => { block := b, job := none })
        ∧ (∀ ci first pkts, k = .data ci first pkts → u.flash.index o.block = s.flash.index o.block + 1)
        ∧ ((s.ingest p).held = .none → u.links = s.links)
        ∧ ∀ x q, (s.ingest p).held = .data x → (s.link p).out = some q →
            u.replied p q.code .fault (leBytes 4 (s.ingest p).stored))
    ∧ (∀ r, o.kind = .program .damage → o.req = .marker → s.clip o.clip = some r → r.st = .damaged →
      r.chain.head? = some o.block → ∃ u, exec .lowsupplyAssert s = .next (rest u) ∧ told u .tp []
        ∧ u = { s.setClip o.clip (some { r with marker := .failed }) with lowsupply := true, flash := low, boxes := u.boxes })
    ∧ (∀ i e, o.kind = .program (.protection i e) → o.req = .protection →
      let c := { s.flash.prot with count := s.flash.prot.count + 1 }
      ∃ u, exec .lowsupplyAssert s = .next (rest u) ∧ told u .ap [.protectSet false c s.freeCtr]
        ∧ u = { s with lowsupply := true, flash := { low with prot := c }, boxes := u.boxes, freeCtr := s.freeCtr + 1 })
    ∧ (o.kind = .program .badBlock ∧ o.req = .marker ∨ o.kind = .erase →
      ∃ u, exec .lowsupplyAssert s = .next (rest u) ∧ told u .tp []
        ∧ u = { s with lowsupply := true, flash := low, boxes := u.boxes }))
  ∧ (∀ s : State, s.resetAsserted = false → s.lowsupply = true → ∃ t, exec .lowsupplyRelease s = .next t
    ∧ t.lowsupply = false ∧ t.flash.supply = .normal
    ∧ (∀ p, (s.box p).queue.length < 32 → (s.box p).queue ++ [.supplyReleased] <+: (t.box p).queue)
    ∧ t.lanes = s.lanes)
  ∧ (∀ s : State, s.resetAsserted = false → s.monitor = .reference → ∃ t, exec .refLost s = .next t
    ∧ t = { s with refclk := false, monitor := .backup, backupCount := 64, restoreCount := 0,
                   services := t.services, boxes := t.boxes }
    ∧ (∀ p, (s.box p).queue.length < 32 → (s.box p).queue ++ [.refLost] <+: (t.box p).queue)
    ∧ (∀ i, t.svc i = { s.svc i with cond :=
        if (s.svc i).clk.st = .locked then { (s.svc i).cond with flags := (s.svc i).cond.flags ||| condBit .hold }
        else (s.svc i).cond }))
  ∧ (∀ s : State, s.resetAsserted = false → s.monitor = .backup →
    (∃ t, exec .refRestored s = .next t
      ∧ t = { s with refclk := true, monitor := .reference, backupCount := 0, restoreCount := 0, boxes := t.boxes }
      ∧ ∀ p, t.box p = pushBox (s.box p) .refRestored)
    ∧ exec .restoreCountGap s = .next { s with refclk := false, backupCount := 64, restoreCount := 0 })
  ∧ (∀ s : State, s.pending = [] → s.resetAsserted = false → ∃ t, step s = .next t ∧ t.pending = []
    ∧ t.localCount = if s.refclk = true ∨ s.monitor = .backup ∨ Config.refReturns s.freeCtr = true
        then (s.localCount + 1) % nClk else s.localCount)

/-! ### Packets -/

/-- A packet whose first byte is not 0x47 changes nothing; one accepted on a BYPASS lane is sent as it is, and the input
is present (R1, R6, R7). On a RUNNING lane a null packet is dropped, and a packet that no service names enters the FIFO with
its arrival tick; with 16,384 packets held it is dropped, OVERRUN is set, and the first such drop raises the event (R10,
R12). -/
def Obligations.ArrivingPacketIsSentOrQueued : Prop :=
  ((∀ (s : State) (k : Fin 4) (b : Pkt), b.headD 0 ≠ 0x47#8 → exec (.packetArrival k b) s = .next s)
   ∧ (∀ (s : State) (k : Fin 4) (b : Pkt), s.resetAsserted = false → b.headD 0 = 0x47#8 →
     (s.lane k.val).mode = .bypass → ∃ t, exec (.packetArrival k b) s = .next t
       ∧ t = { s with lanes := t.lanes, boxes := t.boxes }
       ∧ t.lane k.val = { s.lane k.val with out := some b, inputPresent := true, inputTimer := some s.localCount }
       ∧ (∀ j, j ≠ k.val → t.lane j = s.lane j)
       ∧ ∀ p, t.box p = if (s.lane k.val).inputPresent then s.box p else pushBox (s.box p) (.inputPresent k.val)))
  ∧ (∀ (s : State) (k : Fin 4) (b : Pkt), s.resetAsserted = false → b.headD 0 = 0x47#8 →
       (s.lane k.val).mode = .running →
       ∃ t, exec (.packetArrival k b) s = .next t
         ∧ (pktPid b = 0x1FFF → t.lane k.val = { s.lane k.val with inputPresent := true, inputTimer := some s.localCount })
         ∧ (pktPid b ≠ 0x1FFF → serviceOfPid s k.val (pktPid b) = none →
             ((s.lane k.val).fifo.length < 16384 → t.lane k.val = { s.lane k.val with
                 inputPresent := true
                 inputTimer := some s.localCount
                 fifo := (s.lane k.val).fifo ++ [{ pkt := b, stamp := s.localCount, resume := false }] })
             ∧ (16384 ≤ (s.lane k.val).fifo.length →
                 t.lane k.val = { s.lane k.val with
                   inputPresent := true, inputTimer := some s.localCount, overrun := true }
                 ∧ ((s.lane k.val).overrun = false → ∀ p, (s.box p).queue.length < 31 →
                     Event.overrun k.val ∈ (t.box p).queue)))
         ∧ (pktPid b = 0x1FFF ∨ serviceOfPid s k.val (pktPid b) = none →
             (∀ j, j ≠ k.val → t.lane j = s.lane j) ∧ ∀ i, (t.svc i).clk = (s.svc i).clk))

/-- A PCR on a service's PCR PID acts on its clock record as the tables of R25 and R26 give: case by case, σ, the
candidate, the lead window, the state and the loss timer. A PES start of the lead component in the same packet then adds
its sample to the window, and changes nothing else of the record (R11, R29). At the first lock of a service without a lead its
PENDING TIME entries are judged: one past its target by more than the window ends MISSED, one whose condition holds fires, which
without a lead is WAITING(CLOCK), or FAULTED when a clip of the pod is DAMAGED, and the others stay PENDING (R53, R54, R60). What the
packet brings to the splice engine is judged on that state (log 14, DEDUCED). -/
def Obligations.PcrObservationFollowsClockTable : Prop :=
  (∀ (s : State) (k : Fin 4) (i j : Nat) (b : Pkt) (base ext : Nat), s.resetAsserted = false → b.headD 0 = 0x47#8 →
    (s.lane k.val).mode = .running → pktPid b ≠ 0x1FFF → serviceOfPid s k.val (pktPid b) = some i →
    compIndex (s.svc i) (pktPid b) = some j → excluded b = false →
    (s.svc i).defn.map (·.pcrPid) = some (pktPid b) → pktPcr b = some (base, ext) →
    let c := (s.svc i).clk
    let l := s.localCount
    let v := base * 300 + ext
    let o := subMod nClk v l
    let w := (s.cfgOf i).lockWindow
    let after : ClockRec :=
      if 300 ≤ ext then c
      else if c.st = .unlocked then { c with st := .locked, sigma := o, cand := none, lossTimer := some l }
      else if pktDisc b = true then
        { c with st := .locked, sigma := o, cand := none, lossTimer := some l, leads := [] }
      else if s.monitor = .backup ∨ (sdiff nClk v (addMod nClk l c.sigma)).natAbs ≤ w then
        { c with st := .locked, sigma := o, cand := none, lossTimer := some l }
      else match c.cand with
        | none => { c with cand := some o }
        | some x =>
          if (sdiff nClk o x).natAbs ≤ w then
            { c with st := .locked, sigma := o, cand := none, lossTimer := some l, leads := [] }
          else { c with cand := some o }
    ∃ t, exec (.packetArrival k b) s = .next t
      ∧ { (t.svc i).clk with leads := after.leads } = after
      ∧ (pktPes b = none → (t.svc i).clk = after))
  ∧ ∀ (s : State) (k : Fin 4) (i j : Nat) (b : Pkt) (base ext : Nat), s.examines k i j b →
    (s.svc i).defn.map (·.pcrPid) = some (pktPid b) → pktPcr b = some (base, ext) → ext < 300 → pktPes b = none →
    (s.svc i).clk.st = .unlocked → (s.svc i).clk.leads = [] → Table.wf none s.entries = true →
    (∀ n x, s.entry n = some x → x.num = n) →
    let s1 := s.observed k i j b
    let now := addMod nClk s.localCount (subMod nClk (base * 300 + ext) s.localCount)
    let pends := fun (e : Entry) (tt : Nat) => e.svc = i ∧ e.st = .pending ∧ e.trigger = .time tt
    let late := fun (e : Entry) (tt : Nat) => e.window * 300 < sdiff nClk now tt
    let due := fun (tt : Nat) => atOrAfter nClk now (subMod nClk tt ((s.lane k.val).cfg.preroll * 27000)) = true
    let damaged := fun (e : Entry) => ∃ c ∈ e.pod, s.clipDamaged c = true
    let ended := fun (n : Nat) (e : Entry) (r : EntryResult) => s1.entry n = none
      ∧ ((s.box e.origin).queue.length + s.schedule.length < 32 →
          Event.entryEnd r n i e.podIdx (e.pod.headD 0) e.sEff e.e ∈ (s1.box e.origin).queue)
    (∀ n e tt, s.entry n = some e → pends e tt →
      (late e tt → ended n e .missed)
      ∧ (¬late e tt → due tt → damaged e → ended n e .faulted)
      ∧ (¬late e tt → due tt → ¬damaged e → s1.entry n = some { e with st := .waiting .clock })
      ∧ (¬late e tt → ¬due tt → s1.entry n = some e))
    ∧ (∀ n, (∀ e tt, s.entry n = some e → ¬pends e tt) → s1.entry n = s.entry n)
    ∧ (∀ c, (s.sp i).comps[j]? = some c → c.replaced = false → (s.sp i).nxt = none → (s.sp i).cutX = none →
      (s.lane k.val).fifo.length < 16384 →
      ∃ u, exec (.packetArrival k b) s = .next (rest u) ∧ u = { s1 with lanes := u.lanes, services := u.services })

/-- A lead PES start on a service with a clock adds its sample, measured against σ as the packet's own PCR may have set it, to
the window, the oldest of 32 leaving, and changes nothing else of the record; λ is the least sample held (R29, R30). The
window before, its emptying at a realignment and the first lock by this same PCR are what PcrObservationFollowsClockTable says
of that PCR (R11, R25, R26). When the window was empty, λ becomes present, and the service's WAITING(CLOCK) entries are
re-evaluated on the state with the sample (R28, R67), as ReleasesRunWaitingEntries says; otherwise no entry changes. A packet that
brings the splice engine nothing then enters the FIFO. That the engine judges the packet on the state so observed is log 14
(DEDUCED). -/
def Obligations.LeadPesStartJoinsLeadWindow : Prop :=
  (∀ (s : State) (k : Fin 4) (i j : Nat) (b : Pkt) (p : Pes), s.examines k i j b → leadIdx (s.svc i).defComps = some j →
    pktPes b = some p → (s.svc i).clk.leads.length ≤ 32 →
    let c := (s.svc i).clk
    let after : ClockRec := match pktPcr b with
      | some (base, ext) =>
        if (s.svc i).defn.map (·.pcrPid) = some (pktPid b) ∧ ext < 300 then (pcrEffect s i (base * 300 + ext) (pktDisc b)).1 else c
      | none => c
    ∃ t, exec (.packetArrival k b) s = .next t
      ∧ (after.st ≠ .unlocked →
          (t.svc i).clk = { after with leads :=
            (after.leads ++ [sdiff nPts p.pts (addMod nClk s.localCount after.sigma / 300)]).drop (after.leads.length + 1 - 32) }
          ∧ ∃ m, lead t i = some m ∧ m ∈ (t.svc i).clk.leads ∧ ∀ y ∈ (t.svc i).clk.leads, m ≤ y)
      ∧ (after.st = .unlocked → (t.svc i).clk = after))
  ∧ ∀ (s : State) (k : Fin 4) (i j : Nat) (b : Pkt) (p : Pes), s.examines k i j b → leadIdx (s.svc i).defComps = some j →
    pktPes b = some p → (s.svc i).clk.st ≠ .unlocked →
    (pktPcr b = none ∨ (s.svc i).defn.map (·.pcrPid) ≠ some (pktPid b)) →
    let s1 := s.observed k i j b
    let q := s1.sp i
    let c := (s.svc i).clk
    (c.leads ≠ [] → s1.entries = s.entries)
    ∧ (c.leads = [] → ∃ s0, s1 = syncTimers (reeval s0 i .clock) i
      ∧ s0 = { s with lanes := s0.lanes, services := s0.services, boxes := s0.boxes }
      ∧ s0.svc i = { s.svc i with
          clk := { c with leads := [sdiff nPts p.pts (addMod nClk s.localCount c.sigma / 300)] }
          sp := (latchSearches s i).sp i }
      ∧ (∀ l, l ≠ i → s0.svc l = s.svc l)
      ∧ ∀ x, s0.box x = if (s.lane k.val).inputPresent then s.box x else pushBox (s.box x) (.inputPresent k.val))
    ∧ (∀ x, q.comps[j]? = some x → x.replaced = false → q.fixE = false → q.cutX = none →
      (∀ n, q.nxt = some n → n.phase = .seeking →
        ∃ y, n.s = some y ∧ atOrAfter nPts p.pts y = false ∧ n.overdue = false) →
      (s.lane k.val).fifo.length < 16384 →
      ∃ u, exec (.packetArrival k b) s = .next (rest u) ∧ u = { s1 with lanes := u.lanes, services := u.services })

/-- A section on a service's cue PID: one that fails the tests raises CUEBAD and leaves the memory; of the others a
repeat leaves it, an update replaces the record of its id and kind as the newest, and a new cue joins, the oldest of
8 leaving (R36, R38, R39). With STRIP the packet does not enter the FIFO, with PASS it does (R45). -/
def Obligations.CueSectionUpdatesCueMemory : Prop :=
  ∀ (s : State) (k : Fin 4) (i : Nat) (d : ServiceDef) (b : Pkt), s.resetAsserted = false → b.headD 0 = 0x47#8 →
    (s.lane k.val).mode = .running → pktPid b ≠ 0x1FFF → serviceOfPid s k.val (pktPid b) = some i →
    compIndex (s.svc i) (pktPid b) = none → (s.svc i).defn = some d → excluded b = false →
    (pktPusi b && hasPayload b) = true → (s.lane k.val).fifo.length < 16384 →
    let m := (s.svc i).cues
    ∃ t, exec (.packetArrival k b) s = .next t
      ∧ (parseCue (b.drop (payloadAt b)) = none →
          (t.svc i).cues = m ∧ (t.svc i).cond.flags.getLsbD Cond.cuebad.pos = true)
      ∧ (∀ c f, parseCue (b.drop (payloadAt b)) = some (c, f) → (t.svc i).cues =
          if c ∈ m then m
          else if ∃ x ∈ m, x.id = c.id ∧ x.kind = c.kind then m.filter (fun x => !(x.id == c.id && x.kind == c.kind)) ++ [c]
          else if m.length < 8 then m ++ [c] else m.tail ++ [c])
      ∧ (t.lane k.val).fifo = (s.lane k.val).fifo
          ++ (if d.strip then [] else [{ pkt := b, stamp := s.localCount, resume := false }])

/-- What a new or updated cue does to the schedule. An OUT fires the first PENDING entry with its tag, the higher level first
and then the lower number: the entry is bound to the cue and, without a lead, waits WAITING(CLOCK); the others with the tag
end SUPERSEDED; one whose id stands cancelled fires nothing (R41, R42). An IN gives the ACTIVE entry bound to its id the return
point of its splice time, of the estimate, or of the next lead PES start (R43). A CANCEL ends every WAITING and ARMED entry
bound to its id CANCELLED (R44). That the entries of one cue end after the firing is the model's order (log 31). -/
def Obligations.CueActsOnSchedule : Prop :=
  ∀ (s : State) (k : Fin 4) (i : Nat) (d : ServiceDef) (b : Pkt) (c : CueRec) (f : Byte), s.accepts k b →
    serviceOfPid s k.val (pktPid b) = some i → compIndex (s.svc i) (pktPid b) = none → (s.svc i).defn = some d →
    excluded b = false → (pktPusi b && hasPayload b) = true → parseCue (b.drop (payloadAt b)) = some (c, f) →
    c ∉ (s.svc i).cues → Table.wf none s.entries = true → (∀ n x, s.entry n = some x → x.num = n) →
    let cancelled := ∃ x ∈ (s.svc i).cues, x.id = c.id ∧ x.kind = .cancel
    let waiting := byLevel ((entriesOf s i).filter (fun e => e.st == .pending && e.trigger == .cue c.content.tag))
    let bound := (entriesOf s i).filter (fun e => e.boundTo c.id && e.waitsOrArmed)
    let ended := fun (u : State) (r : EntryResult) (n : Nat) (e : Entry) (room : Nat) => u.entry n = none
      ∧ ((s.box e.origin).queue.length + room + 1 < 32 →
          Event.entryEnd r n i e.podIdx (e.pod.headD 0) e.sEff e.e ∈ (u.box e.origin).queue)
    ∃ u, exec (.packetArrival k b) s = .next (rest u)
      ∧ (c.kind = .out → cancelled ∨ waiting = [] → u.entries = s.entries)
      ∧ (∀ n e others, c.kind = .out → ¬cancelled → waiting = n :: others → s.entry n = some e →
          lead s i = none → (∀ y ∈ e.pod, s.clipDamaged y = false) →
          u.entry n = some { e with
            st := .waiting .clock, a := c.content.splice
            binding := some { cueId := c.id, flags := f, splice := c.content.splice, duration := c.content.duration
                              auto := c.content.auto } }
          ∧ (∀ m x, m ∈ others → s.entry m = some x → ended u .superseded m x others.length)
          ∧ (∀ m, m ≠ n → m ∉ others → u.entry m = s.entry m))
      ∧ (∀ e, c.kind = .into → activeEntry s i = some e → e.retMode = .cue → e.boundTo c.id = true →
          returnBegun s i = false →
          let fixedAt := fun (x : Nat) => u.entry e.num = some { e with e := some x } ∧ (u.sp i).ret = .returning x
            ∧ ∀ m, m ≠ e.num → u.entry m = s.entry m
          (∀ x, c.content.splice = some x → fixedAt x)
          ∧ (∀ x, c.content.splice = none → estimate s i = some x → fixedAt x)
          ∧ (c.content.splice = none → estimate s i = none → u.entries = s.entries ∧ (u.sp i).fixE = true))
      ∧ (c.kind = .cancel → (∀ e ∈ bound, ended u .cancelled e.num e bound.length)
          ∧ ((∀ e ∈ bound, e.st ≠ .armed) → ∀ m, (∀ e ∈ bound, e.num ≠ m) → u.entry m = s.entry m))

/-- A packet of a component still on the network, once observed. On the lead component, with an instance seeking the network:
at the first PES start at or after S, or by force once the search is overdue, the cut is taken; S_eff, Δ, W and the pacing
offset are fixed, the packet is dropped, the PID goes to the clip with the packets of it that the FIFO holds as its tail, and
the search of every other network component opens; the report makes the owning ARMED entry ACTIVE with its return point
(R16, R69, R70, R79, R80, R81, R90, R101). Before that the packet goes on into the FIFO. Another component with its search open
cuts at S_eff, or by force, in the same way (R80, R82). A packet that R6 excludes shows no PES start, but an overdue search takes it. The
model's choices: that it does (log 15, DEDUCED); the cut is judged on the state in which the packet's own PCR and lead sample are taken
(log 14, DEDUCED), overdue on the state before (log 25, DEDUCED; SearchesAndReturnsBecomeOverdue says when); an opening search clears
the handed-back mark (log 48, DEDUCED); and a component that is REPLACED already gets no search, while a search that an earlier cut
left open gives way to the new one (log 72, DESIGN CHOICE). -/
def Obligations.NetworkPacketCutsToClip : Prop :=
  ∀ (s : State) (k : Fin 4) (i j : Nat) (b : Pkt) (c : CompState), s.arrives k i j b →
    let s1 := s.observed k i j b
    let p := s1.sp i
    let delay := (s.lane k.val).cfg.delay * 27000
    let pts := if excluded b then none else (pktPes b).map (·.pts)
    let handed := fun (u : State) =>
      (u.lane k.val).fifo = (s.lane k.val).fifo
      ∧ (u.lane k.val).pid (pktPid b) = { (s.lane k.val).pid (pktPid b) with
          owner := .clip i, prevIn := none
          tail := ((s.lane k.val).fifo.filter (fun e => pktPid e.pkt == pktPid b)).length }
      ∧ (u.sp i).comps[j]? = some { replaced := true, search := false, mark := false, unsent := false, handedBack := false }
    p.comps[j]? = some c → c.replaced = false →
    (∀ n, leadIdx (s.svc i).defComps = some j → p.fixE = false → p.nxt = some n → n.phase = .seeking → p.cur = none →
      p.ret ≠ .emergency → p.retBegun = false →
      let v := n.sealVals
      let late := n.overdue
      let cutAt := fun (sEff : Nat) (forced : Bool) =>
        let delta := subMod nPts sEff v.c0
        let w := addMod nClk s.localCount delay
        ∃ u, exec (.packetArrival k b) s = .next (rest u) ∧ handed u
          ∧ (u.sp i).cur = some { n with phase := .playing, sEff := some sEff, delta := some delta, w := some w
                                         seekTimer := none, overdue := false }
          ∧ (u.sp i).sigmaP = some (p.sigmaP.getD (if (s1.svc i).clk.st = .unlocked
              then subMod nClk (addMod nClk v.pcr0 (300 * delta) + delay) w else (s1.svc i).clk.sigma))
          ∧ (u.sp i).cutX = some sEff ∧ (u.sp i).cutSeek = n.seekLimit ∧ (u.sp i).cutOverdue = false
          ∧ (∀ m x, m ≠ j → p.comps[m]? = some x → (u.sp i).comps[m]? = some (if x.replaced then x else
              { x with search := true, handedBack := false }))
          ∧ (forced = true → (u.svc i).cond.flags.getLsbD Cond.forced.pos = true)
          ∧ (∀ m e, n.owner = .entry m → s1.entry m = some e → e.num = m → e.svc = i → e.st = .armed →
              activeEntry s1 i = none →
              let fin := addMod nPts v.endPts delta
              let point := match e.retMode with
                | .duration x => some (addMod nPts sEff x)
                | .clipEnd => if e.pod.length = 1 then some fin else none
                | .cue => e.binding.bind (fun y =>
                    if y.auto then y.duration.map (fun x => addMod nPts (y.splice.getD sEff) x) else none)
              u.entry m = some { e with st := .active, sEff := some sEff, podIdx := 0, e := point.or e.e
                                        xEnd := if e.pod.length = 1 then some fin else none }
              ∧ (u.sp i).ret = match point with | some x => .returning x | none => .idle)
      (∀ x, n.s = some x → late = true → cutAt x true)
      ∧ (∀ x y, n.s = some x → late = false → pts = some y → atOrAfter nPts y x = true → cutAt y false)
      ∧ (n.s = none → late = true → cutAt v.c0 true)
      ∧ (∀ y, n.s = none → late = false → pts = some y → cutAt y false)
      ∧ (∀ x, n.s = some x → late = false → (∀ y, pts = some y → atOrAfter nPts y x = false) → c.search = false →
          (s.lane k.val).fifo.length < 16384 →
          ∃ u, exec (.packetArrival k b) s = .next (rest u)
            ∧ (u.lane k.val).fifo = (s.lane k.val).fifo ++ [{ pkt := b, stamp := s.localCount, resume := c.mark }]
            ∧ (u.sp i).nxt = some n ∧ u.entries = s1.entries))
    ∧ (∀ x, leadIdx (s.svc i).defComps ≠ some j → c.search = true → p.cutX = some x →
      (p.cutOverdue = true ∨ ∃ y, pts = some y ∧ atOrAfter nPts y x = true) →
      ∃ u, exec (.packetArrival k b) s = .next (rest u) ∧ handed u
        ∧ u = { s1 with lanes := u.lanes, services := u.services, boxes := u.boxes }
        ∧ (∀ m, m ≠ j → (u.sp i).comps[m]? = p.comps[m]?)
        ∧ (u.svc i).cond.flags = (s1.svc i).cond.flags ||| (if p.cutOverdue then condBit .forced else 0#10))

/-- A packet of a REPLACED component, once observed. Under a return toward E it resumes the component when it is a PES start at
or after E, or the return is overdue; under an emergency return, when it is any PES start, or the return is overdue (R96, R98,
R102): the component is NETWORK, its packet enters the FIFO with the resume mark, and the return has begun, which closes the
searches of the other components (R95). A packet that neither resumes nor cuts is dropped (R10). A return point that is awaited from the
next lead PES start is fixed at the PTS of that PES start, which resumes the lead component (R43, R74, R97, R180). A packet that R6
excludes shows no PES start, but an overdue return takes it (log 15, DEDUCED). The model's
choices: it is judged on the state in which its own PCR and lead sample are taken (log 14, DEDUCED), and a resume before a cut, also
while another instance searches the network (log 26, DEDUCED). A resume whose packet finds the FIFO full is log 16's and left out. -/
def Obligations.ReplacedComponentResumes : Prop :=
  ∀ (s : State) (k : Fin 4) (i j : Nat) (b : Pkt) (c : CompState), s.arrives k i j b →
    let s1 := s.observed k i j b
    let p := s1.sp i
    let pts := if excluded b then none else (pktPes b).map (·.pts)
    let due := p.retOverdue = true ∧ p.ret ≠ .idle ∨ (∃ e y, p.ret = .returning e ∧ pts = some y ∧ atOrAfter nPts y e = true)
      ∨ p.ret = .emergency ∧ pts.isSome = true
    p.comps[j]? = some c → c.replaced = true →
    (p.fixE = false → due → (s.lane k.val).fifo.length < 16384 →
      ∃ u, exec (.packetArrival k b) s = .next (rest u)
        ∧ (u.sp i).comps[j]? = some { c with replaced := false, unsent := true, mark := false
                                             search := p.retBegun && c.search }
        ∧ (∀ m x, m ≠ j → p.comps[m]? = some x → (u.sp i).comps[m]? = some { x with search := p.retBegun && x.search })
        ∧ (u.sp i).retBegun = true ∧ (u.sp i).ret = p.ret
        ∧ (u.lane k.val).fifo = (s.lane k.val).fifo ++ [{ pkt := b, stamp := s.localCount, resume := true }]
        ∧ (u.lane k.val).pids = (s.lane k.val).pids
        ∧ u = { s1 with lanes := u.lanes, services := u.services, flash := u.flash }
        ∧ (∀ l, l ≠ i → u.svc l = s1.svc l) ∧ (u.svc i).cond = (s1.svc i).cond)
    ∧ (p.fixE = false → ¬due → c.search = false → (∀ n, p.nxt = some n → n.phase = .seeking → p.cur.isSome = true) →
      exec (.packetArrival k b) s = .next (rest s1))
    ∧ (∀ y, leadIdx (s.svc i).defComps = some j → p.fixE = true → p.retBegun = false → p.ret ≠ .emergency → pts = some y →
      (s.lane k.val).fifo.length < 16384 →
      let resumed := fun (u : State) =>
        exec (.packetArrival k b) s = .next (rest u)
        ∧ (u.sp i).ret = .returning y ∧ (u.sp i).retBegun = true ∧ (u.sp i).fixE = false
        ∧ (u.sp i).comps[j]? = some { c with replaced := false, unsent := true, mark := false, search := false }
        ∧ (u.lane k.val).fifo = (s.lane k.val).fifo ++ [{ pkt := b, stamp := s.localCount, resume := true }]
      (∀ e, activeEntry s1 i = some e → s1.entry e.num = some e →
        (∀ r t, holdingAlert s1 i = some r → (s1.alert r).target i = some t → t.cut = false) →
        ∃ u, resumed u ∧ u.entry e.num = some { e with e := some y } ∧ (∀ m, m ≠ e.num → u.entry m = s1.entry m)
          ∧ u.alerts = s1.alerts)
      ∧ (∀ r t, holdingAlert s1 i = some r → (s1.alert r).target i = some t → t.cut = true →
        ∃ u, resumed u ∧ (u.alert r).target i = some { t with e := some y } ∧ (∀ q, q ≠ r → u.alert q = s1.alert q)
          ∧ u.entries = s1.entries))

/-! ### Timers of the input and of the clock, and conditions -/

/-- The input-loss timer expires: the flag is cleared, the timer stops and INPUT_LOST goes to all ports (R7). The PCR loss timer
of a LOCKED service expires: HOLDOVER with σ and the lead window kept, the timer stopped, and HOLD raised (R27). A row taken
before its moment moves the local count there: the model's choice (log 2). A condition that is raised sets its flag; unmasked, it
is offered to each port whose watch set holds the service, and an unread event of the same service and condition in the queue
declines the offer (R105, R106). -/
def Obligations.InputLossAndPcrLossTakeEffect : Prop :=
  (∀ (s : State) (k : Fin 4) (l0 : Nat), s.resetAsserted = false → (s.lane k.val).inputPresent = true →
    (s.lane k.val).inputTimer = some l0 → ∃ t, exec (.inputLost k) s = .next t
      ∧ t = { s with localCount := t.localCount, lanes := t.lanes, boxes := t.boxes }
      ∧ t.lane k.val = { s.lane k.val with inputPresent := false, inputTimer := none }
      ∧ (∀ j, j ≠ k.val → t.lane j = s.lane j)
      ∧ (∀ p, t.box p = pushBox (s.box p) (.inputLost k.val))
      ∧ atOrAfter nClk t.localCount ((l0 + 2700000) % nClk) = true)
  ∧ (∀ (s : State) (i : Fin 48) (l0 : Nat), s.resetAsserted = false → (s.svc i.val).clk.st = .locked →
    (s.svc i.val).clk.lossTimer = some l0 → ∃ t, exec (.pcrLossTimeout i) s = .next t
      ∧ t = { s with localCount := t.localCount, services := t.services, boxes := t.boxes }
      ∧ t.svc i.val = { s.svc i.val with
          clk := { (s.svc i.val).clk with st := .holdover, lossTimer := none }
          cond := { (s.svc i.val).cond with flags := (s.svc i.val).cond.flags ||| condBit .hold } }
      ∧ (∀ j, j ≠ i.val → t.svc j = s.svc j)
      ∧ (∀ p, t.box p = if (s.svc i.val).cond.masks.getLsbD Cond.hold.pos = false ∧ (s.box p).watch.getLsbD i.val = true
          ∧ Event.condition i.val .hold ∉ (s.box p).queue then pushBox (s.box p) (.condition i.val .hold) else s.box p)
      ∧ atOrAfter nClk t.localCount ((l0 + (s.cfgOf i.val).lossTimeout * 27000) % nClk) = true)
  ∧ (∀ (s : State) (i : Nat) (c : Cond),
    let t := raise s i c
    t = { s with services := t.services, boxes := t.boxes } ∧ (∀ j, j ≠ i → t.svc j = s.svc j)
    ∧ t.svc i = { s.svc i with cond := { (s.svc i).cond with flags := (s.svc i).cond.flags ||| condBit c } }
    ∧ (∀ x : Cond, (t.svc i).cond.flags.getLsbD x.pos = ((s.svc i).cond.flags.getLsbD x.pos || x == c))
    ∧ ∀ p, t.box p = if (s.svc i).cond.masks.getLsbD c.pos = false ∧ (s.box p).watch.getLsbD i = true
        ∧ Event.condition i c ∉ (s.box p).queue then pushBox (s.box p) (.condition i c) else s.box p)

/-! ### Slots -/

/-- Every slot of a RUNNING lane sends one packet, and the next slot is found by the accumulator (R13). After the late tests
(R15) the packet is the FIFO head, the clip packet of a service or the null packet, as the choice of R14 falls: it leaves at
this slot, with its counter rewritten (R17, R18). The bound of the late tests is log 20's (DESIGN CHOICE),
and one that it cannot reach; that the tests go by ascending service, all before the send, is log 61's (DESIGN CHOICE). With no
candidate it is the null packet, and the per-PID table stays. -/
def Obligations.SlotSendsOnePacketAndAdvances : Prop :=
  ∀ (s : State) (k : Fin 4), s.resetAsserted = false → (s.lane k.val).mode = .running →
    let at_ := (s.lane k.val).slotTime
    let u := (s.servicesOf k.val).foldl (fun s i => lateTests lateBound s k.val i at_) (advanceTo s at_)
    let l := u.lane k.val
    ∃ t, exec (.slot k) s = .next t
      ∧ (t.lane k.val).out = (match chooseSlot u k.val at_ with
          | .network => l.fifo.head?.map (fun e =>
              setCC e.pkt (networkCC ((l.pid (pktPid e.pkt)).afterNetwork e.resume) e.pkt e.resume).1)
          | .clip i => (u.sp i).head.map (fun h => setCC h.pkt (clipCC (l.pid h.pid) h.pkt).1)
          | .idle => some ([0x47#8, 0x1F#8, 0xFF#8, 0x10#8] ++ List.replicate 184 0xFF#8))
      ∧ (t.lane k.val).out.isSome = true
      ∧ (t.lane k.val).slotNo = (s.lane k.val).slotNo + 1
      ∧ (t.lane k.val).slotRem = ((s.lane k.val).slotRem + 27000000) % (s.lane k.val).cfg.rOut
      ∧ (t.lane k.val).slotTime =
          ((s.lane k.val).slotTime + ((s.lane k.val).slotRem + 27000000) / (s.lane k.val).cfg.rOut) % nClk
      ∧ (t.lane k.val).base = (s.lane k.val).base
      ∧ (t.lane k.val).mode = .running ∧ (t.lane k.val).cfg = (s.lane k.val).cfg
      ∧ (∀ j, j ≠ k.val → t.lane j = s.lane j)
      ∧ ((∀ e r, (s.lane k.val).fifo = e :: r →
            atOrAfter nClk at_ ((e.stamp + (s.lane k.val).cfg.delay * 27000) % nClk) = false) →
          (∀ i ∈ s.servicesOf k.val, considered s k.val i at_ = none) →
          (t.lane k.val).out = some ([0x47#8, 0x1F#8, 0xFF#8, 0x10#8] ++ List.replicate 184 0xFF#8)
          ∧ (t.lane k.val).pids = (s.lane k.val).pids ∧ (t.lane k.val).fifo = (s.lane k.val).fifo)

/-- A due packet at the FIFO's head is sent when no clip packet considered at the slot is too late or was due before it: at equal
due times the network goes first (R14). It leaves with the counter of R18 (resume, duplicate, offset), and the entry of its PID
is as R16 and R18 leave it. A resume-marked packet sent with the tail at 0 hands its PID back (R16): the marked packet of the
component is then sent, as R99 asks of every component, and the component is marked so that every later clip packet of the PID is
dropped (log 48, DEDUCED); a clip packet of the PID that stands at the head leaves it, with DROP raised. Nothing else of the
splice record changes then, and with no such packet no splice record does. SLOT leaves every other service, every other lane and
all that it does not name here as they were before the acts of `rest`, which keep the lanes; taken before its moment it moves the
local count there (log 2, DESIGN CHOICE). A resume-marked packet of adaptation field control 00 sets the offset as an
adaptation-only one by log 56 (DESIGN CHOICE). -/
def Obligations.SlotSendsNetworkPacketWithItsCounter : Prop :=
  ∀ (s : State) (k : Fin 4) (e : FifoElem) (r : List FifoElem), s.resetAsserted = false →
    (s.lane k.val).mode = .running → (s.lane k.val).fifo = e :: r →
    let at_ := (s.lane k.val).slotTime
    let due := (e.stamp + (s.lane k.val).cfg.delay * 27000) % nClk
    atOrAfter nClk at_ due = true →
    (∀ i ∈ s.servicesOf k.val, ∀ h, considered s k.val i at_ = some h →
      tooLate s k.val at_ h = false ∧ sdiff nClk at_ h.due ≤ sdiff nClk at_ due) →
    let pid := pktPid e.pkt
    let p := (s.lane k.val).pid pid
    let last := p.lastCC.getD 15#4
    let input := pktCC e.pkt
    let offset := if e.resume then (if hasPayload e.pkt then last + 1#4 - input else last - input) else p.offset
    let duplicate := !e.resume && hasPayload e.pkt && p.prevIn == some input
    let cc := if duplicate then last else input + offset
    ∃ d u, exec (.slot k) s = .next (rest u) ∧ (rest u).lanes = u.lanes ∧ u.lanes = d.lanes
      ∧ d = { s with localCount := d.localCount, lanes := d.lanes, services := d.services }
      ∧ d.localCount = (if atOrAfter nClk s.localCount at_ = true then s.localCount else at_ % nClk)
      ∧ (∀ j, j ≠ k.val → d.lane j = s.lane j)
      ∧ d.lane k.val = { s.lane k.val with
          out := some (setCC e.pkt cc), fifo := r, pids := (d.lane k.val).pids, slotNo := (d.lane k.val).slotNo
          slotRem := (d.lane k.val).slotRem, slotTime := (d.lane k.val).slotTime }
      ∧ (d.lane k.val).pid pid =
          { lastCC := if hasPayload e.pkt && !duplicate then some cc else p.lastCC
            prevIn := if hasPayload e.pkt then some input else p.prevIn
            offset := offset
            tail := p.tail - 1
            owner := if e.resume && p.tail == 0 then .network else p.owner }
      ∧ (∀ q, q ≠ pid → (d.lane k.val).pid q = (s.lane k.val).pid q)
      ∧ (e.resume = false ∨ p.tail ≠ 0 ∨ (∀ i, serviceOfPid s k.val pid = some i → compIndex (s.svc i) pid = none) →
          u = d ∧ d.services = s.services)
      ∧ (∀ i j, e.resume = true → p.tail = 0 → serviceOfPid s k.val pid = some i → compIndex (s.svc i) pid = some j →
          let back := { s.sp i with comps := (s.sp i).comps.modify j (fun x => { x with unsent := false, handedBack := true }) }
          (∀ l, l ≠ i → d.svc l = s.svc l)
          ∧ (∀ h, (s.sp i).head = some h → h.pid = pid →
              d.svc i = { s.svc i with sp := { back with head := none } } ∧ u = raise d i .drop)
          ∧ ((∀ h, (s.sp i).head = some h → h.pid ≠ pid) → d.svc i = { s.svc i with sp := back } ∧ u = d))

/-- A clip packet that is due, with its PID open, is sent when it is not too late and its due time lies furthest before the
slot: before the network's by more than nothing, and at equal due times before a service of a higher number (R14, R16). It
leaves with the next counter of its PID, or with the last one when it carries no payload (R17), which for adaptation field control 00
is log 56's (DESIGN CHOICE). The emission head that held it is empty then (R91), and SLOT leaves the other heads, services and
lanes, the FIFO, the schedule, the alerts, the directory and the queues of events as they were before the acts of `rest`, which
keep the lanes; taken before its moment it moves the local count there (log 2, DESIGN CHOICE). One later than the late limit and
not due before its switch moment is dropped: its head is empty, DROP is raised, and the packet that the engine puts there next is
tested in the same way for the same slot; any other packet, and one that is not considered, is left where it stands (R15; the
late tests of a slot are the runs of `lateTests` that SlotSendsOnePacketAndAdvances names). -/
def Obligations.SlotSendsClipPacketWithNextCounter : Prop :=
  (∀ (s : State) (k : Fin 4) (i : Nat) (h : HeadPkt), s.resetAsserted = false →
    (s.lane k.val).mode = .running → i ∈ s.servicesOf k.val → (s.sp i).head = some h →
    let at_ := (s.lane k.val).slotTime
    atOrAfter nClk at_ h.due = true →
    ((s.lane k.val).pid h.pid).owner = .clip i → ((s.lane k.val).pid h.pid).tail = 0 →
    let late : Int := (s.lane k.val).cfg.lateLimit * 27000
    let last := ((s.lane k.val).pid h.pid).lastCC.getD 15#4
    let cc := if hasPayload h.pkt then last + 1#4 else last
    (atOrAfter nClk h.due h.w = false ∨ sdiff nClk at_ h.due ≤ late → Table.wf Service.reset s.services = true →
      (∀ e r, (s.lane k.val).fifo = e :: r →
        let due := (e.stamp + (s.lane k.val).cfg.delay * 27000) % nClk
        atOrAfter nClk at_ due = false ∨ sdiff nClk at_ due < sdiff nClk at_ h.due) →
      (∀ j ∈ s.servicesOf k.val, ∀ g, j ≠ i → considered s k.val j at_ = some g → tooLate s k.val at_ g = false
        ∧ (sdiff nClk at_ g.due < sdiff nClk at_ h.due ∨ sdiff nClk at_ g.due = sdiff nClk at_ h.due ∧ i < j)) →
      ∃ u, exec (.slot k) s = .next (rest u) ∧ (rest u).lanes = u.lanes
        ∧ u = { s with localCount := u.localCount, lanes := u.lanes, services := u.services }
        ∧ u.localCount = (if atOrAfter nClk s.localCount at_ = true then s.localCount else at_ % nClk)
        ∧ (∀ j, j ≠ i → u.svc j = s.svc j) ∧ u.svc i = { s.svc i with sp := { s.sp i with head := none } }
        ∧ (∀ j, j ≠ k.val → u.lane j = s.lane j)
        ∧ u.lane k.val = { s.lane k.val with
            out := some (setCC h.pkt cc), pids := (u.lane k.val).pids, slotNo := (u.lane k.val).slotNo
            slotRem := (u.lane k.val).slotRem, slotTime := (u.lane k.val).slotTime }
        ∧ (u.lane k.val).pid h.pid = { (s.lane k.val).pid h.pid with
            lastCC := if hasPayload h.pkt then some cc else ((s.lane k.val).pid h.pid).lastCC }
        ∧ ∀ q, q ≠ h.pid → (u.lane k.val).pid q = (s.lane k.val).pid q)
    ∧ (atOrAfter nClk h.due h.w = true → late < sdiff nClk at_ h.due → (s.lane k.val).fifo = [] →
        (∀ j ∈ s.servicesOf k.val, j ≠ i → (s.sp j).head = none) →
        ∃ t, exec (.slot k) s = .next t ∧ (t.svc i).cond.flags.getLsbD Cond.drop.pos = true))
  ∧ (∀ (s : State) (k i at_ n : Nat),
    let tested := fun (h : HeadPkt) => (s.sp i).head = some h ∧ atOrAfter nClk at_ h.due = true
      ∧ ((s.lane k).pid h.pid).owner = .clip i ∧ ((s.lane k).pid h.pid).tail = 0
    let late := fun (h : HeadPkt) => atOrAfter nClk h.due h.w = true
      ∧ ((s.lane k).cfg.lateLimit * 27000 : Nat) < sdiff nClk at_ h.due
    ((∀ h, tested h → ¬late h) → lateTests n s k i at_ = s)
    ∧ (∀ h, tested h → late h →
      ∃ d, lateTests (n + 1) s k i at_ = lateTests n (settle (raise d i .drop)) k i at_
        ∧ d = { s with services := d.services } ∧ (∀ j, j ≠ i → d.svc j = s.svc j)
        ∧ d.svc i = { s.svc i with sp := { s.sp i with head := none } }
        ∧ ((raise d i .drop).svc i).cond.flags.getLsbD Cond.drop.pos = true))

/-! ### The splice engine's acts -/

/-- Whatever a row has changed, `rest` takes the act due on the lowest service that has one, and goes on (log 55). Where the acts
before it have nothing to do, an empty emission head takes the current instance's next packet: mapped to its service PID,
rebased by Δ, due at its departure time on the pacing offset plus D, with WRAP at the first time that passes the modulus; the
accumulator of the departure times goes on by 27,000,000 over P (R88 to R91). A packet of an unmapped component is passed over
(R78), and one whose PID has gone back to the network is dropped with DROP (R16). Rebasing adds Δ to every PTS and DTS and 300 Δ
to the PCR, on the same PID (R88). The model's choices: WRAP is tested also on a packet that is then passed over or dropped (log 22,
DEDUCED), and the bounds 4,096 and 65,536 (log 20, DESIGN CHOICE). -/
def Obligations.EmissionHeadTakesRebasedPacket : Prop :=
  (∀ (u t : State) (i : Nat) (l r : List Nat), u.listed = l ++ i :: r → (∀ j ∈ l, svcStep u j = none) →
    svcStep u i = some t → rest u = arbLoop none 4096 (settleLoop 65535 t))
  ∧ (∀ (s : State) (i : Nat) (n : Inst) (b : Pkt) (c delta w σ : Nat),
    let p := s.sp i
    let v := n.sealVals
    p.cur = some n → p.nxt = none → p.waiting = none → p.ret = .idle → p.head = none → p.sigmaP = some σ →
    n.delta = some delta → n.w = some w → n.packet = some b → n.compOf b = some c → n.isStopped c = false →
    clipEndStep s i = none → finishOrPromote s i = none →
    let wrap := !n.wrapRaised && (match pktPes b with
      | some q => decide (nPts ≤ q.pts + delta) || (q.dts.map (fun d => decide (nPts ≤ d + delta))).getD false
      | none => false)
    let due := addMod nClk (subMod nClk (addMod nClk (addMod nClk v.pcr0 (300 * delta)) n.accQ) σ) ((s.cfgOf i).delay * 27000)
    ∃ t, svcStep s i = some t
      ∧ t = { s with services := t.services, boxes := t.boxes } ∧ (∀ j, j ≠ i → t.svc j = s.svc j)
      ∧ (t.sp i).cur = some { n with
          k := n.k + 1, accQ := n.accQ + (n.accR + 27000000) / v.rate, accR := (n.accR + 27000000) % v.rate
          pages := n.pages.filter (fun g => decide (n.k + 1 < 43 * g.no + g.pkts.length))
          wrapRaised := n.wrapRaised || wrap }
      ∧ (wrap = true → (t.svc i).cond.flags.getLsbD Cond.wrap.pos = true)
      ∧ (n.mapped c = none → (t.sp i).head = none)
      ∧ (∀ j x d, n.mapped c = some j → p.comps[j]? = some x → (s.svc i).defComps[j]? = some d →
          (x.handedBack = false → (t.sp i).head = some { pkt := setPid (rebase b delta) d.pid, comp := j, pid := d.pid
                                                         due := due, w := w, role := .current })
          ∧ (x.handedBack = true → (t.sp i).head = none ∧ (t.svc i).cond.flags.getLsbD Cond.drop.pos = true)))
  ∧ (∀ (b : Pkt) (delta : Nat), b.length = 188 → delta < nPts → pktPcr b = none ∨ 7 ≤ pktAfLen b →
    pktPes (rebase b delta) = (pktPes b).map (fun q =>
        { pts := (q.pts + delta) % nPts, dts := q.dts.map (fun d => (d + delta) % nPts) })
    ∧ (pktPcr (rebase b delta)).map (fun x => x.1 * 300 + x.2)
        = (pktPcr b).map (fun x => (x.1 * 300 + x.2 + 300 * delta) % nClk)
    ∧ pktPid (rebase b delta) = pktPid b ∧ (rebase b delta).length = 188)

/-- With an instance seeking the clip that plays, a packet of the outgoing lead component whose rebased PTS is at or after S (by
force when the search is overdue) is the cut: that component stops, the packet is discarded, and the incoming instance plays from
S_eff with Δ, its W that packet's due time (R84). Where the outgoing clip's last packet leaves the store first, the cut is taken
at exhaustion: S_eff is S, W is the due time of the packet one beyond the last, every outgoing component counts as stopped, and
FORCED is not raised (R85). A cut for the ACTIVE entry is its pod transition; one for an ARMED entry ends the lower ACTIVE entry
and makes it ACTIVE (R64, R69, R94). That the last cut of a pod leaves the E of a cancelled CLIP_END entry is log 36 (DEDUCED).
When the last packet of a level-3 hold's clip leaves the store with a repeat of it behind, the clip's end is handed as the return
point if the clip is DAMAGED by then (or loop clear), and not otherwise (R178): that the repeat is cut all the same is log 70
(DEDUCED), and an E still awaited stays so by log 42 (DEDUCED).
Once all mapped components of an instance have stopped, or its last packet has left the store, and none of its packets is at the
head, it is removed with its pages, its standing read with it, and a read in flight for it finds no requester (R76, R152). An
instance with none mapped runs to its last packet, and one in the next role finishes too once it has cut (log 18, DEDUCED). With the
current role free an instance in the next role that has cut takes it, its pages, its packet at the head and its reads with it (R86).
A request that waits takes the next role as soon as that is free, before anything else that is due (R77, R100): a new SEEKING
instance of its clip, with the map of R78. That these acts are taken where no earlier one of the engine is due is log 55
(DESIGN CHOICE). -/
def Obligations.ClipCutOrExhaustionHandsOver : Prop :=
  (∀ (s : State) (i : Nat) (o nx : Inst) (b : Pkt),
    let p := s.sp i
    let late := seekOverdue s i nx
    let pts := (pktPes b).map (fun q => (q.pts + o.delta.getD 0) % nPts)
    p.head = none → p.cur = some o → p.nxt = some nx → nx.phase = .seeking → p.ret = .idle → p.retBegun = false →
    o.packet = some b →
    let taken := fun (t : State) (sEff w : Nat) =>
      (t.sp i).nxt = some { nx with phase := .playing, sEff := some sEff, delta := some (subMod nPts sEff nx.sealVals.c0)
                                    w := some w, overdue := false
                                    seekTimer := if (estimate s i).isSome then none else some s.localCount }
    let reported := fun (t : State) (sEff : Nat) =>
      (∀ m e, nx.owner = .entry m → s.entry m = some e → e.num = m → e.svc = i → e.st = .active →
        let last := e.podIdx + 2 = e.pod.length
        let fin := addMod nPts nx.sealVals.endPts (subMod nPts sEff nx.sealVals.c0)
        t.entry m = some { e with podIdx := e.podIdx + 1, xEnd := if last then some fin else e.xEnd
                                  e := if last ∧ e.retMode = .clipEnd ∧ e.cancelled = false then some fin else e.e }
        ∧ ∀ n, n ≠ m → t.entry n = s.entry n)
      ∧ (∀ m e a, nx.owner = .entry m → s.entry m = some e → e.svc = i → e.st = .armed → activeEntry s i = some a →
        Table.wf none s.entries = true → (∀ n x, s.entry n = some x → x.num = n) →
        (∃ x, t.entry m = some x ∧ x.st = .active ∧ x.sEff = some sEff ∧ x.podIdx = 0) ∧ t.entry a.num = none)
      ∧ (∀ r g, o.owner = .alert r → nx.owner = .alert r → (s.alert r).target i = some g → g.cut = true →
        o.k + 1 = o.sealVals.k →
        let a := s.alert r
        let fin := addMod nPts o.sealVals.endPts (o.delta.getD 0)
        (a.loop = true → s.clipDamaged a.clip = false → (t.sp i).ret = .idle ∧ t.alerts = s.alerts)
        ∧ (a.loop = false ∨ s.clipDamaged a.clip = true → (t.sp i).ret = .returning fin ∧ (t.sp i).retBegun = false
          ∧ (t.sp i).fixE = p.fixE ∧ (∀ x ∈ (t.alert r).targets, x.svc = i → x.e = some fin)
          ∧ ∀ q, q ≠ r → t.alert q = s.alert q))
    (∀ c, o.leadComp = some c → o.compOf b = some c → o.isStopped c = false →
      let cutAt := fun (sEff : Nat) (forced : Bool) =>
        ∃ t x, fillHead s i = some t ∧ (t.sp i).head = none ∧ (t.sp i).cur = some x ∧ x.phase = .ending ∧ x.k = o.k + 1
          ∧ x.stopped = o.stopped.set c true ∧ taken t sEff (dueOf s i o) ∧ reported t sEff
          ∧ (forced = true → (t.svc i).cond.flags.getLsbD Cond.forced.pos = true)
      (∀ x, nx.s = some x → late = true → cutAt x true)
      ∧ (∀ x y, nx.s = some x → late = false → pts = some y → atOrAfter nPts y x = true → cutAt y false)
      ∧ (nx.s = none → late = true → cutAt nx.sealVals.c0 true)
      ∧ (∀ y, nx.s = none → late = false → pts = some y → cutAt y false))
    ∧ (∀ x, nx.s = some x → o.k + 1 = o.sealVals.k →
      o.compOf b ≠ o.leadComp ∨ late = false ∧ (∀ y, pts = some y → atOrAfter nPts y x = false) →
      ∃ t z, fillHead s i = some t ∧ (t.sp i).cur = some z ∧ z.phase = .ending ∧ z.k = o.sealVals.k
        ∧ z.stopped = List.replicate o.stopped.length true ∧ taken t x (dueOf s i o.advance) ∧ reported t x
        ∧ (t.svc i).cond.flags.getLsbD Cond.forced.pos = (s.svc i).cond.flags.getLsbD Cond.forced.pos))
  ∧ (∀ (s : State) (i : Nat),
    let p := s.sp i
    let stopped := fun (n : Inst) => (∃ c, c < n.map.length ∧ n.mapped c ≠ none)
      ∧ ∀ c, c < n.map.length → n.mapped c ≠ none → n.isStopped c = true
    let finishes := fun (r : Role) (n : Inst) => p.inst r = some n ∧ n.phase ≠ .seeking
      ∧ (stopped n ∨ n.k = n.sealVals.k) ∧ ∀ h, p.head = some h → h.role ≠ r
    let gone := fun (r : Role) => ∃ t, svcStep s i = some t
      ∧ t = { s with services := t.services, flash := t.flash } ∧ (∀ j, j ≠ i → t.svc j = s.svc j)
      ∧ t.svc i = { s.svc i with sp := { p.setInst r none with
          raReq := if p.raReq.map (·.role) = some r then none else p.raReq } }
      ∧ t.flash = { s.flash with
          op := s.flash.op.map (fun o => if o.req = .readAhead i r then { o with orphan := true } else o) }
    (p.waiting = none ∨ p.nxt ≠ none → clipEndStep s i = none → lateExhaust s i = none →
      (∀ n, finishes .current n → gone .current)
      ∧ (∀ o n, p.cur = some o → ¬finishes .current o → finishes .next n → gone .next))
    ∧ (∀ n, p.cur = none → p.nxt = some n → n.phase ≠ .seeking →
      ∃ t, svcStep s i = some t
        ∧ t = { s with services := t.services, flash := t.flash } ∧ (∀ j, j ≠ i → t.svc j = s.svc j)
        ∧ t.svc i = { s.svc i with sp := { p with
            cur := some n, nxt := none
            head := p.head.map (fun h => { h with role := .current })
            raReq := p.raReq.map (fun q => { q with role := .current }) } }
        ∧ t.flash = { s.flash with op := s.flash.op.map (fun o =>
            if o.req = .readAhead i .next ∧ o.orphan = false then { o with req := .readAhead i .current } else o) })
    ∧ (∀ q r v, p.waiting = some q → p.nxt = none → s.clip q.clip = some r → r.sealVals = some v →
      ∃ t x, svcStep s i = some t
        ∧ t = { s with services := t.services, boxes := t.boxes } ∧ (∀ j, j ≠ i → t.svc j = s.svc j)
        ∧ t.sp i = { p with waiting := none, nxt := some x }
        ∧ x.clip = q.clip ∧ x.owner = q.owner ∧ x.phase = .seeking ∧ x.s = q.s ∧ x.sealVals = v ∧ x.chain = r.chain
        ∧ x.k = 0 ∧ x.accQ = 0 ∧ x.accR = 0 ∧ x.fetch = 0 ∧ x.pages = [] ∧ x.seekLimit = (s.cfgOf i).seekLimit
        ∧ x.map = mapComps v.comps (s.svc i).defComps
        ∧ (x.map.any (·.isNone) = true → (t.svc i).cond.flags.getLsbD Cond.unmap.pos = true)))

/-- What the owner of the playing clip does as the clip comes to its end. An entry whose pod goes on asks, within four pages of
the end, for the next clip toward this one's rebased end PTS (R93, R149), or returns at once when that clip is DAMAGED (R129); a
CUE entry whose pod has ended without a return point takes that end as its E (R70, R94). The end of a pod is reported once: an E that
a Cancel Entry has made absent since then stays so (R74). A level-3 hold ON with loop set asks for
the clip again in the same way, and with loop clear, or the clip DAMAGED, hands the end as its return point (R178; log 42 for
one that also awaits a lead PES start). That a clip's end is acted on before the engine's other acts is log 55. -/
def Obligations.EndOfClipAsksForNextOrReturns : Prop :=
  ∀ (s : State) (i : Nat) (c : Inst) (delta : Nat),
    let p := s.sp i
    let fin := (c.sealVals.endPts + delta) % nPts
    let nearEnd := (c.sealVals.k + 42) / 43 - c.k / 43 ≤ 4
    let asks := fun (clip : Nat) => ∀ r v, s.clip clip = some r → r.sealVals = some v →
      ∃ t x, svcStep s i = some t ∧ t = { s with services := t.services, boxes := t.boxes } ∧ (∀ j, j ≠ i → t.svc j = s.svc j)
        ∧ (t.sp i).nxt = some x ∧ x.clip = clip ∧ x.owner = c.owner ∧ x.phase = .seeking ∧ x.s = some fin ∧ x.k = 0
        ∧ x.sealVals = v ∧ x.chain = r.chain ∧ x.map = mapComps v.comps (s.svc i).defComps
        ∧ (x.map.any (·.isNone) = true → (t.svc i).cond.flags.getLsbD Cond.unmap.pos = true)
    p.cur = some c → p.nxt = none → p.waiting = none → c.delta = some delta → p.retBegun = false → p.ret ≠ .emergency →
    (∀ m e, c.owner = .entry m → s.entry m = some e → e.num = m → e.svc = i → e.st = .active →
      (∀ f, e.pod[e.podIdx + 1]? = some f → nearEnd →
        (s.clipDamaged f = false → asks f)
        ∧ (s.clipDamaged f = true → ∃ t, svcStep s i = some t ∧ (t.sp i).cur = none ∧ (t.sp i).nxt = none
            ∧ (t.sp i).head = none ∧ (t.sp i).ret = .emergency ∧ (t.sp i).retBegun = true
            ∧ (t.sp i).retTimer = some s.localCount ∧ t.entries = s.entries))
      ∧ (e.pod[e.podIdx + 1]? = none → c.k = c.sealVals.k → c.phase = .playing →
        (e.podEnded = false → e.retMode = .cue → e.e = none →
          ∃ t, svcStep s i = some t ∧ t.entry m = some { e with e := some fin, podEnded := true } ∧ (t.sp i).ret = .returning fin
            ∧ (∀ n, n ≠ m → t.entry n = s.entry n) ∧ t = { s with services := t.services, entries := t.entries })
        ∧ (e.podEnded = false → e.retMode ≠ .cue ∨ e.e ≠ none →
          ∃ t, svcStep s i = some t ∧ t.entry m = some { e with podEnded := true }
            ∧ (∀ n, n ≠ m → t.entry n = s.entry n) ∧ t = { s with entries := t.entries })
        ∧ (e.podEnded = true → clipEndStep s i = none)))
    ∧ (∀ r, c.owner = .alert r → p.ret = .idle →
      let a := s.alert r
      (a.loop = true → s.clipDamaged a.clip = false → a.st = .on → p.fixE = false → nearEnd → asks a.clip)
      ∧ (a.loop = false ∨ s.clipDamaged a.clip = true → c.k = c.sealVals.k →
        ∃ t, svcStep s i = some t ∧ (t.sp i).ret = .returning fin ∧ (t.sp i).fixE = p.fixE
          ∧ (∀ x ∈ (t.alert r).targets, x.svc = i → x.e = some fin)
          ∧ t = { s with services := t.services, alerts := t.alerts }))

/-- A packet of the clip that plays whose rebased PTS is at or after E, or any once the return is overdue, stops its component: it
is discarded and the return has begun (R95, R98). While the lane's input is lost the clip plays on (R98; log 49). When every
component is on the network with its marked packet sent and no instance is left, the return ends: the splice record is as after
reset, but for marks still owed, and the entry reaches its result, FAULTED after an emergency return, CANCELLED, or by where E
lies to the end of its last clip, TRUNCATED with TRUNC, COMPLETED, or COMPLETED with FILL (R71, R99, R102). -/
def Obligations.ReturnStopsClipAndEndsEntry : Prop :=
  (∀ (s : State) (i : Nat) (o : Inst) (b : Pkt) (c e : Nat),
    let p := s.sp i
    let pts := (pktPes b).map (fun q => (q.pts + o.delta.getD 0) % nPts)
    let reached := p.retOverdue = true ∨ ∃ y, pts = some y ∧ atOrAfter nPts y e = true
    p.head = none → p.cur = some o → p.nxt = none → p.ret = .returning e → o.packet = some b → o.compOf b = some c →
    o.isStopped c = false →
    (reached → inputThere s i = true →
      ∃ t x, fillHead s i = some t ∧ (t.sp i).head = none ∧ (t.sp i).cur = some x ∧ x.phase = .ending ∧ x.k = o.k + 1
        ∧ (c < o.stopped.length → x.isStopped c = true) ∧ (t.sp i).retBegun = true ∧ (t.sp i).ret = .returning e)
    ∧ (¬reached ∨ inputThere s i = false →
      ∃ t x, fillHead s i = some t ∧ (t.sp i).cur = some x ∧ x.k = o.k + 1 ∧ x.stopped = o.stopped ∧ x.phase = o.phase
        ∧ (t.sp i).retBegun = p.retBegun))
  ∧ (∀ (s : State) (i : Nat) (e : Entry),
    let p := s.sp i
    (∀ o, p.cur = some o → o.owner = .ended ∧ o.allStopped = false ∧ o.spent = false) →
    p.nxt = none → p.waiting = none → p.ret ≠ .idle → p.retBegun = true →
    (∀ x ∈ p.comps, x.replaced = false ∧ x.unsent = false) → activeEntry s i = some e → holdingAlert s i = none →
    Table.wf none s.entries = true → (∀ n x, s.entry n = some x → x.num = n) →
    let ends := fun (r : EntryResult) (raised : Option Cond) =>
      ∃ t, svcStep s i = some t ∧ t.entry e.num = none
        ∧ (t.sp i).ret = .idle ∧ (t.sp i).retBegun = false ∧ (t.sp i).cur = none ∧ (t.sp i).head = none
        ∧ (t.sp i).sigmaP = none ∧ (t.sp i).cutX = none
        ∧ (t.sp i).comps = p.comps.map (fun x => { CompState.reset with mark := x.mark })
        ∧ (∀ x, raised = some x → (t.svc i).cond.flags.getLsbD x.pos = true)
        ∧ ((s.box e.origin).queue.length < 31 →
            Event.entryEnd r e.num i e.podIdx (e.pod.headD 0) e.sEff e.e ∈ (t.box e.origin).queue)
    (p.ret = .emergency → ends .faulted none)
    ∧ (∀ x, p.ret = .returning x → e.cancelled = true → ends .cancelled none)
    ∧ (∀ x y, p.ret = .returning x → e.cancelled = false → e.xEnd = some y →
        (sdiff nPts x y < 0 → ends .truncated (some .trunc))
        ∧ (sdiff nPts x y = 0 → ends .completed none)
        ∧ (0 < sdiff nPts x y → ends .completed (some .fill)))
    ∧ (∀ x, p.ret = .returning x → e.cancelled = false → e.xEnd = none → ends .truncated (some .trunc)))

/-! ### The rows of passing time -/

/-- The trigger of a PENDING TIME entry runs the arming computation once the service time is at or after T − preroll (R53); a row
taken before that moves the local count there (log 2, DESIGN CHOICE). The outcome is R60's: FAULTED when a clip of the pod is
DAMAGED, WAITING(CLOCK) without a lead, MISSED when the lateness exceeds the window, WAITING(HELD) while the service is held at its
level or above, WAITING(POOL) while the pool has no room for the pod's largest rate beside what a lower ARMED entry gives back; else
ARMED with S the later of the trigger time and F, that rate committed, its clip asked for, LATEARM when S is not the trigger time, and
a lower ARMED entry demoted to WAITING(HELD), after which the pool arbiter runs (R56 to R61, R66). -/
def Obligations.TimeTriggerRunsArming : Prop :=
  ∀ (s : State) (n : Fin 256) (e : Entry) (k tt : Nat), s.resetAsserted = false → s.entry n.val = some e → e.num = n.val →
    e.st = .pending → e.trigger = .time tt → s.laneOf e.svc = some k → (s.lane k).mode = .running →
    (s.svc e.svc).clk.st ≠ .unlocked →
    ∃ s' u demoted, exec (.timeTrigger n) s = .next (rest (if demoted then poolFreed u k else u))
      ∧ s' = { s with localCount := s'.localCount }
      ∧ (let fire := subMod nClk tt ((s.lane k).cfg.preroll * 27000)
        if atOrAfter nClk ((s.localCount + (s.svc e.svc).clk.sigma) % nClk) fire = true then s' = s
        else serviceTime s' e.svc = some fire)
      ∧ ArmingOutcome s' n.val k e u demoted

/-- A run of the arming computation on an entry that is not ARMED has the outcome of R60 and R61. When a lane's pool is freed, the
arbiter runs it on the lane's WAITING(POOL) entries, higher level first and then the lower number, each on the state the last run
left, and stops at the first that still waits for pool; after a run that demoted an entry it runs once more (R66). A release
re-evaluates the service's WAITING(HELD) entries, a lead its WAITING(CLOCK) ones, in the same order, the arbiter after a demotion
between them; when an ARMED or ACTIVE entry ends, the arbiter runs first (R67, R72). The bound of 257 runs is log 20's (DESIGN
CHOICE). -/
def Obligations.ReleasesRunWaitingEntries : Prop :=
  (∀ (s : State) (n k : Nat) (e : Entry), s.entry n = some e → e.num = n → e.st ≠ .armed → s.laneOf e.svc = some k →
    ArmingOutcome s n k e (armRun s n).1 (armRun s n).2)
  ∧ ∀ s : State, Table.wf none s.entries = true → (∀ n x, s.entry n = some x → x.num = n) →
    let runs := fun (l : List Nat) => l.foldl (fun t m => (armRun t m).1) s
    let waits := fun (l : List Nat) (m : Nat) => ∃ e, (runs (l ++ [m])).entry m = some e ∧ e.st = .waiting .pool
    let demotes := fun (l : List Nat) => ∃ h m q, l = h ++ m :: q ∧ (armRun (runs h) m).2 = true
    (∀ k, poolFreed s k = arbiterLoop 257 s k)
    ∧ (∀ k f ns, s.inOrder (fun e => s.laneOf e.svc = some k ∧ e.st = .waiting .pool) ns →
      (ns = [] → arbiterLoop (f + 1) s k = s)
      ∧ ∀ l n r, ns = l ++ n :: r → (∀ h m q, l = h ++ m :: q → ¬waits h m) → (waits l n ∨ r = []) →
        (¬demotes (l ++ [n]) → arbiterLoop (f + 1) s k = runs (l ++ [n]))
        ∧ (demotes (l ++ [n]) → arbiterLoop (f + 1) s k = arbiterLoop f (runs (l ++ [n])) k))
    ∧ (∀ i k c ns, s.laneOf i = some k → s.inOrder (fun e => e.svc = i ∧ e.st = .waiting c) ns →
      reeval s i c = ns.foldl (fun t m => if inState t m (.waiting c) then
        (if (armRun t m).2 then poolFreed (armRun t m).1 k else (armRun t m).1) else t) s)
    ∧ (∀ i k, s.laneOf i = some k → afterEnd s i = reeval (poolFreed s k) i .held)

/-- A cut search from the network that reaches its deadline, on the service time or on its seek timer, becomes overdue (R81), and
so does a return toward E, or an emergency return on its timer, which then raises FORCED once (R98, R102). A row taken before its
moment moves the local count there (log 2, DESIGN CHOICE), and a search or a return found overdue stays so (log 25, DEDUCED). A packet of
a component finds a search overdue that is past its deadline or timer on the state before the packet's own observations (R81, R82, R83;
log 25, DEDUCED).
The forced cut and the forced resume are what the next packet brings: NetworkPacketCutsToClip and ReplacedComponentResumes. -/
def Obligations.SearchesAndReturnsBecomeOverdue : Prop :=
  (∀ (s : State) (i : Fin 48) (x : Inst), s.resetAsserted = false → (s.sp i.val).nxt = some x → x.phase = .seeking →
     x.overdue = false → (s.sp i.val).cutX = none → (s.sp i.val).cutTimer = none → (s.sp i.val).ret = .idle →
     (∀ p, x.s = some p → (s.svc i.val).clk.st ≠ .unlocked → (lead s i.val).isSome = true →
       ∃ u e, exec (.searchOverdue i) s = .next (rest u)
         ∧ (u.sp i.val).nxt = some { x with overdue := true }
         ∧ estimate u i.val = some e ∧ atOrAfter nPts e ((p + x.seekLimit * 90) % nPts) = true
         ∧ u = { s with localCount := u.localCount, services := u.services })
     ∧ (∀ l0, x.seekTimer = some l0 → x.seekLimit ≤ 2000 → 0 ≤ sdiff nClk s.localCount l0 →
         sdiff nClk s.localCount l0 ≤ (x.seekLimit * 27000 : Nat) →
       ∃ u, exec (.seekTimerExpiry i) s = .next (rest u)
         ∧ (u.sp i.val).nxt = some { x with overdue := true }
         ∧ sdiff nClk u.localCount l0 = (x.seekLimit * 27000 : Nat)
         ∧ u = { s with localCount := u.localCount, services := u.services }))
  ∧ (∀ (s : State) (i : Fin 48), s.resetAsserted = false → (s.sp i.val).retOverdue = false →
    (∀ p, (s.sp i.val).ret = .returning p → (s.svc i.val).clk.st ≠ .unlocked → (lead s i.val).isSome = true →
      ∃ u e, exec (.returnOverdue i) s = .next (rest u)
        ∧ (u.sp i.val).retOverdue = true ∧ (u.sp i.val).ret = .returning p
        ∧ estimate u i.val = some e ∧ atOrAfter nPts e ((p + (s.sp i.val).retSeek * 90) % nPts) = true
        ∧ ((s.sp i.val).retForced = false → (u.svc i.val).cond.flags.getLsbD Cond.forced.pos = true)
        ∧ u = { s with localCount := u.localCount, services := u.services, boxes := u.boxes })
    ∧ (∀ l0, (s.sp i.val).ret = .emergency → (s.sp i.val).retTimer = some l0 → (s.sp i.val).nxt = none →
      (s.sp i.val).cutX = none → (s.sp i.val).cutTimer = none → (s.sp i.val).retSeek ≤ 2000 →
      0 ≤ sdiff nClk s.localCount l0 → sdiff nClk s.localCount l0 ≤ ((s.sp i.val).retSeek * 27000 : Nat) →
      ∃ u, exec (.seekTimerExpiry i) s = .next (rest u)
        ∧ (u.sp i.val).retOverdue = true ∧ (u.sp i.val).ret = .emergency
        ∧ sdiff nClk u.localCount l0 = ((s.sp i.val).retSeek * 27000 : Nat)
        ∧ ((s.sp i.val).retForced = false → (u.svc i.val).cond.flags.getLsbD Cond.forced.pos = true)
        ∧ u = { s with localCount := u.localCount, services := u.services, boxes := u.boxes }))
  ∧ (∀ (s : State) (k : Fin 4) (i j : Nat) (b : Pkt), s.arrives k i j b →
    ∃ w, s.observed k i j b = (if excluded b then w else syncTimers (observeComp w i j b) i)
      ∧ w = { s with lanes := w.lanes, services := w.services, boxes := w.boxes }
      ∧ (∀ l, w.svc l = { s.svc l with sp := (w.svc l).sp }) ∧ (∀ l, l ≠ i → w.svc l = s.svc l)
      ∧ (∀ x, (s.sp i).nxt = some x → x.phase = .seeking →
        let late := (match x.s with | some y => pastDeadline s i y x.seekLimit | none => false)
        (w.sp i).nxt = some { x with overdue := x.overdue || late || timerDone s x.seekTimer x.seekLimit })
      ∧ (∀ y, (s.sp i).cutX = some y → (w.sp i).cutOverdue = ((s.sp i).cutOverdue || ((s.sp i).comps.any (·.search)
          && (pastDeadline s i y (s.sp i).cutSeek || timerDone s (s.sp i).cutTimer (s.sp i).cutSeek)))))

/-- An ON record enters ENDING when its remaining time runs out, EXPIRED, or by Alert Cancel, CANCELLED (R179). Its claims are dropped.
A HELD target that has not cut is RELEASED, its level-3 instance discarded, and the service's WAITING(HELD) entries are re-evaluated;
an ACTIVE entry plays on. A HELD target that has cut is handed the estimate as E, or the next lead PES start when the estimate is
absent; a return already handed takes an earlier estimate unless it has begun; an emergency return goes on (R180). A record that holds
no service after this returns to IDLE with ALERT_END at AP (R171). A row taken early moves the local count (log 2, DESIGN CHOICE). Alert
Cancel is refused BADPARAM and NOTFOUND; on an ENDING record it only reports. Its reply carries the record number, the state before, the
remaining time and the size of the held set (R179). The model's choices: the set is counted before the releases (log 63, DESIGN CHOICE),
the targets are treated in list order with the claims dropped first (log 64, DESIGN CHOICE), the reply's sizes (log 10, DEDUCED). -/
def Obligations.AlertRecordEndsByExpiryOrCancel : Prop :=
  let counts := fun (a : AlertRec) (f : Target → Bool) => (a.targets.filter f).length
  let leaves := fun (t : Target) => t.status = .held ∧ t.cut = false
  let stays := fun (t : Target) => t.status = .held ∧ t.cut = true
  let ends := fun (w : State) (r : Nat) (cause : EndCause) (rem : Nat) (u : State) =>
    let a := w.alert r
    let event := Event.alertEnd cause r a.id (counts a (fun t => t.status == .held || t.status == .released))
      (counts a (fun t => t.byEmergency && t.status != .held))
    ((∀ t ∈ a.targets, t.status ≠ .held) → u.alert r = AlertRec.idle ∧ u.box .ap = pushBox (w.box .ap) event
      ∧ u = { w with alerts := u.alerts, dir := u.dir, boxes := u.boxes })
    ∧ (∀ t, a.targets = [t] → stays t → (w.sp t.svc).ret = .idle → (w.sp t.svc).retBegun = false →
        (w.svc t.svc).clk.st ≠ .unlocked → (lead w t.svc).isSome = true →
        (u.alert r).st = .ending ∧ (u.alert r).cause = cause
        ∧ (∃ e, estimate u t.svc = some e ∧ (u.sp t.svc).ret = .returning e)
        ∧ u = { w with alerts := u.alerts, services := u.services })
    ∧ (∀ t, a.targets = [t] → leaves t →
        (∀ q, q < 4 → q ≠ r → (w.alert q).st ≠ .on ∨ ∀ x ∈ (w.alert q).targets, x.svc = t.svc → x.status ≠ .deferred) →
        ∃ v, u.entries = (reeval v t.svc .held).entries ∧ v.alert r = { a with
            st := .ending, cause := cause, timer := none, remTicks := rem
            targets := [{ t with status := .released, byEmergency := false }] }
          ∧ (∀ q, q ≠ r → v.alert q = w.alert q) ∧ (∀ l, l ≠ t.svc → v.svc l = w.svc l)
          ∧ v = { w with alerts := v.alerts, services := v.services, flash := v.flash })
    ∧ ((a.targets.map (·.svc)).Nodup → Table.wf none w.entries = true → (∀ n x, w.entry n = some x → x.num = n) →
      u = { w with alerts := u.alerts, dir := u.dir, entries := u.entries, services := u.services, boxes := u.boxes
                   flash := u.flash }
      ∧ (∀ n e, w.entry n = some e → e.st = .active → u.entry n = some e)
      ∧ ((∀ t ∈ a.targets, ¬stays t) → u.alert r = AlertRec.idle
          ∧ (event ∈ (u.box .ap).queue ∨ (u.box .ap).lostEvents = true))
      ∧ ((∃ t ∈ a.targets, stays t) → (u.alert r).st = .ending ∧ (u.alert r).cause = cause ∧ (u.alert r).timer = none
          ∧ (u.alert r).remTicks = rem ∧ (u.alert r).id = a.id ∧ (u.alert r).clip = a.clip
          ∧ (u.alert r).targets.map (fun t => (t.svc, t.status, t.cut)) = a.targets.map (fun t => (t.svc,
              if t.status = .deferred then .otherAlert else if t.status = .held ∧ t.cut = false then .released else t.status,
              t.cut)))
      ∧ (∀ t ∈ a.targets, leaves t →
          (∀ x, (u.sp t.svc).nxt = some x → x.phase = .seeking → x.owner ≠ .alert r)
          ∧ (∀ x, (u.sp t.svc).waiting = some x → x.owner ≠ .alert r))
      ∧ (∀ t ∈ a.targets, stays t → let p := w.sp t.svc
          (∀ e, p.ret = .idle → p.retBegun = false → estimate w t.svc = some e → (u.sp t.svc).ret = .returning e
            ∧ ∃ y, (u.alert r).target t.svc = some y ∧ y.e = some e)
          ∧ (p.ret = .idle → estimate w t.svc = none → (u.sp t.svc).ret = .idle ∧ (u.sp t.svc).fixE = true)
          ∧ (∀ x e, p.ret = .returning x → p.retBegun = false → estimate w t.svc = some e → atOrAfter nPts e x = false →
              (u.sp t.svc).ret = .returning e ∧ ∃ y, (u.alert r).target t.svc = some y ∧ y.e = some e)
          ∧ ((∃ x, p.ret = .returning x ∧ (p.retBegun = true ∨ ∀ e, estimate w t.svc = some e → atOrAfter nPts e x = true))
              ∨ p.ret = .emergency → u.sp t.svc = p)))
  (∀ (s : State) (r : Fin 4) (l0 : Nat), s.resetAsserted = false → (s.alert r.val).st = .on → (s.alert r.val).timer = some l0 →
    ∃ w u, exec (.alertExpiry r) s = .next (rest u) ∧ w = { s with localCount := w.localCount }
      ∧ atOrAfter nClk w.localCount ((l0 + (s.alert r.val).remTicks) % nClk) = true ∧ ends w r.val .expired 0 u)
  ∧ (∀ (s : State) (id res : Nat), s.takes .ap →
    let answers := fun (st : Status) => ∃ t, exec (.alertCancel .ap id res) s = .next t ∧ s.onlyAnswers t .ap 0x42#8 st []
    (id = 0 ∨ res ≠ 0 → answers .badparam)
    ∧ (id ≠ 0 → res = 0 → (∀ q, q < 4 → (s.alert q).st = .idle ∨ (s.alert q).id ≠ id) → answers .notfound))
  ∧ (∀ (s : State) (r : Nat), s.takes .ap → r < 4 → (s.alert r).id ≠ 0 →
    (∀ q, q < 4 → q ≠ r → (s.alert q).st = .idle ∨ (s.alert q).id ≠ (s.alert r).id) →
    let a := s.alert r
    let reply := fun (state rem : Nat) => [byte1 r, byte1 state] ++ leBytes 4 (rem / 27000)
      ++ leBytes 2 (counts a (fun t => t.status == .held))
    (∀ l0, a.st = .on → a.timer = some l0 → let rem := a.remTicks - (sdiff nClk s.localCount l0).toNat
      ∃ w u, exec (.alertCancel .ap a.id 0) s = .next (answer (rest u) .ap .ok (reply 1 rem))
        ∧ w = { s with links := w.links } ∧ ends w r .cancelled rem u)
    ∧ (a.st = .ending → a.timer = none → ∃ t, exec (.alertCancel .ap a.id 0) s = .next t
        ∧ s.onlyAnswers t .ap 0x42#8 .ok (reply 2 a.remTicks)))

/-! ### The flash channel -/

/-- The scan's read of page 0 of a block notes the block as R132 classifies it and goes on to the next block; block 0 is read as
the protection record (R117, R130, R131). The read of block 4095 completes the scan as one act: the directory settled from the
notes, every block in one list, the dirty lists ascending, the index of a noted block 64, the bad set, the protection copy, and
SCAN_DONE at all ports (R133, R134, R135). A read that ends by its time limit, and block 0 read as uncorrectable, are log 13's. -/
def Obligations.ScanReadClassifiesBlock : Prop :=
  ∀ (s : State) (o : FlashOp) (d : ReadOutcome) (m : Byte), s.flash.op = some o → o.kind = .read → o.req = .scan →
    o.orphan = false →
    let f := s.flash
    (∀ x, o.block = 0 → d = .good x → ∃ c : ProtCopy,
      exec (.pageReadComplete d m) s = .next (rest { s with flash := { f with
        op := none, scanProt := c, scanMark0 := m != 0xFF#8, scanNext := 1 } })
      ∧ (c.ingestLock = true ↔ 256 < zeroBits (slice x 0 64)) ∧ (c.eraseLock = true ↔ 256 < zeroBits (slice x 64 64))
      ∧ c.count = ((List.range 4).filter (fun j => decide (256 < zeroBits (slice x (128 + 64 * j) 64)))).length)
    ∧ (o.block = 0 → d = .erased → exec (.pageReadComplete d m) s = .next (rest { s with flash := { f with
        op := none, scanProt := ⟨false, false, 0⟩, scanMark0 := m != 0xFF#8, scanNext := 1 } }))
    ∧ (o.block ≠ 0 → ∃ (c : Option ScanClass) (u : State), exec (.pageReadComplete d m) s = .next (rest u)
      ∧ (m ≠ 0xFF#8 → c = some .bad)
      ∧ (m = 0xFF#8 → judge d = .erased → c = none)
      ∧ (m = 0xFF#8 → judge d = .uncorrectable → c = some .dirty)
      ∧ (∀ x, m = 0xFF#8 → judge d = .good x →
          let kind := leField x 8084 1
          let clip := leField x 8085 2
          let idx := leField x 8087 1
          let sound := (kind = 1 ∧ idx = 0 ∨ kind = 2 ∧ 1 ≤ idx ∧ idx ≤ 118) ∧ 1 ≤ clip ∧ clip ≤ 65534 ∧ leField x 8088 1 = 0
          (¬sound → c = some .dirty)
          ∧ (sound → kind = 1 → c = some (.head clip (readSeal x) (damagePresent x)))
          ∧ (sound → kind = 2 → c = some (.member clip idx)))
      ∧ (o.block < 4095 → u = { s with flash := { f with
          op := none, scanNext := o.block + 1, scanNotes := f.scanNotes ++ c.toList.map (fun x => (o.block, x)) } })
      ∧ (o.block = 4095 →
        let notes := f.scanNotes ++ c.toList.map (fun x => (o.block, x))
        let N := notes.map (·.1)
        let heads := notes.filter (fun x => match x.2 with | .head _ (some _) _ => true | _ => false)
        let listed := u.flash.freeA ++ u.flash.freeM ++ u.flash.dirtyA.map (·.block) ++ u.flash.dirtyM.map (·.block)
          ++ u.flash.bad ++ u.directory.flatMap (·.chain)
        u = { s with part := .running, dir := u.dir, flash := u.flash, boxes := u.boxes }
        ∧ u.flash.freeA = (List.range' 1 255).filter (fun b => !N.contains b)
        ∧ u.flash.freeM = (List.range' 256 3840).filter (fun b => !N.contains b)
        ∧ u.flash.bad = (notes.filter (fun x => x.2 == .bad)).map (·.1)
        ∧ u.flash.prot = f.scanProt ∧ u.flash.unusable = f.scanMark0
        ∧ (∀ b, u.flash.index b = if b ∈ N then 64 else 0)
        ∧ (∀ r, ((u.flash.dirty r).map (·.block)).Pairwise (· < ·)
            ∧ ∀ x ∈ u.flash.dirty r, x.job = none ∧ blockRegion x.block = r)
        ∧ (∀ p, u.box p = pushBox (s.box p) (.scanDone u.directory.length (u.flash.dirtyA.length + u.flash.dirtyM.length)
            u.flash.bad.length))
        ∧ (∀ k r, u.clip k = some r → ∃ b v dmg, (b, ScanClass.head k (some v) dmg) ∈ notes
            ∧ r.clip = k ∧ r.region = blockRegion b ∧ r.sealVals = some v ∧ r.refs = 0
            ∧ r.st = (if dmg then .damaged else .good) ∧ r.marker = (if dmg then .written else .none)
            ∧ r.chain.head? = some b ∧ (1 ≤ v.blocks → r.chain.length = v.blocks)
            ∧ (∀ j x, 1 ≤ j → r.chain[j]? = some x → (x, ScanClass.member k j) ∈ notes ∧ blockRegion x = blockRegion b))
        ∧ (∀ k b v dmg, heads.length ≤ 512 → heads.filter (fun x => x.2.clip? == some k) = [(b, .head k (some v) dmg)] →
            (∀ x ∈ notes, x.2.clip? = some k → ∀ y, x.2 ≠ .head k none y) →
            (∀ j, 1 ≤ j → j < v.blocks →
              (notes.filter (fun x => x.2 == .member k j && blockRegion x.1 == blockRegion b)).length = 1) →
            (u.clip k).isSome = true)
        ∧ (N.Nodup → (∀ b ∈ N, 1 ≤ b ∧ b ≤ 4095) → (∀ x ∈ notes, ∀ k, x.2 ≠ .member k 0) →
            listed.Perm (List.range' 1 4095))))

/-- A page read ends for its requester. GOOD data whose trailer names the page are used; every other outcome is an uncorrectable page
(R140). For the read-ahead of either role, the page joins the instance's pages and the fetch goes on (R148). For a preload slot it
joins the slot's pages, and with the last of min(16, pages of the clip) the slot is READY and PRELOAD_DONE goes to AP (R173). For a
checksum the bytes of its packets join the sum, and the clip's last page ends it with CHECKSUM_DONE at the port, its reference
released (R167). An uncorrectable page marks a SEALED clip DAMAGED, with its damage marker at the queue's tail, and ends FAULTED the
ARMED entry whose first clip it is (R102, R129). Of the reader besides: a service raises LOST, and the insertion it carries returns
by emergency, an ARMED entry ends FAULTED, a level-3 target not yet cut is RELEASED (R102, R151, R181); the slot is emptied with
PRELOAD_DONE FAILED (R173); the checksum ends UNREADABLE with the page (R167). A read whose requester has gone places nothing, and
still marks its clip (R152). After a read of a preload slot or of a checksum the arbiter tests before its next read is placed, as
ArbiterGrantsAndReadAheadChooses says. The order of the mark and the reader's part is log 23 (DEDUCED); that of several entries ended by one
mark is log 59's and left out. A free field's selector is log 11's. -/
def Obligations.PageReadEndsForItsRequester : Prop :=
  ∀ (s : State) (o : FlashOp) (d : ReadOutcome) (m : Byte), s.flash.op = some o → o.kind = .read →
    let idle := { s with flash := { s.flash with op := none } }
    let names := fun (chain : List Nat) (x : List Byte) =>
      judge d = .good x ∧ trailerMatches x o.clip (chain.idxOf o.block) o.page = true
    let lost := fun (chain : List Nat) => ∀ x, ¬names chain x
    let pagesIn := fun (v : Seal) => (v.k + 42) / 43
    let packets := fun (v : Seal) (no : Nat) (x : List Byte) => pagePackets x (min 43 (v.k - 43 * no))
    let marked := fun (r : ClipRec) => if r.st = .good then { r with st := .damaged, marker := .queued } else r
    let queue := fun (r : ClipRec) => s.flash.markerQ
      ++ (if r.st = .good then [{ damage := true, block := r.chain.headD 0, clip := o.clip }] else [])
    let released := fun (u : State) (r : ClipRec) =>
      ∀ c, u.clip c = if c = o.clip then some { marked r with refs := r.refs - 1 } else s.clip c
    let starts := fun (e : Entry) => e.st = .armed ∧ e.pod.head? = some o.clip
    (∀ i role n x, o.req = .readAhead i role → o.orphan = false → (s.sp i).inst role = some n → names n.chain x →
      ∃ u, exec (.pageReadComplete d m) s = .next (rest u) ∧ u = { idle with services := u.services }
        ∧ (∀ j, j ≠ i → u.svc j = s.svc j)
        ∧ (u.sp i).inst role = some { n with fetch := n.fetch + 1
                                             pages := n.pages ++ [{ no := n.fetch, pkts := packets n.sealVals n.fetch x }] }
        ∧ (∀ q, q ≠ role → (u.sp i).inst q = (s.sp i).inst q))
    ∧ (∀ i role n r, o.req = .readAhead i role → o.orphan = false → (s.sp i).inst role = some n → lost n.chain →
      s.clip o.clip = some r → Table.wf none s.entries = true → (∀ k x, s.entry k = some x → x.num = k) →
      let alone := r.st ≠ .good ∨ ∀ e ∈ s.schedule, ¬starts e
      ∃ u, exec (.pageReadComplete d m) s = .next (rest u)
        ∧ u = { s with dir := u.dir, entries := u.entries, services := u.services, alerts := u.alerts, boxes := u.boxes
                       flash := u.flash }
        ∧ (u.svc i).cond.flags.getLsbD Cond.lost.pos = true ∧ u.flash.markerQ = queue r
        ∧ (∃ y, u.clip o.clip = some y ∧ y.st = (marked r).st ∧ y.marker = (marked r).marker ∧ y.chain = r.chain)
        ∧ (∀ k e, r.st = .good → s.entry k = some e → starts e → (∀ l x, l ≠ k → s.entry l = some x → ¬starts x) →
            u.entry k = none
            ∧ ((s.box e.origin).queue.length < 30 →
                Event.entryEnd .faulted k e.svc e.podIdx (e.pod.headD 0) e.sEff e.e ∈ (u.box e.origin).queue))
        ∧ (alone → (∃ e, n.owner = .entry e.num ∧ activeEntry s i = some e ∧ holdingAlert s i = none)
            ∨ (∃ a t, n.owner = .alert a ∧ holdingAlert s i = some a ∧ (s.alert a).target i = some t ∧ t.cut = true) →
          (u.sp i).ret = .emergency ∧ (u.sp i).retBegun = true ∧ (u.sp i).retTimer = some s.localCount ∧ (u.sp i).cur = none
          ∧ (u.sp i).head = none ∧ (∀ x, (u.sp i).nxt = some x → x.phase = .seeking ∧ x.owner ≠ n.owner))
        ∧ (∀ e, r.st ≠ .good → n.owner = .entry e.num → s.entry e.num = some e → e.st = .armed → u.entry e.num = none)
        ∧ (∀ a t, alone → n.owner = .alert a → holdingAlert s i = some a → (s.alert a).target i = some t → t.cut = false →
            (u.alert a).st = .idle ∨ ∀ y ∈ (u.alert a).targets, y.svc = i → y.status = .released))
    ∧ (∀ r, o.orphan = true → s.clip o.clip = some r →
      (∀ x, names r.chain x → exec (.pageReadComplete d m) s = .next (restAfter o idle))
      ∧ (lost r.chain → r.st ≠ .good → exec (.pageReadComplete d m) s = .next (restAfter o idle))
      ∧ (lost r.chain → r.st = .good → ∃ u, exec (.pageReadComplete d m) s = .next (restAfter o u) ∧ u.flash.markerQ = queue r
          ∧ (∃ y, u.clip o.clip = some y ∧ y.st = .damaged ∧ y.marker = .queued)
          ∧ ((∀ e ∈ s.schedule, ¬starts e) → u = { idle with dir := u.dir, flash := u.flash }
              ∧ u.flash = { idle.flash with markerQ := queue r })))
    ∧ (o.orphan = true → s.clip o.clip = none → exec (.pageReadComplete d m) s = .next (restAfter o idle))
    ∧ (∀ j r v, o.req = .preload j → o.orphan = false → (s.preload j).st = .filling → (s.preload j).clip = o.clip →
      s.clip o.clip = some r → r.sealVals = some v →
      let q := s.preload j
      let no := q.pages.length
      (∀ x, names r.chain x →
        let pages := q.pages ++ [{ no := no, pkts := packets v no x }]
        let full := no + 1 = min 16 (pagesIn v)
        ∃ u, exec (.pageReadComplete d m) s = .next (restAfter o u)
          ∧ u = { idle with preloads := u.preloads, boxes := u.boxes, freeCtr := u.freeCtr }
          ∧ (∀ l, l ≠ j → u.preload l = s.preload l)
          ∧ (¬full → u.preload j = { q with pages := pages } ∧ u.boxes = s.boxes ∧ u.freeCtr = s.freeCtr)
          ∧ (full → u.preload j = { st := .ready, clip := o.clip, pages := pages }
              ∧ ∀ p, u.box p = if p = .ap then pushBox (s.box p) (.preloadReady j o.clip s.freeCtr) else s.box p))
      ∧ (lost r.chain → (∀ e ∈ s.schedule, ¬starts e) →
        ∃ u, exec (.pageReadComplete d m) s = .next (restAfter o u)
          ∧ u = { idle with preloads := u.preloads, dir := u.dir, boxes := u.boxes, flash := u.flash }
          ∧ u.flash = { idle.flash with markerQ := queue r } ∧ released u r
          ∧ (∀ l, u.preload l = if l = j then Preload.empty else s.preload l)
          ∧ ∀ p, u.box p = if p = .ap then pushBox (s.box p) (.preloadFailed j o.clip no) else s.box p))
    ∧ (∀ p c r v, o.req = .checksum p → o.orphan = false → s.check p = some c → c.clip = o.clip → s.clip o.clip = some r →
      r.sealVals = some v →
      let ends := fun (u : State) (computed page : Option Nat) => u.check p = none
        ∧ (∀ q, u.box q = if q = p then
            pushBox (s.box q) (.checksumDone o.clip v.checksum computed page s.freeCtr) else s.box q)
      (∀ x, names r.chain x →
        let sum := (c.sum + byteSum (x.take (188 * min 43 (v.k - 43 * c.page)))) % 65536
        ∃ u, exec (.pageReadComplete d m) s = .next (restAfter o u)
          ∧ u = { idle with checks := u.checks, dir := u.dir, boxes := u.boxes, freeCtr := u.freeCtr }
          ∧ (∀ q, q ≠ p → u.check q = s.check q)
          ∧ (c.page + 1 ≠ pagesIn v → u.check p = some { clip := o.clip, page := c.page + 1, sum := sum } ∧ u.dir = s.dir
              ∧ u.boxes = s.boxes ∧ u.freeCtr = s.freeCtr)
          ∧ (c.page + 1 = pagesIn v → ends u (some ((65536 - sum) % 65536)) none
              ∧ ∀ y, u.clip y = if y = o.clip then some { r with refs := r.refs - 1 } else s.clip y))
      ∧ (lost r.chain → (∀ e ∈ s.schedule, ¬starts e) →
        ∃ u, exec (.pageReadComplete d m) s = .next (restAfter o u)
          ∧ u = { idle with checks := u.checks, dir := u.dir, boxes := u.boxes, flash := u.flash, freeCtr := u.freeCtr }
          ∧ u.flash = { idle.flash with markerQ := queue r } ∧ released u r ∧ ends u none (some c.page)
          ∧ (∀ q, q ≠ p → u.check q = s.check q)))

/-- The arbiter grants when the channel is idle: of the standing requests, each of its requester's class and place in the ring, it
takes the lowest class that holds a grantable one, and of that class the first in the ring after the position of the last grant
(R137, R138). A program or an erase is grantable only in supply state NORMAL, a program while no service is short and an erase while
every counted service is ample (R139, R146). A program whose condition fails at the grant does not reach the array, and the arbiter
looks again; any other operation is in flight (R119, R141). A read-ahead that holds no request chooses its service's next page: the
current instance's up to four, or beyond while the next wants none, and else the next's up to four, in eight slots; a level-3
instance's page below 16 is copied from the lowest preload slot that holds it (R147, R150); a request that stands is not chosen again
when a next instance comes to want pages (log 74, DESIGN CHOICE). At the completion of a read of a checksum
or of a preload slot the arbiter tests before the requester's next read is placed, and again with it (R137, R138); that no other
requester's next request waits for that test is log 60 (DESIGN CHOICE). That the set is computed from its
requesters is log 28 (DEDUCED), and that the choice is the last of the engine's acts log 55 (DESIGN CHOICE), the
bound 4,096 log 20 (DESIGN CHOICE). -/
def Obligations.ArbiterGrantsAndReadAheadChooses : Prop :=
  (∀ s : State,
    let pos := fun (cls : Nat) => Table.get 0 s.flash.rr cls
    let short := ∃ i ∈ s.listed, (s.sp i).counted = true ∧ (s.sp i).fill < 3 ∧ choosePage (s.sp i) ≠ none
    let ample := ∀ i ∈ s.listed, (s.sp i).counted = true → 5 ≤ (s.sp i).fill ∨ choosePage (s.sp i) = none
    let can := fun (cls : Nat) (k : OpKind) =>
      (cls = 2 → s.flash.supply = .normal ∧ ¬short ∧ ∀ i e, k = .program (.protection i e) → s.flash.release = none)
      ∧ (cls = 4 → s.flash.supply = .normal ∧ ample)
    let before := fun (x a b : Nat) => x ≤ a ∧ b < x ∨ (x ≤ a ↔ x ≤ b) ∧ a < b
    let stands := fun (skip : Option Nat) (j cls : Nat) (o : FlashOp) =>
      j < 64 ∧ skip ≠ some j ∧ requestAt s j = some (cls, o)
    let granted := fun (u : State) (cls j : Nat) (o : FlashOp) =>
      (∀ c, Table.get 0 u.flash.rr c = if c = cls then j + 1 else pos c)
      ∧ (∀ i r, o.req = .readAhead i r → (u.sp i).raReq = none)
      ∧ (o.req = .marker → u.flash.markerQ = s.flash.markerQ.tail) ∧ (o.req = .protection → u.flash.protReq = none)
    (∀ j cls o, j < 64 → requestAt s j = some (cls, o) → o.started = s.localCount
      ∧ (j < 48 → ∃ r n, (s.sp j).inst r = some n ∧ o.req = .readAhead j r ∧ o.kind = .read
          ∧ ((∃ a, n.owner = .alert a) → cls = 0)
          ∧ ((∀ a, n.owner ≠ .alert a) → cls = if (s.sp j).fill < 3 then 1 else 3))
      ∧ (48 ≤ j → j < 52 → o.req = .preload (j - 48) ∧ o.kind = .read ∧ cls = 0)
      ∧ (52 ≤ j → j < 55 → o.req = .ingest (if j = 52 then .tp else if j = 53 then .pp else .ap) ∧ cls = 2)
      ∧ (j = 55 → o.req = .marker ∧ cls = 2) ∧ (j = 56 → o.req = .protection ∧ cls = 2)
      ∧ (57 ≤ j → j < 60 → o.req = .checksum (if j = 57 then .tp else if j = 58 then .pp else .ap) ∧ cls = 3)
      ∧ (j = 60 → o.req = .scan ∧ cls = 3)
      ∧ (j = 61 → o.req = .eraser .alert ∧ cls = 4 ∧ s.flash.prot.eraseLock = false) ∧ (j = 62 → o.req = .eraser .main ∧ cls = 4)
      ∧ (j = 63 → o.req = .releaseEraser ∧ cls = 4))
    ∧ (∀ skip o, s.flash.op = some o → arbLoop skip 4096 s = s)
    ∧ (∀ skip, s.flash.op = none → (∀ j cls o, stands skip j cls o → ¬can cls o.kind) → arbLoop skip 4096 s = s)
    ∧ (∀ skip j cls o, s.flash.op = none → stands skip j cls o → can cls o.kind →
      (∀ j' cls' o', j' ≠ j → stands skip j' cls' o' → can cls' o'.kind → cls < cls' ∨ cls = cls' ∧ before (pos cls) j j') →
      let allowed := (∀ ci first pkts, o.kind = .program (.data ci first pkts) → s.flash.index o.block = o.page ∧ o.page < 64)
        ∧ (∀ v, o.kind = .program (.sealing v) → 0 < s.flash.index o.block ∧ (s.flash.marks o.block).sealing = false)
        ∧ (o.kind = .program .damage → (∃ r, s.clip o.clip = some r ∧ r.st ≠ .ingesting) ∧ (s.flash.marks o.block).damage = false)
        ∧ (o.kind = .program .badBlock → o.block ≠ 0 ∧ o.block ∈ s.flash.bad ∧ (s.flash.marks o.block).badBlock = false)
        ∧ (∀ i e, o.kind = .program (.protection i e) → s.flash.prot.count < 4)
      (allowed → ∃ t, arbLoop skip 4096 s = t ∧ t = { s with services := t.services, flash := t.flash } ∧ t.flash.op = some o
        ∧ granted t cls j o)
      ∧ (¬allowed → ∃ u, arbLoop skip 4096 s = arbLoop skip 4095 (settle u) ∧ u.flash.op = none ∧ u.flash.nextPage = s.flash.nextPage
        ∧ u.flash.made = s.flash.made ∧ granted u cls j o)))
  ∧ (∀ (s : State) (o : FlashOp),
    let next := fun (j : Nat) => restAfter o s = arbLoop none 4096 (arbLoop (some j) 4096 (settle s))
    rest s = arbLoop none 4096 (settle s)
    ∧ (o.req = .checksum .tp → next 57) ∧ (o.req = .checksum .pp → next 58) ∧ (o.req = .checksum .ap → next 59)
    ∧ (∀ j, o.req = .preload j → next (48 + j))
    ∧ ((∀ p, o.req ≠ .checksum p) → (∀ j, o.req ≠ .preload j) → restAfter o s = rest s))
  ∧ (∀ (s : State) (i : Nat),
    let p := s.sp i
    let held := (match p.cur with | some n => n.pages.length | none => 0) + (match p.nxt with | some n => n.pages.length | none => 0)
    let left := fun (n : Inst) => n.fetch < (n.sealVals.k + 42) / 43
    let wants := fun (n : Inst) => left n ∧ n.pages.length < 4
    let forCurrent := ∃ n, p.cur = some n ∧ left n ∧ (n.pages.length < 4 ∨ ∀ x, p.nxt = some x → ¬wants x)
    let busy := p.raReq.isSome = true ∨ ∃ o r, s.flash.op = some o ∧ o.req = .readAhead i r
    serveWaiting s i = none → clipEndStep s i = none → lateExhaust s i = none → finishOrPromote s i = none →
    returnDone s i = false → fillHead s i = none →
    (busy ∨ 8 ≤ held ∨ ¬forCurrent ∧ (∀ n, p.nxt = some n → ¬wants n) → svcStep s i = none)
    ∧ (∀ r n, ¬busy → held < 8 → p.inst r = some n → (r = .current → forCurrent) → (r = .next → ¬forCurrent ∧ wants n) →
      let slot := fun (j : Nat) => (s.preload j).st ≠ .empty ∧ (s.preload j).clip = n.clip
      let page := fun (j : Nat) => (s.preload j).pages.find? (fun g => g.no == n.fetch)
      let copies := (∃ a, n.owner = .alert a) ∧ n.fetch < 16
      (∀ j g, copies → j < 4 → slot j → page j = some g → (∀ m, m < j → slot m → page m = none) →
        ∃ t, svcStep s i = some t ∧ t = { s with services := t.services } ∧ (∀ l, l ≠ i → t.svc l = s.svc l)
          ∧ t.sp i = p.setInst r (some { n with pages := n.pages ++ [g], fetch := n.fetch + 1 }))
      ∧ (¬copies ∨ (∀ j, j < 4 → slot j → page j = none) →
        ∃ t, svcStep s i = some t ∧ t = { s with services := t.services } ∧ (∀ l, l ≠ i → t.svc l = s.svc l)
          ∧ t.sp i = { p with raReq := some { role := r, page := n.fetch } })))

/-- A program that ends acts for its requester (R141). Data: the index of its block rises, the unit's page is programmed and its
buffer EMPTY, and a FULL one behind it is WRITING (R118, R157). Seal: the record is SEALED with the seal values, keeps the chain's
first blocks, the others return to the free list, and INGEST_DONE goes to the unit's port (R160). Either failed: the block is bad with
its marker program queued, the others dirty, the record gone, and INGEST_DONE(FAULT); a held Ingest Data is answered FAULT (R156,
R163). A data program that passes lets a held Ingest Data be tried again: taken and answered OK once its packets fit the free positions
(R156, R157). The program of an aborted ingest ends it: the held Ingest Abort is answered OK, with no event (R161). Damage marker: WRITTEN or FAILED in the record (R129). Bad-block marker: nothing more (R122). Protection: the locks with success,
the count in both cases, and PROTECT_DONE (R183). A program whose requester has gone changes nothing but the index (R137). The
fields that an event's case gives no value are free values chosen by `freeCtr` (log 11, DESIGN CHOICE). -/
def Obligations.ProgramEndsForItsRequester : Prop :=
  ∀ (s : State) (o : FlashOp), s.flash.op = some o →
    (∀ i e pass : Bool, o.kind = .program (.protection i e) → o.req = .protection → o.orphan = false →
      let c := s.flash.prot
      let c' : ProtCopy := { ingestLock := c.ingestLock || (pass && i), eraseLock := c.eraseLock || (pass && e),
                             count := c.count + 1 }
      ∃ u, exec (.programComplete pass) s = .next (rest u)
        ∧ u = { s with flash := { s.flash with op := none, prot := c' }, boxes := u.boxes, freeCtr := s.freeCtr + 1 }
        ∧ ∀ p, u.box p = if p = .ap then pushBox (s.box p) (.protectSet pass c' s.freeCtr) else s.box p)
    ∧ (∀ ci first pkts p b, o.kind = .program (.data ci first pkts) → o.req = .ingest p → o.orphan = false →
      let g := s.ingest p
      let other := g.buf (!b)
      (g.buf b).st = .writing → other.st = .full ∨ other.st = .filling → g.st = .open_ ∨ g.st = .closing → g.held = .none →
      ∃ u, exec (.programComplete true) s = .next (rest u)
        ∧ u = { s with flash := { s.flash.setIndex o.block (s.flash.index o.block + 1) with op := none }, ingests := u.ingests }
        ∧ (∀ q, q ≠ p → u.ingest q = s.ingest q)
        ∧ (u.ingest p).programmed = g.programmed + 1 ∧ (u.ingest p).stored = g.stored ∧ (u.ingest p).st = g.st
        ∧ (other.st = .filling → (u.ingest p).buf b = Buf.empty ∧ (u.ingest p).buf (!b) = other)
        ∧ (other.st = .full → (u.ingest p).buf (!b) = { other with st := .writing }
            ∧ (u.ingest p).buf b = if g.st = .open_ then { Buf.empty with st := .filling } else Buf.empty))
    ∧ (∀ ci first pkts p b x q, o.kind = .program (.data ci first pkts) → o.req = .ingest p → o.orphan = false →
      let g := s.ingest p
      let other := g.buf (!b)
      let all := g.asm ++ x
      let ps := (List.range (all.length / 188)).map (fun j => (all.drop (188 * j)).take 188)
      let m := (ps.filter (fun y => g.decl.comps.any (fun c => c.pid == pktPid y))).length
      let room := if other.st = .full then 43 else 86 - other.pkts.length
      (g.buf b).st = .writing → other.st = .full ∨ other.st = .filling → other.pkts.length ≤ 43 → g.st = .open_ → g.held = .data x →
      (s.link p).out = some q →
      ∃ u, exec (.programComplete true) s = .next (rest u)
        ∧ u = { s with flash := { s.flash.setIndex o.block (s.flash.index o.block + 1) with op := none }, ingests := u.ingests
                       links := u.links }
        ∧ (∀ l, l ≠ p → u.ingest l = s.ingest l ∧ u.link l = s.link l) ∧ (u.ingest p).programmed = g.programmed + 1
        ∧ (m ≤ room → u.replied p q.code .ok (leBytes 4 (g.stored + m)) ∧ (u.ingest p).stored = g.stored + m
            ∧ (u.ingest p).asm = all.drop (188 * (all.length / 188)) ∧ (u.ingest p).held = .none)
        ∧ (room < m → u.links = s.links ∧ (u.ingest p).stored = g.stored ∧ (u.ingest p).asm = g.asm ∧ (u.ingest p).held = .data x))
    ∧ (∀ k p r q pass, o.kind = .program k → o.req = .ingest p → o.orphan = false → (s.ingest p).st = .ending →
      s.clip (s.ingest p).clip = some r → r.clip = (s.ingest p).clip → (s.link p).out = some q →
      ∃ u, exec (.programComplete pass) s = .next (rest u)
        ∧ u = { s with flash := u.flash, dir := u.dir, ingests := u.ingests, links := u.links }
        ∧ (∀ c, u.clip c = if c = r.clip then none else s.clip c)
        ∧ (∀ l, u.ingest l = if l = p then Ingest.reset else s.ingest l)
        ∧ (∀ l, l ≠ p → u.link l = s.link l) ∧ u.replied p q.code .ok []
        ∧ (∀ b, b ∈ u.flash.bad ↔ pass = false ∧ b = o.block ∨ b ∈ s.flash.bad)
        ∧ u.flash.dirty r.region = s.flash.dirty r.region
            ++ (r.chain.filter (fun b => pass || b != o.block)).map (fun b => { block := b, job := none }))
    ∧ (∀ v p r, o.kind = .program (.sealing v) → o.req = .ingest p → o.orphan = false → (s.ingest p).st = .closing →
      s.clip (s.ingest p).clip = some r →
      ∃ u, exec (.programComplete true) s = .next (rest u)
        ∧ u = { s with flash := { s.flash.setFree r.region (s.flash.free r.region ++ r.chain.drop v.blocks) with op := none }
                       dir := u.dir, ingests := u.ingests, boxes := u.boxes }
        ∧ (∀ c, u.clip c = if c = (s.ingest p).clip then
            some { r with st := .good, decl := none, sealVals := some v, marker := .none, chain := r.chain.take v.blocks }
            else s.clip c)
        ∧ (∀ q, u.ingest q = if q = p then Ingest.reset else s.ingest q)
        ∧ ∀ q, u.box q = if q = p then
            pushBox (s.box q) (.ingestSealed (s.ingest p).clip v.k v.blocks v.checksum) else s.box q)
    ∧ (∀ k p r, o.kind = .program k → o.req = .ingest p → o.orphan = false →
      (s.ingest p).st = .open_ ∨ (s.ingest p).st = .closing → s.clip (s.ingest p).clip = some r →
      r.clip = (s.ingest p).clip →
      ∃ u, exec (.programComplete false) s = .next (rest u)
        ∧ u = { s with flash := u.flash, dir := u.dir, ingests := u.ingests, boxes := u.boxes, links := u.links
                       freeCtr := s.freeCtr + 1 }
        ∧ (∀ c, u.clip c = if c = r.clip then none else s.clip c)
        ∧ (∀ q, u.ingest q = if q = p then Ingest.reset else s.ingest q)
        ∧ (∀ b, b ∈ u.flash.bad ↔ b = o.block ∨ b ∈ s.flash.bad)
        ∧ { damage := false, block := o.block, clip := 0 } ∈ u.flash.markerQ
        ∧ u.flash.dirty r.region = s.flash.dirty r.region
            ++ (r.chain.filter (fun b => b != o.block)).map (fun b => { block := b, job := none })
        ∧ u.flash.freeA = s.flash.freeA ∧ u.flash.freeM = s.flash.freeM
        ∧ (∀ q, u.box q = if q = p then pushBox (s.box q) (.ingestFault r.clip o.block s.freeCtr) else s.box q)
        ∧ ((s.ingest p).held = .none → u.links = s.links)
        ∧ ∀ x q, (s.ingest p).held = .data x → (s.link p).out = some q →
            u.replied p q.code .fault (leBytes 4 (s.ingest p).stored))
    ∧ (∀ pass r, o.kind = .program .damage → o.req = .marker → o.orphan = false → s.clip o.clip = some r →
      r.st = .damaged → r.chain.head? = some o.block →
      exec (.programComplete pass) s = .next (rest { s.setClip o.clip
        (some { r with marker := if pass then .written else .failed }) with flash := { s.flash with op := none } }))
    ∧ (∀ pass, o.kind = .program .badBlock → o.req = .marker →
      exec (.programComplete pass) s = .next (rest { s with flash := { s.flash with op := none } }))
    ∧ (∀ k pass, o.kind = .program k → o.orphan = true →
      ∃ u, exec (.programComplete pass) s = .next (rest u)
        ∧ u = { s with flash := { s.flash with op := none, nextPage := u.flash.nextPage } }
        ∧ (∀ b, b ≠ o.block → u.flash.index b = s.flash.index b)
        ∧ (∀ ci first pkts, k = .data ci first pkts → u.flash.index o.block = s.flash.index o.block + 1)
        ∧ ((∀ ci first pkts, k ≠ .data ci first pkts) → u.flash.index o.block = s.flash.index o.block))

/-- The erase of a dirty block ends: a pass puts the block at the free list's tail with its next-page index 0, a fail puts it in the
bad set and queues its bad-block marker (R142). The block of a Clip Erase is counted for it, and the last one brings ERASE_DONE with
the counts to the port that sent the command (R165). The erase of block 0 for a release: a pass clears both locks and the count of
programs, a fail makes the alert region UNUSABLE (R117, R143). The last erase of a release, of an alert block or of block 0,
brings PROTECT_DONE with the counts, and the release is over (R143, R185). -/
def Obligations.EraseFreesBlockOrRetiresIt : Prop :=
  ((∀ (s : State) (o : FlashOp) (r : Region), s.flash.op = some o → o.kind = .erase → o.req = .eraser r →
     s.flash.release = none → (∀ x ∈ s.flash.dirty r, x.job = none) →
     (∃ u, exec (.eraseComplete true) s = .next (rest u) ∧ u = { s with flash := u.flash }
       ∧ u.flash.free r = s.flash.free r ++ [o.block] ∧ u.flash.index o.block = 0
       ∧ u.flash.dirty r = (s.flash.dirty r).filter (fun x => x.block != o.block) ∧ u.flash.bad = s.flash.bad)
     ∧ (∃ u, exec (.eraseComplete false) s = .next (rest u) ∧ u = { s with flash := u.flash }
       ∧ u.flash.free r = s.flash.free r ∧ o.block ∈ u.flash.bad
       ∧ u.flash.dirty r = (s.flash.dirty r).filter (fun x => x.block != o.block)
       ∧ u.flash.markerQ = s.flash.markerQ ++ [{ damage := false, block := o.block, clip := 0 }]))
   ∧ (∀ (s : State) (o : FlashOp) (x : Release), s.flash.op = some o → o.kind = .erase → o.req = .releaseEraser →
     s.flash.release = some x → s.flash.dirtyA ≠ [] →
     exec (.block0EraseComplete true) s = .next (rest { s with flash := { s.flash with
       op := none, prot := ⟨false, false, 0⟩, release := some { x with block0 := some true } } })
     ∧ exec (.block0EraseComplete false) s = .next (rest { s with flash := { s.flash with
       op := none, unusable := true, release := some { x with block0 := some false } } })))
  ∧ (∀ (s : State) (o : FlashOp) (r : Region) (id : Nat) (j : EraseJob) (pass : Bool), s.flash.op = some o → o.kind = .erase →
    o.req = .eraser r → s.flash.release = none →
    (s.flash.dirty r).find? (fun x => x.block == o.block) = some { block := o.block, job := some id } →
    s.flash.jobs.find? (fun x => x.id == id) = some j →
    let counted := fun (x : EraseJob) =>
      { x with freed := x.freed + (if pass then 1 else 0), bad := x.bad + (if pass then 0 else 1) }
    ∃ u, exec (.eraseComplete pass) s = .next (rest u)
      ∧ u = { s with flash := u.flash, boxes := u.boxes }
      ∧ u.flash.dirty r = (s.flash.dirty r).filter (fun x => x.block != o.block)
      ∧ ((∀ q, ∀ x ∈ s.flash.dirty q, x.job = some id → q = r ∧ x.block = o.block) →
          u.flash.jobs = s.flash.jobs.filter (fun x => x.id != id)
          ∧ ∀ p, u.box p = if p = j.p then
              pushBox (s.box p) (.eraseDone j.clip (counted j).freed (counted j).bad) else s.box p)
      ∧ ((∃ x ∈ s.flash.dirty r, x.job = some id ∧ x.block ≠ o.block) →
          u.flash.jobs = s.flash.jobs.map (fun x => if x.id = id then counted x else x) ∧ u.boxes = s.boxes))
  ∧ (∀ (s : State) (o : FlashOp) (x : Release) (pass : Bool), s.flash.op = some o → o.kind = .erase →
    s.flash.release = some x →
    (∀ ok, o.req = .eraser .alert → s.flash.dirtyA = [{ block := o.block, job := none }] → x.block0 = some ok →
      ∃ u, exec (.eraseComplete pass) s = .next (rest u)
        ∧ u = { s with flash := u.flash, boxes := u.boxes } ∧ u.flash.release = none ∧ u.flash.dirtyA = []
        ∧ ∀ p, u.box p = if p = .ap then pushBox (s.box p) (.protectRelease ok s.flash.prot
            (x.freed + (if pass then 1 else 0)) (x.bad + (if pass then 0 else 1))) else s.box p)
    ∧ (o.req = .releaseEraser → s.flash.dirtyA = [] →
      let c : ProtCopy := if pass then ⟨false, false, 0⟩ else s.flash.prot
      ∃ u, exec (.block0EraseComplete pass) s = .next (rest u)
        ∧ u = { s with flash := { s.flash with op := none, release := none, prot := c
                                               unusable := s.flash.unusable || !pass }, boxes := u.boxes }
        ∧ ∀ p, u.box p = if p = .ap then pushBox (s.box p) (.protectRelease pass c x.freed x.bad) else s.box p))

/-- An operation that reaches its maximum time (60 µs, 1 ms, 12 ms) ends as an uncorrectable read or a failed program or erase, and
acts as the row of that end does (R136). Taken early, the row moves the local count to that moment (log 2, DESIGN CHOICE). A
read of the scan that ends so has no marker byte either: log 13's, left out here. -/
def Obligations.FlashTimeLimitEndsOperationAsFailed : Prop :=
  ∀ (s : State) (o : FlashOp), s.flash.op = some o → ∃ t s', exec .flashOpTimeout s = .next t
    ∧ s' = { s with localCount := s'.localCount }
    ∧ (o.kind = .read → atOrAfter nClk s'.localCount ((o.started + 1620) % nClk) = true
        ∧ (o.req ≠ .scan → exec (.pageReadComplete .uncorrectable 0xFF#8) s' = .next t))
    ∧ (∀ k, o.kind = .program k → atOrAfter nClk s'.localCount ((o.started + 27000) % nClk) = true
        ∧ exec (.programComplete false) s' = .next t)
    ∧ (o.kind = .erase → atOrAfter nClk s'.localCount ((o.started + 324000) % nClk) = true
        ∧ (∀ r, o.req = .eraser r → exec (.eraseComplete false) s' = .next t)
        ∧ (o.req = .releaseEraser → exec (.block0EraseComplete false) s' = .next t))

/-! ### The links -/

/-- The receiver of a port goes from HUNT by a start byte to LENGTH, by two length bytes in 1 … 1,040 to BODY (by others
back to HUNT), and by the body's last byte to CHECK (R188). A gap of 20 ms, or a framing error, in an unfinished frame discards it
without a reply: the receiver is in HUNT. The row of the gap taken early moves the local count (log 2, DESIGN CHOICE). The end of a
reply closes the port's exchange; after a Port Rate the port has its new rate from here, and a frame then in progress is stale (R190,
R192). Port Rate answers with the new rate, which waits for the end of the reply; the present rate changes nothing, and a code that is
no rate is refused BADPARAM (R192). -/
def Obligations.LinkReceivesBytesAndChangesRate : Prop :=
  (∀ (s : State) (p : PortId) (b : Byte), s.resetAsserted = false →
     let l := s.link p
     (l.rx.st = .hunt → exec (.receiveByte p b) s = .next (s.setLink p { l with rx :=
         if b = 0xB4#8 then { st := .length, len := 0, got := [], lastByte := s.localCount, stale := false } else l.rx }))
     ∧ (l.rx.st = .length → l.rx.got = [] → exec (.receiveByte p b) s =
         .next (s.setLink p { l with rx := { l.rx with got := [b], lastByte := s.localCount } }))
     ∧ (∀ lo, l.rx.st = .length → l.rx.got = [lo] → exec (.receiveByte p b) s = .next (s.setLink p { l with rx :=
         if 1 ≤ lo.toNat + 256 * b.toNat ∧ lo.toNat + 256 * b.toNat ≤ 1040 then
           { st := .body, len := lo.toNat + 256 * b.toNat, got := [], lastByte := s.localCount, stale := l.rx.stale }
         else { st := .hunt, len := 0, got := [], lastByte := 0, stale := false } }))
     ∧ (l.rx.st = .body → exec (.receiveByte p b) s = .next (s.setLink p { l with rx :=
         { l.rx with got := b :: l.rx.got, lastByte := s.localCount
                     st := if l.rx.got.length + 1 = l.rx.len then .check else .body } })))
  ∧ (∀ (s : State) (p : PortId), s.resetAsserted = false → (s.link p).rx.st ≠ .hunt →
       (∃ t, exec (.frameGap p) s = .next t
         ∧ t = { s with localCount := t.localCount, links := t.links }
         ∧ t.link p = { s.link p with rx := Rx.hunt } ∧ (∀ q, q ≠ p → t.link q = s.link q)
         ∧ atOrAfter nClk t.localCount (((s.link p).rx.lastByte + 540000) % nClk) = true)
       ∧ exec (.framingError p) s = .next (s.setLink p { s.link p with rx := Rx.hunt }))
  ∧ (∀ (s : State) (p : PortId) (x : Tx), s.resetAsserted = false → (s.link p).tx = some x → x.outstanding = true →
     (s.link p).refusal = none →
     exec (.replySent p) s = .next (s.setLink p { s.link p with
       tx := none, out := none, nextRate := none
       rate := (s.link p).nextRate.getD (s.link p).rate
       rx := { (s.link p).rx with stale :=
         if (s.link p).nextRate.isSome then (s.link p).rx.st != .hunt else (s.link p).rx.stale } }))
  ∧ (∀ (s : State) (p : PortId) (r : Nat), s.free p →
       (r ≤ 3 → ∃ t, exec (.portRate p r 0) s = .next t ∧ s.onlyAnswers t p 0x03#8 .ok [byte1 r]
         ∧ (t.link p).nextRate = if r = (s.link p).rate then none else some r)
       ∧ (3 < r → ∃ t, exec (.portRate p r 0) s = .next t ∧ s.onlyAnswers t p 0x03#8 .badparam []
         ∧ (t.link p).nextRate = (s.link p).nextRate))

/-- A complete frame with a bad check byte: with no reply outstanding, BADCHK is an ordinary exchange; with one outstanding, the BADCHK
reply takes the refusal slot (R189, R190). A frame that may not be taken changes nothing but the refusal of its port: BUSY while a
reply is outstanding or when its start byte came before a rate change, BADCMD for a code of no command, DENIED from a port that may
not send it, SCANNING during the scan, BADPARAM for a body length that its command does not have (cases 2 to 6 of R189, R192, R198,
R201). That the refusals of cases 3 to 6 take the refusal slot and leave no reply outstanding is log 9 (DEDUCED). -/
def Obligations.RefusedFrameChangesOnlyItsRefusal : Prop :=
  let refused := fun (s t : State) (p : PortId) (code : Byte) (st : Status) =>
    t = { s with links := t.links } ∧ (∀ q, q ≠ p → t.link q = s.link q) ∧ (t.link p).out = (s.link p).out
    ∧ ((t.link p).refusal = some { code := code, status := st, results := [] }
        ∨ (t.link p).tx = some { outstanding := false, frame := Reply.frame { code := code, status := st, results := [] } })
  let lengths : List (Nat × Nat × Nat) := [(0x01, 2, 2), (0x02, 2, 2), (0x03, 3, 3), (0x04, 3, 3), (0x05, 9, 9), (0x10, 21, 21),
    (0x11, 37, 37), (0x12, 5, 5), (0x13, 5, 5), (0x14, 3, 3), (0x15, 4, 4), (0x20, 29, 29), (0x21, 4, 4), (0x22, 4, 4),
    (0x30, 37, 37), (0x31, 2, 1025), (0x32, 9, 9), (0x33, 2, 2), (0x34, 4, 4), (0x35, 4, 4), (0x36, 4, 4), (0x37, 4, 4),
    (0x40, 6, 6), (0x41, 58, 58), (0x42, 4, 4), (0x43, 3, 3), (0x44, 2, 2), (0x45, 2, 2)]
  (∀ (s : State) (p : PortId) (body : List Byte) (chk : Byte), s.resetAsserted = false → 1 ≤ body.length →
     body.length ≤ 1040 → byteSum (leBytes 2 body.length ++ body ++ [chk]) % 256 ≠ 0 →
     ∃ t, exec (.frameRefused p body chk) s = .next t
       ∧ ((s.link p).out = none → s.onlyAnswers t p (body.headD 0) .badchk [])
       ∧ ((s.link p).out.isSome = true → (s.link p).tx.isSome = true →
           t = { s with links := t.links } ∧ (∀ q, q ≠ p → t.link q = s.link q)
           ∧ (t.link p).out = (s.link p).out ∧ (t.link p).tx = (s.link p).tx
           ∧ (t.link p).refusal = some { code := body.headD 0, status := .badchk, results := [] }))
  ∧ (∀ (s : State) (p : PortId) (body : List Byte) (chk : Byte), s.resetAsserted = false → 1 ≤ body.length →
     body.length ≤ 1040 → byteSum (leBytes 2 body.length ++ body ++ [chk]) % 256 = 0 →
     let code := body.headD 0
     let gives := fun (st : Status) => ∃ t, exec (.frameRefused p body chk) s = .next t ∧ refused s t p code st
     ((s.link p).out.isSome = true ∨ (s.link p).rx.stale = true → gives .busy)
     ∧ (s.free p → (∀ x ∈ lengths, x.1 ≠ code.toNat) → gives .badcmd)
     ∧ (∀ x ∈ lengths, s.free p → x.1 = code.toNat →
       (admitted p x.1 = false → gives .denied)
       ∧ (admitted p x.1 = true → s.part = .scanning → 4 < x.1 → gives .scanning)
       ∧ (admitted p x.1 = true → s.part = .running ∨ x.1 ≤ 4 → body.length < x.2.1 ∨ x.2.2 < body.length → gives .badparam)))
  ∧ (∀ (c : Instr) (p : PortId) (s : State), commandPort c = some p → s.resetAsserted = false →
       let code := (encodeBody c).headD 0
       let gives := fun (st : Status) => ∃ t, exec c s = .next t ∧ refused s t p code st
       ((s.link p).out.isSome = true ∨ (s.link p).rx.stale = true → gives .busy)
       ∧ (s.free p → admitted p code.toNat = false → gives .denied)
       ∧ (s.free p → admitted p code.toNat = true → s.part = .scanning → 4 < code.toNat → gives .scanning))

/-! ### Commands of every port -/

/-- A non-zero reserved field: every command that its port may send is refused BADPARAM and changes nothing. (The Lean leaves out a forced
Clear Service from TP or PP, which ClearServicePlainAndForced shows refused DENIED.) -/
def Obligations.NonZeroReservedFieldIsRefusedBadparam : Prop :=
  ∀ (c : Instr) (p : PortId) (s : State), commandPort c = some p → s.takes p →
    admitted p ((encodeBody c).headD 0).toNat = true → reservedField c ≠ 0 →
    (∀ i r, c = .clearService p i 1 r → p = .ap) →
    ∃ t, exec c s = .next t ∧ s.onlyAnswers t p ((encodeBody c).headD 0) .badparam []

/-- Identify reports the part code, the port, its rate, the four rates, the geometry of R115 and the capacities, and changes
nothing (R196), the alert region's blocks before the main region's. Read Status reports part, supply, monitor, each lane's mode, presence and OVERRUN, and the port's queue length and
LOST-EVENTS, and clears every OVERRUN flag and nothing else; a non-zero reserved field is refused BADPARAM (R197). The layouts of
both replies are the model's (log 10, DEDUCED), the encodings those of R200. -/
def Obligations.IdentifyAndReadStatusReport : Prop :=
  (∀ (s : State) (p : PortId), s.free p → ∃ t, exec (.identify p 0) s = .next t
     ∧ s.onlyAnswers t p 0x01#8 .ok (leBytes 2 Config.partCode.toNat
         ++ [byte1 (portIdx p), byte1 (s.link p).rate, 0, 1, 2, 3]
         ++ [4096, 64, 43, 8192, 448, 4, 0, 255, 256, 4095].flatMap (leBytes 2)
         ++ [4, 48, 16, 1, 8, 16384, 256, 4, 512, 119, 4, 4, 16, 8, 8, 32, 32].flatMap (leBytes 2)))
  ∧ (∀ (s : State) (p : PortId) (res : Nat), s.free p →
       let lane := fun (k : Nat) =>
         ([byte1 (if (s.lane k).mode = .running then 1 else 0), flagByte (s.lane k).inputPresent,
           flagByte (s.lane k).overrun] : List Byte)
       (res ≠ 0 → ∃ t, exec (.readStatus p res) s = .next t ∧ s.onlyAnswers t p 0x02#8 .badparam [])
       ∧ (res = 0 → ∃ t, exec (.readStatus p res) s = .next t
         ∧ t = { s with lanes := t.lanes, links := t.links }
         ∧ (∀ k, t.lane k = if k < 4 then { s.lane k with overrun := false } else s.lane k)
         ∧ (∀ q, q ≠ p → t.link q = s.link q)
         ∧ t.replied p 0x02#8 .ok ([byte1 (if s.part = .running then 1 else 0), byte1 (if s.flash.supply = .low then 1 else 0),
               byte1 (if s.monitor = .backup then 1 else 0)] ++ lane 0 ++ lane 1 ++ lane 2 ++ lane 3
             ++ leBytes 2 (s.box p).queue.length ++ [flagByte (s.box p).lostEvents])))

/-- Read Events removes the oldest events up to its count from the port's queue, reports them with the number left and
LOST-EVENTS, and clears the flag; the event line is then negated if the queue is empty. A count outside 1 … 16 or a
non-zero reserved field is refused BADPARAM and changes nothing (R194). Each event reported is a record of 20 bytes: kind, detail,
its payload, then zeros; a field that its case gives no value is any value (log 11, DESIGN CHOICE) (R202). Watch gives the port its
new watch set and answers with the set as it stood; a non-zero reserved field is refused BADPARAM; no other port's set changes
(R195), whose 6 bytes are log 10's (DEDUCED). -/
def Obligations.ReadEventsAndWatchAct : Prop :=
  (∀ (s : State) (p : PortId) (n res : Nat), s.free p →
     let b := s.box p
     (1 ≤ n ∧ n ≤ 16 ∧ res = 0 → ∃ t, exec (.readEvents p n res) s = .next t
       ∧ (s.setBox p { queue := b.queue.drop n, lostEvents := false, watch := b.watch }).onlyAnswers t p 0x04#8 .ok
           ([byte1 (b.queue.take n).length, byte1 (b.queue.drop n).length, flagByte b.lostEvents]
             ++ (b.queue.take n).flatMap Event.record)
       ∧ t.evt p = !(b.queue.drop n).isEmpty)
     ∧ (¬(1 ≤ n ∧ n ≤ 16 ∧ res = 0) → ∃ t, exec (.readEvents p n res) s = .next t ∧ s.onlyAnswers t p 0x04#8 .badparam []))
  ∧ (∀ (s : State) (p : PortId) (m : BitVec 48) (res : Nat), s.takes p →
       (res = 0 → ∃ t, exec (.watch p m res) s = .next t
         ∧ (s.setBox p { s.box p with watch := m }).onlyAnswers t p 0x05#8 .ok (leBytes 6 (s.box p).watch.toNat))
       ∧ (res ≠ 0 → ∃ t, exec (.watch p m res) s = .next t ∧ s.onlyAnswers t p 0x05#8 .badparam []))
  ∧ (∀ e : Event, e.record.length = 20)
  ∧ (let one := fun (v : Nat) => BitVec.ofNat 8 v
    let pts := fun (x : Option Nat) => match x with | some v => leBytes 5 v | none => List.replicate 5 0xFF#8
    let zeros := fun (n : Nat) => List.replicate n 0#8
    let locks := fun (c : ProtCopy) => one ((if c.ingestLock then 1 else 0) + (if c.eraseLock then 2 else 0))
    (∀ r n i k f x y, ∃ v : Byte, (Event.entryEnd r n i k f x y).record
        = [1, v, one n, one i, one k] ++ leBytes 2 f ++ pts x ++ pts y ++ zeros 3
      ∧ (r = .completed → v = 1) ∧ (r = .truncated → v = 2) ∧ (r = .preempted → v = 3) ∧ (r = .cancelled → v = 4)
      ∧ (r = .missed → v = 5) ∧ (r = .superseded → v = 6) ∧ (r = .faulted → v = 7))
    ∧ (∀ i c, (Event.condition i c).record = [2, one c.pos, one i] ++ zeros 17)
    ∧ (∀ c k b sum, (Event.ingestSealed c k b sum).record
        = [3, 1] ++ leBytes 2 c ++ leBytes 4 k ++ [one b] ++ leBytes 2 sum ++ [0xFF#8, 0xFF#8] ++ zeros 7)
    ∧ (∀ c block seed, ∃ free : List Byte, free.length = 7 ∧ (Event.ingestFault c block seed).record
        = [3, 2] ++ leBytes 2 c ++ free ++ leBytes 2 block ++ zeros 7)
    ∧ (∀ c st x seed, ∃ free : List Byte, free.length = 2 ∧ (Event.checksumDone c st (some x) none seed).record
        = [4, if x = st then 1 else 2] ++ leBytes 2 c ++ [1] ++ leBytes 2 x ++ leBytes 2 st ++ free ++ zeros 9)
    ∧ (∀ c st pg seed, ∃ free : List Byte, free.length = 2 ∧ (Event.checksumDone c st none (some pg) seed).record
        = [4, 3] ++ leBytes 2 c ++ [0] ++ free ++ leBytes 2 st ++ leBytes 2 pg ++ zeros 9)
    ∧ (∀ c freed bad, (Event.eraseDone c freed bad).record = [5, 0] ++ leBytes 2 c ++ [one freed, one bad] ++ zeros 14)
    ∧ (∀ r id held em, (Event.alertEnd .expired r id held em).record = [6, 1, one r] ++ leBytes 2 id ++ [one held, one em] ++ zeros 13
      ∧ (Event.alertEnd .cancelled r id held em).record = [6, 2, one r] ++ leBytes 2 id ++ [one held, one em] ++ zeros 13
      ∧ (Event.alertEnd .vacated r id held em).record = [6, 3, one r] ++ leBytes 2 id ++ [one held, one em] ++ zeros 13)
    ∧ (∀ j c seed, ∃ v : Byte, (Event.preloadReady j c seed).record = [7, 1, one j] ++ leBytes 2 c ++ [v] ++ zeros 14)
    ∧ (∀ j c pg, (Event.preloadFailed j c pg).record = [7, 2, one j] ++ leBytes 2 c ++ [one pg] ++ zeros 14)
    ∧ (∀ done c seed, ∃ free : List Byte, free.length = 4 ∧ (Event.protectSet done c seed).record
        = [8, 1, if done then 1 else 2, locks c, one c.count] ++ free ++ zeros 11)
    ∧ (∀ done c freed bad, (Event.protectRelease done c freed bad).record
        = [8, 2, if done then 1 else 3, locks c, one c.count] ++ leBytes 2 freed ++ leBytes 2 bad ++ zeros 11)
    ∧ (∀ k, (Event.inputPresent k).record = [9, 1, one k] ++ zeros 17 ∧ (Event.inputLost k).record = [9, 2, one k] ++ zeros 17
      ∧ (Event.overrun k).record = [9, 3, one k] ++ zeros 17)
    ∧ Event.refLost.record = [10, 1] ++ zeros 18 ∧ Event.refRestored.record = [10, 2] ++ zeros 18
    ∧ Event.supplyAsserted.record = [11, 1] ++ zeros 18 ∧ Event.supplyReleased.record = [11, 2] ++ zeros 18
    ∧ (∀ r d b, (Event.scanDone r d b).record = [12, 0] ++ leBytes 2 r ++ leBytes 2 d ++ leBytes 2 b ++ zeros 12))

/-! ### Lanes and services -/

/-- Configure Lane on a BYPASS lane with R_out, D and Q in range, and each other setting absent or in range, starts the
lane from nothing at the present tick, with R2's defaults for what is absent, and its services begin with a reset clock
(R2, R3). -/
def Obligations.ConfigureLaneStartsLane : Prop :=
  ∀ (s : State) (p : PortId) (a : LaneArgs) (r d q : Nat), s.takes p → a.lane ≤ 3 → a.res = 0 →
    a.rOut = some r → a.delay = some d → a.pool = some q → 2000 ≤ r ∧ r ≤ 53000 → 20 ≤ d ∧ d ≤ 250 → q ≤ 53000 →
    (∀ v, a.lateLimit = some v → 1 ≤ v ∧ v ≤ 100) → (∀ v, a.preroll = some v → 100 ≤ v ∧ v ≤ 5000) →
    (∀ v, a.seekLimit = some v → 40 ≤ v ∧ v ≤ 2000) → (∀ v, a.rounding = some v → v ≤ 3) →
    (∀ v, a.lockWindow = some v → 270 ≤ v ∧ v ≤ 270000) → (∀ v, a.lossTimeout = some v → 40 ≤ v ∧ v ≤ 700) →
    (s.lane a.lane).mode = .bypass → (s.servicesOf a.lane).any (engaged s) = false →
    ∃ t, exec (.configureLane p a) s = .next t
      ∧ t.lane a.lane = { s.lane a.lane with
          mode := .running
          cfg := { rOut := r, delay := d, pool := q, lateLimit := a.lateLimit.getD 20, preroll := a.preroll.getD 500
                   seekLimit := a.seekLimit.getD 400, lockWindow := a.lockWindow.getD 2700
                   lossTimeout := a.lossTimeout.getD 150
                   rounding := if a.rounding = some 1 then .down else if a.rounding = some 2 then .up
                     else if a.rounding = some 3 then .towardZero else .nearestEven }
          fifo := [], pids := [], base := s.localCount, slotNo := 0, slotRem := 0, slotTime := s.localCount }
      ∧ (∀ j, j ≠ a.lane → t.lane j = s.lane j)
      ∧ (∀ i ∈ s.servicesOf a.lane, (t.svc i).clk = ClockRec.reset)
      ∧ (∀ i, i ∉ s.servicesOf a.lane → (t.svc i).clk = (s.svc i).clk)
      ∧ t.replied p 0x10#8 .ok []

/-- Configure Lane whose record fails check 1 of R2 is refused BADPARAM, and on a lane with an insertion every sound one INUSE (R2).
R_out 0 returns a RUNNING lane to BYPASS: the FIFO and the per-PID table are emptied, OVERRUN stays, its services' entries end CANCELLED
with ENTRY_END, and they lose clock, leads and cue memory but keep flags and masks (R5); on a BYPASS lane it only answers. Within
RUNNING the settings change and FIFO, table and flags stay; a changed R_out restarts the slots at the first old one that has not
passed (R4), one sent already at the present tick not counted (log 73, DESIGN CHOICE). That the slot registers of a lane back in BYPASS hold 0 is log 8 (DESIGN
CHOICE), what D and Q a lane at R_out 0 holds log 50 (DESIGN CHOICE); that a command which changes no setting runs no
arbiter either is log 52 (DEDUCED). -/
def Obligations.RunningLaneIsStoppedAdjustedOrInUse : Prop :=
  ∀ (s : State) (p : PortId) (a : LaneArgs), s.takes p →
    let k := a.lane
    let l := s.lane k
    let c := settingsOf a
    let within := fun (v : Option Nat) (lo hi : Nat) => ∀ x, v = some x → lo ≤ x ∧ x ≤ hi
    let sound := k ≤ 3 ∧ a.res = 0 ∧ (∃ r, a.rOut = some r ∧ (r ≠ 0 → 2000 ≤ r ∧ r ≤ 53000
        ∧ a.delay.isSome = true ∧ within a.delay 20 250 ∧ a.pool.isSome = true ∧ within a.pool 0 53000))
      ∧ within a.lateLimit 1 100 ∧ within a.preroll 100 5000 ∧ within a.seekLimit 40 2000 ∧ within a.rounding 0 3
      ∧ within a.lockWindow 270 270000 ∧ within a.lossTimeout 40 700
    let used := ∃ i ∈ s.servicesOf k, engaged s i = true
    (¬sound → ∃ t, exec (.configureLane p a) s = .next t ∧ s.onlyAnswers t p 0x10#8 .badparam [])
    ∧ (sound → used → ∃ t, exec (.configureLane p a) s = .next t ∧ s.onlyAnswers t p 0x10#8 .inuse [])
    ∧ (sound → ¬used → l.mode = .bypass → a.rOut = some 0 →
      ∃ t, exec (.configureLane p a) s = .next t ∧ s.onlyAnswers t p 0x10#8 .ok [])
    ∧ (sound → ¬used → l.mode = .running → a.rOut = some 0 → Table.wf none s.entries = true →
      (∀ n e, s.entry n = some e → e.num = n) →
      ∃ u, exec (.configureLane p a) s = .next (answer (rest u) p .ok [])
        ∧ u = { s with lanes := u.lanes, services := u.services, entries := u.entries, dir := u.dir, boxes := u.boxes
                       links := u.links }
        ∧ u.lane k = { l with mode := .bypass, cfg := c, fifo := [], pids := [], base := 0, slotNo := 0, slotRem := 0, slotTime := 0 }
        ∧ (∀ j, j ≠ k → u.lane j = s.lane j)
        ∧ (∀ i ∈ s.servicesOf k, (u.svc i).clk = ClockRec.reset ∧ (u.svc i).cues = []
            ∧ (u.svc i).cond = (s.svc i).cond ∧ (u.svc i).defn = (s.svc i).defn)
        ∧ (∀ i, i ∉ s.servicesOf k → u.svc i = s.svc i)
        ∧ (∀ n e, s.entry n = some e → e.svc ∉ s.servicesOf k → u.entry n = some e)
        ∧ (∀ n e, s.entry n = some e → e.svc ∈ s.servicesOf k → u.entry n = none
            ∧ ((s.box e.origin).queue.length + s.schedule.length ≤ 32 →
                Event.entryEnd .cancelled n e.svc e.podIdx (e.pod.headD 0) e.sEff e.e ∈ (u.box e.origin).queue)))
    ∧ (sound → ¬used → l.mode = .running → a.rOut ≠ some 0 →
      ∃ u, exec (.configureLane p a) s = .next (answer (rest u) p .ok [])
        ∧ (l.cfg = c → u = { s with links := u.links })
        ∧ (l.cfg ≠ c → (∀ j, j ≠ k → u.lane j = s.lane j)
          ∧ (l.cfg.rOut = c.rOut → u.lane k = { l with cfg := c })
          ∧ (l.cfg.rOut ≠ c.rOut → SlotTimes s → 0 < l.cfg.rOut →
            let at_ := fun (m : Nat) => (l.slotTime + (l.slotRem + m * 27000000) / l.cfg.rOut) % nClk
            ∃ m, u.lane k = { l with cfg := c, base := at_ m, slotNo := 0, slotRem := 0, slotTime := at_ m }
              ∧ atOrAfter nClk (at_ m) s.localCount = true ∧ ∀ x, x < m → atOrAfter nClk (at_ x) s.localCount = false)
          ∧ (l.cfg.preroll = c.preroll → (∀ e ∈ s.schedule, s.laneOf e.svc = some k → e.st ≠ .waiting .pool) →
              u = { s with lanes := u.lanes, links := u.links })))

/-- Configure Service with 1 to 8 components is refused by the first of R8's checks that fails, BADPARAM for the record, its PIDs and a
PID that another service of the lane names, INUSE for an entry or a level-3 hold, FULL for a 17th service. One that passes gives the
context that definition with a reset clock, an empty cue memory, the flags clear and the reset masks, restores the table entries of
the old PIDs, PCR and cue PID included, but for their last CC, and answers with the lead component (R8, R9). That a PID above 0x1FFF is refused as well
is log 30 (DEDUCED). With 0 components it removes the definition: the context is as after reset; what it is checked for besides check 6, and its reply's free fields, are the
model's (log 29). -/
def Obligations.ConfigureServiceDefinesService : Prop :=
  ∀ (s : State) (p : PortId) (a : ServiceArgs), s.takes p →
    let i := a.svc
    let answers := fun (st : Status) => ∃ t, exec (.configureService p a) s = .next t ∧ s.onlyAnswers t p 0x11#8 st []
    let zeros := ∀ x ∈ a.positions.drop a.count, x.pid = 0 ∧ x.kind = 0
    let sound := i ≤ 47 ∧ a.lane ≤ 3 ∧ a.count ≤ 8 ∧ a.handling ≤ 1 ∧ a.ceiling ≤ 20000 ∧ a.res = 0 ∧ zeros
    let busy := (∃ e ∈ s.schedule, e.svc = i) ∨ ∃ r, r < 4 ∧ (s.alert r).holds i = true
    let restored := fun (t : State) => ∀ d, (s.svc i).defn = some d → ∀ q ∈ d.comps.map (·.pid) ++ d.cuePid.toList ++ [d.pcrPid],
      (t.lane d.lane).pid q = { PidEntry.entry with lastCC := ((s.lane d.lane).pid q).lastCC }
    (a.count ≠ 0 → (¬sound ∨ takeComps a.count a.positions = none → answers .badparam)
      ∧ ∀ cs, sound → takeComps a.count a.positions = some cs →
        let pids := cs.map (·.pid)
        let named := (∀ q ∈ pids ++ a.cuePid.toList ++ [a.pcrPid], 16 ≤ q ∧ q < 0x1FFF) ∧ pids.Nodup ∧ a.pcrPid ∈ pids
          ∧ (∀ q, a.cuePid = some q → q ∉ pids) ∧ ∃ x ∈ cs, x.kind = .video ∨ x.kind = .audio
        let taken := ∃ j d, j ≠ i ∧ j ∈ s.servicesOf a.lane ∧ (s.svc j).defn = some d
          ∧ ∃ q ∈ d.comps.map (·.pid) ++ d.cuePid.toList, q ∈ pids ++ a.cuePid.toList
        let full := 16 ≤ ((s.servicesOf a.lane).filter (fun j => j != i)).length
        (¬named ∨ taken → answers .badparam)
        ∧ (named → ¬taken → busy → answers .inuse)
        ∧ (named → ¬taken → ¬busy → full → answers .full)
        ∧ (named → ¬taken → ¬busy → ¬full → ∃ t j x, exec (.configureService p a) s = .next t
          ∧ leadIdx cs = some j ∧ cs[j]? = some x
          ∧ t.replied p 0x11#8 .ok (leBytes 2 x.pid ++ [byte1 x.kind.code])
          ∧ (t.svc i).defn = some { lane := a.lane, comps := cs, pcrPid := a.pcrPid, cuePid := a.cuePid,
                                    strip := a.handling == 0, ceiling := a.ceiling }
          ∧ (t.svc i).clk = ClockRec.reset ∧ (t.svc i).cues = []
          ∧ (t.svc i).cond = { flags := 0#10, masks := 0b1110111111#10 } ∧ restored t
          ∧ (∀ j, j ≠ i → (t.svc j).defn = (s.svc j).defn ∧ (t.svc j).clk = (s.svc j).clk)))
    ∧ (a.count = 0 → (¬(i ≤ 47 ∧ a.res = 0 ∧ zeros) → answers .badparam)
      ∧ (i ≤ 47 → a.res = 0 → zeros → busy → answers .inuse)
      ∧ (i ≤ 47 → a.res = 0 → zeros → ¬busy → ∃ t bytes, exec (.configureService p a) s = .next t
        ∧ t.replied p 0x11#8 .ok bytes ∧ bytes.length = 3 ∧ t.svc i = Service.reset ∧ restored t
        ∧ (∀ j, j ≠ i → (t.svc j).defn = (s.svc j).defn ∧ (t.svc j).clk = (s.svc j).clk)))

/-- Set Masks replaces the masks of a configured service and Clear Conditions clears the flags it names; both answer
with the flags as they stood, in one encoding that tells any two sets of flags apart (ReportsChangeNothing gives its bytes), and
refuse BADPARAM a service number beyond 47, a bit beyond the ten conditions, a non-zero reserved field or an unconfigured service
(R107, R108). -/
def Obligations.MasksAndFlagsAreSetByTheirCommands : Prop :=
  ∃ code : BitVec 10 → List Byte, (∀ x y, code x = code y → x = y) ∧
  ∀ (s : State) (p : PortId) (i : Nat) (m : BitVec 16) (res : Nat), s.takes p →
    (i ≤ 47 ∧ (s.svc i).defn.isSome = true ∧ m.toNat < 1024 ∧ res = 0 →
      (∃ t, exec (.setMasks p i m res) s = .next t
        ∧ (s.setSvc i { s.svc i with cond := { flags := (s.svc i).cond.flags, masks := m.setWidth 10 } }).onlyAnswers t p
            0x12#8 .ok (code (s.svc i).cond.flags))
      ∧ (∃ t, exec (.clearConditions p i m res) s = .next t
        ∧ (s.setSvc i { s.svc i with cond := { flags := (s.svc i).cond.flags &&& ~~~(m.setWidth 10)
                                               masks := (s.svc i).cond.masks } }).onlyAnswers t p
            0x13#8 .ok (code (s.svc i).cond.flags)))
    ∧ (47 < i ∨ (s.svc i).defn = none ∨ 1024 ≤ m.toNat ∨ res ≠ 0 →
      (∃ t, exec (.setMasks p i m res) s = .next t ∧ s.onlyAnswers t p 0x12#8 .badparam [])
      ∧ (∃ t, exec (.clearConditions p i m res) s = .next t ∧ s.onlyAnswers t p 0x13#8 .badparam []))

/-- Clear Service in its plain form empties clock, cue memory and flags of a service without insertion and keeps the rest (R110, R111);
TP and PP are refused the forced form DENIED. From AP it stops the service: instances, head, searches and return are gone, each
component is on the network, and one that was REPLACED owes the resume mark (R103); the service leaves its alert record's held set,
its entries end CANCELLED with ENTRY_END and their references released (R112); then clock, cue memory, flags and masks are reset, and
its PIDs are the network's (R113). The reply gives the holder, the entry's or the record's number, and the entries ended: their bytes
are log 10's (DEDUCED). The order of the acts, and that a DEFERRED record takes the service last, is log 24 (DEDUCED). That a NETWORK
component that still owes a mark keeps it owed is the model's: log 62 (DEDUCED). -/
def Obligations.ClearServicePlainAndForced : Prop :=
  ∀ (s : State) (p : PortId) (i : Nat) (d : ServiceDef), s.takes p → i ≤ 47 → (s.svc i).defn = some d →
    let holder : List Byte := match activeEntry s i, holdingAlert s i with
      | some e, _ => [1, byte1 e.num]
      | none, some r => [2, byte1 r]
      | none, none => [0, 0]
    (engaged s i = false → ∃ t, exec (.clearService p i 0 0) s = .next t
      ∧ (s.setSvc i { s.svc i with clk := ClockRec.reset, cues := []
                                   cond := { flags := 0#10, masks := (s.svc i).cond.masks } }).onlyAnswers t p
          0x15#8 .ok [0, 0, 0, 0])
    ∧ (engaged s i = true → ∃ t, exec (.clearService p i 0 0) s = .next t ∧ s.onlyAnswers t p 0x15#8 .inuse [])
    ∧ (p ≠ .ap → ∃ t, exec (.clearService p i 1 0) s = .next t ∧ s.onlyAnswers t p 0x15#8 .denied [])
    ∧ (p = .ap → ∃ t u, exec (.clearService p i 1 0) s = .next t
      ∧ t = answer (rest u) p .ok (holder ++ leBytes 2 (s.schedule.filter (fun e => e.svc == i)).length)
      ∧ (t.svc i).defn = some d ∧ (t.svc i).clk = ClockRec.reset ∧ (t.svc i).cues = []
      ∧ (t.svc i).cond.masks = 0b1110111111#10
      ∧ (∀ q ∈ d.comps.map (·.pid),
          (t.lane d.lane).pid q = { PidEntry.entry with lastCC := ((s.lane d.lane).pid q).lastCC })
      ∧ (∃ bytes, t.replied p 0x15#8 .ok bytes)
      ∧ (∀ r, holdingAlert s i = some r →
          (u.alert r).st = .idle ∨ ∀ x ∈ (u.alert r).targets, x.svc = i → x.status = .released)
      ∧ (Table.wf none s.entries = true → (∀ n x, s.entry n = some x → x.num = n) →
          ((∀ q, q < 4 → holdingAlert s i ≠ some q → ¬((s.alert q).st = .on ∧
              ∃ x ∈ (s.alert q).targets, x.svc = i ∧ x.status = .deferred)) →
            (u.svc i).cond.flags = 0#10
            ∧ u.sp i = { SpliceRec.reset (s.sp i).comps.length with
                comps := (s.sp i).comps.map (fun c => { CompState.reset with mark := c.replaced || c.mark }) })
          ∧ (∀ q, q ≠ i → (∀ e ∈ s.schedule, e.svc = q → e.st ≠ .waiting .pool) → u.sp q = s.sp q)
          ∧ (∀ n e, s.entry n = some e → e.svc = i → u.entry n = none
            ∧ ((s.box e.origin).queue.length + s.schedule.length + 1 ≤ 32 →
                Event.entryEnd .cancelled n i e.podIdx (e.pod.headD 0) e.sEff e.e ∈ (u.box e.origin).queue))
          ∧ ((∀ e ∈ s.schedule, e.st ≠ .waiting .pool) →
            (∀ n e, s.entry n = some e → e.svc ≠ i → u.entry n = some e)
            ∧ (holdingAlert s i = none → ∀ c, u.clip c = (s.clip c).map (fun r =>
                { r with refs := r.refs - ((s.schedule.filter (fun e => e.svc == i)).map (·.pod.count c)).sum })))))

/-- Read Service, Read Entry, List Directory, Read Clip and Read Protection answer with their records and change nothing (R75, R109,
R168, R169), but that a record with a free field moves the selector of free values on (log 11, DESIGN CHOICE). The record of Read
Service has the 106 bytes of R204 and that of Read Entry the 69 of R203, each field at its offset. A clip's record in List Directory
has 15 bytes from offset 1: id, region, state, chain length, P, the packets, the reference count and the marker state (R168). Read Clip
gives region, state, marker state, reference count and the chain, and then the seal values, or the declared values and the ingest's
progress (R169). Set Masks and Clear Conditions report the ten flags as they stood in 2 bytes, the condition at position n of R201 in
bit n mod 8 of byte floor(n / 8) (R107, R108). Read Protection has the four bytes of R206. The bytes of List Directory, of Read Clip and
of these flags are log 10's by R200's general rule (DEDUCED), the marker state of an INGESTING clip is free (log 11, DESIGN CHOICE),
the fields of a context with nothing to report are log 46's (DEDUCED), those of an OUT without a break duration log 45's (DESIGN
CHOICE). -/
def Obligations.ReportsChangeNothing : Prop :=
  (∀ (s : State) (p : PortId), s.takes p →
    (∀ i, i ≤ 47 → ∃ t, exec (.readService p i 0) s = .next t ∧ s.onlyAnswers t p 0x14#8 .ok (serviceBytes s i))
    ∧ (∀ n e, n ≤ 255 → s.entry n = some e → ∃ t, exec (.readEntry p n 0) s = .next t
        ∧ s.onlyAnswers t p 0x22#8 .ok (entryBytes s e))
    ∧ (∀ n, n ≤ 255 → s.entry n = none → ∃ t, exec (.readEntry p n 0) s = .next t ∧ s.onlyAnswers t p 0x22#8 .notfound [])
    ∧ (∀ c, 1 ≤ c → c ≤ 65534 → ∃ t, exec (.listDirectory p c 0) s = .next t
        ∧ ({ s with freeCtr := s.freeCtr + 1 } : State).onlyAnswers t p 0x36#8 .ok (directoryBytes s s.freeCtr c))
    ∧ (∀ c r, 1 ≤ c → c ≤ 65534 → s.clip c = some r → ∃ t, exec (.readClip p c 0) s = .next t
        ∧ ({ s with freeCtr := s.freeCtr + 1 } : State).onlyAnswers t p 0x37#8 .ok (clipBytes s s.freeCtr r))
    ∧ (∃ t, exec (.readProtection p 0) s = .next t ∧ s.onlyAnswers t p 0x45#8 .ok
        [byte1 ((if s.flash.prot.ingestLock then 1 else 0) + (if s.flash.prot.eraseLock then 2 else 0)),
         byte1 s.flash.prot.count, flagByte s.flash.unusable, flagByte s.flash.release.isSome])
    ∧ (∀ i (m : BitVec 16), i ≤ 47 → (s.svc i).defn.isSome = true → m.toNat < 1024 →
        let flags := leBytes 2 (s.svc i).cond.flags.toNat
        (∃ t, exec (.setMasks p i m 0) s = .next t ∧ t.replied p 0x12#8 .ok flags)
        ∧ (∃ t, exec (.clearConditions p i m 0) s = .next t ∧ t.replied p 0x13#8 .ok flags)))
  ∧ ∀ s : State,
    let one := fun (v : Nat) => BitVec.ofNat 8 v
    let pts := fun (x : Option Nat) => match x with | some v => leBytes 5 v | none => List.replicate 5 0xFF#8
    let ticks := fun (x : Option Nat) => match x with | some v => leBytes 6 v | none => List.replicate 6 0xFF#8
    let id := fun (x : Option Nat) => match x with | some v => leBytes 2 v | none => [0xFF#8, 0xFF#8]
    let port := fun (p : PortId) => match p with | .tp => 0 | .pp => 1 | .ap => 2
    let level := fun (p : PortId) => match p with | .tp => 1 | .pp => 2 | .ap => 3
    let inst := fun (x : Option Inst) => match x with
      | some n => leBytes 2 n.clip ++ [match n.phase with | .seeking => 0#8 | .playing => 1#8 | .ending => 2#8] ++ pts n.delta
      | none => [0xFF#8, 0xFF#8, 0#8] ++ List.replicate 5 0xFF#8
    let marker := fun (x : Marker) => match x with | .none => 0#8 | .queued => 1#8 | .written => 2#8 | .failed => 3#8
    let comps := fun (l : List Comp) => one l.length :: l.flatMap (fun c => leBytes 2 c.pid ++ [one c.kind.code])
    let unit := fun (p : PortId) (c : Nat) => (s.ingest p).st ≠ .none ∧ (s.ingest p).clip = c
      ∧ ∀ q, (s.ingest q).st ≠ .none → (s.ingest q).clip = c → q = p
    let pages := fun (x : Option Inst) => match x with | some n => n.pages.length | none => 0
    (∀ i d, (s.svc i).defn = some d → d.comps.length ≤ 8 →
      let b := serviceBytes s i
      let v := s.svc i
      b.length = 106
      ∧ slice b 0 5 = [one i, 1, one d.lane, if s.live i then 1 else 0, one d.comps.length]
      ∧ (∀ j, j < 8 → slice b (5 + 3 * j) 3 = match d.comps[j]? with
          | some c => leBytes 2 c.pid ++ [one c.kind.code]
          | none => [0, 0, 0])
      ∧ (∀ j c, leadIdx d.comps = some j → d.comps[j]? = some c → slice b 29 3 = leBytes 2 c.pid ++ [one c.kind.code])
      ∧ slice b 32 2 = leBytes 2 d.pcrPid ∧ slice b 34 2 = id d.cuePid
      ∧ slice b 36 3 = [if d.strip then 0 else 1] ++ leBytes 2 d.ceiling
      ∧ (∀ e, activeEntry s i = some e → slice b 39 2 = [1, one e.num] ∧ slice b 85 10 = pts e.s ++ pts e.e)
      ∧ (∀ r t, activeEntry s i = none → holdingAlert s i = some r → (s.alert r).target i = some t →
          slice b 39 2 = [2, one r] ∧ slice b 85 10 = pts t.s ++ pts t.e)
      ∧ (activeEntry s i = none → holdingAlert s i = none → slice b 39 2 = [0, 0] ∧ slice b 85 10 = List.replicate 10 0xFF#8)
      ∧ slice b 41 1 = [one (heldLevel s i)]
      ∧ slice b 42 2 = id ((armedEntry s i).map (·.num)) ∧ slice b 95 5 = pts ((armedEntry s i).bind (·.s))
      ∧ slice b 44 1 = [match v.clk.st with | .unlocked => 0 | .locked => 1 | .holdover => 2]
      ∧ slice b 45 6 = leBytes 6 v.clk.sigma ∧ (lead s i = none → slice b 51 5 = [0xFF#8, 0xFF#8, 0xFF#8, 0xFF#8, 0x7F#8])
      ∧ (∀ x : Nat, lead s i = some (x : Int) → slice b 51 5 = leBytes 5 x)
      ∧ slice b 56 3 = [if v.clk.cand.isSome then 1 else 0, if s.monitor = .backup then 1 else 0,
          match v.sp.ret with | .idle => 0 | .returning _ => 1 | .emergency => 2]
      ∧ slice b 59 8 = inst v.sp.cur ∧ slice b 67 8 = inst v.sp.nxt ∧ (∀ n, v.sp.cur = some n → slice b 75 4 = leBytes 4 n.k)
      ∧ slice b 79 6 = ticks v.sp.sigmaP ∧ slice b 100 2 = [one (pages v.sp.cur), one (pages v.sp.nxt)]
      ∧ slice b 102 4 = leBytes 2 v.cond.flags.toNat ++ leBytes 2 v.cond.masks.toNat)
    ∧ (∀ i, (s.svc i).defn = none → (serviceBytes s i).length = 106 ∧ slice (serviceBytes s i) 0 34 = List.replicate 34 0
      ∧ slice (serviceBytes s i) 34 5 = [0xFF#8, 0xFF#8, 0, 0, 0] ∧ slice (serviceBytes s i) 59 8 = inst none
      ∧ slice (serviceBytes s i) 102 4 = [0, 0, 0xBF#8, 0x03#8])
    ∧ (∀ e : Entry, e.pod.length ≤ 4 →
      let b := entryBytes s e
      b.length = 69
      ∧ slice b 0 4 = [one e.num, one (port e.origin), one e.svc, one (level e.origin)]
      ∧ slice b 4 2 = (match e.st with
          | .pending => [0, 0] | .waiting .held => [1, 1] | .waiting .pool => [1, 2] | .waiting .clock => [1, 3]
          | .armed => [2, 0] | .active => [3, 0])
      ∧ slice b 6 7 = (match e.trigger with | .cue x => 0 :: leBytes 6 x | .time x => 1 :: leBytes 6 x | .now => [2, 0, 0, 0, 0, 0, 0])
      ∧ slice b 13 5 = (match e.retMode with | .cue => [0, 0, 0, 0, 0] | .duration x => 1 :: leBytes 4 x | .clipEnd => [2, 0, 0, 0, 0])
      ∧ slice b 18 5 = leBytes 4 e.window ++ [one e.pod.length]
      ∧ (∀ j, j < 4 → slice b (23 + 2 * j) 2 = id e.pod[j]?)
      ∧ slice b 31 5 = pts e.a
      ∧ (e.binding = none → slice b 36 15 = List.replicate 15 0)
      ∧ (∀ y, e.binding = some y → slice b 36 6 = [1] ++ leBytes 4 y.cueId ++ [y.flags]
          ∧ (∀ x, y.splice = some x → slice b 42 5 = leBytes 5 x) ∧ ∀ x, y.duration = some x → slice b 47 4 = leBytes 4 x)
      ∧ slice b 51 15 = pts e.s ++ pts e.sEff ++ pts e.e
      ∧ slice b 66 3 = [one e.podIdx, if e.cancelled then 1 else 0, one (heldLevel s e.svc)])
    ∧ (∀ seed start,
      let l := s.directory.filter (fun r => decide (start ≤ r.clip))
      let b := directoryBytes s seed start
      let n := (l.take 32).length
      slice b 0 1 = [one n]
      ∧ (∀ j r, j < 32 → l[j]? = some r → slice b (1 + 15 * j) 8 = leBytes 2 r.clip
          ++ [one (match r.region with | .alert => 0 | .main => 1),
              one (match r.st with | .ingesting => 0 | .good => 1 | .damaged => 2)] ++ leBytes 2 r.chain.length ++ leBytes 2 r.rate
        ∧ (∀ v, r.sealVals = some v → r.rate = v.rate ∧ slice b (9 + 15 * j) 4 = leBytes 4 v.k)
        ∧ (∀ d, r.sealVals = none → r.decl = some d → r.rate = d.rate)
        ∧ (∀ p, r.sealVals = none → unit p r.clip → slice b (9 + 15 * j) 4 = leBytes 4 (s.ingest p).stored)
        ∧ slice b (13 + 15 * j) 2 = leBytes 2 r.refs
        ∧ (r.st ≠ .ingesting → slice b (15 + 15 * j) 1 = [marker r.marker]))
      ∧ slice b (1 + 15 * n) 14 = id (if 32 < l.length then (l[31]?).map (fun r => r.clip + 1) else none)
          ++ leBytes 2 s.directory.length ++ leBytes 2 s.flash.freeA.length ++ leBytes 2 s.flash.dirtyA.length
          ++ leBytes 2 s.flash.freeM.length ++ leBytes 2 s.flash.dirtyM.length ++ leBytes 2 s.flash.bad.length)
    ∧ (∀ seed (r : ClipRec),
      let b := clipBytes s seed r
      let n := 2 * r.chain.length
      slice b 0 2 = [one (match r.region with | .alert => 0 | .main => 1),
        one (match r.st with | .ingesting => 0 | .good => 1 | .damaged => 2)]
      ∧ (r.st ≠ .ingesting → slice b 2 1 = [marker r.marker])
      ∧ slice b 3 3 = leBytes 2 r.refs ++ [one r.chain.length] ∧ slice b 6 n = r.chain.flatMap (leBytes 2)
      ∧ (∀ v, r.sealVals = some v → b.drop (6 + n) = leBytes 2 v.rate ++ leBytes 4 v.k ++ leBytes 2 v.blocks ++ comps v.comps
          ++ [one v.pcrIndex] ++ leBytes 5 v.c0 ++ leBytes 5 v.endPts ++ leBytes 6 v.pcr0 ++ leBytes 2 v.checksum
          ++ [one (port v.origin)])
      ∧ (∀ p, r.sealVals = none → unit p r.clip →
          let g := s.ingest p
          b.drop (6 + n) = leBytes 2 g.decl.rate ++ leBytes 4 g.decl.kDecl ++ comps g.decl.comps
            ++ [one g.decl.pcrIndex, one (port p)] ++ leBytes 4 g.stored ++ leBytes 2 g.handed ++ leBytes 2 g.programmed
            ++ pts g.c0 ++ ticks g.pcr0))

/-! ### The schedule -/

/-- Add Entry is refused by the first of R50's checks that fails, and changes nothing then: BADPARAM for its record, for return mode CUE
without a CUE trigger, and for a service that is not live; NOTFOUND for a clip that is not SEALED in the main region; BADPARAM for a
rate above the ceiling; FULL with 256 entries. That fields which a kind leaves unused must be 0 is log 38's. An accepted one takes the
lowest free number, holds a reference to each clip of its pod, and has the values of its command. With a CUE trigger, or a TIME trigger
not yet due, it stands PENDING. A TIME trigger that is due and a NOW trigger run the arming computation at once: without a lead the
entry is WAITING(CLOCK); with one, on a service that nothing holds and with room in the pool, a NOW entry is ARMED at the earliest
feasible point F (R50, R51, R53, R55, R56, R58, R60, R61). -/
def Obligations.AddEntryTakesEffectByItsTrigger : Prop :=
  (∀ (s : State) (p : PortId) (a : EntryArgs), s.takes p → p ≠ .ap →
    let answers := fun (st : Status) => ∃ t, exec (.addEntry p a) s = .next t ∧ s.onlyAnswers t p 0x20#8 st []
    let pod := a.pod.take a.podCount
    let sound := a.svc ≤ 47 ∧ 1 ≤ a.podCount ∧ a.podCount ≤ 4 ∧ (∀ c ∈ pod, c ≠ 0 ∧ c ≠ 65535)
      ∧ (∀ c ∈ a.pod.drop a.podCount, c = 0) ∧ a.trigKind ≤ 2 ∧ a.retKind ≤ 2
      ∧ (a.trigKind = 0 → a.trigValue < 65536) ∧ (a.trigKind = 1 → a.trigValue < nClk) ∧ (a.trigKind = 2 → a.trigValue = 0)
      ∧ (a.retKind = 1 → 1 ≤ a.duration ∧ a.duration ≤ 324000000) ∧ (a.retKind ≠ 1 → a.duration = 0)
      ∧ a.window ≤ 900000 ∧ a.res = 0
    let cue := a.retKind = 0 → a.trigKind = 0
    let live := ∃ d, (s.svc a.svc).defn = some d ∧ (s.lane d.lane).mode = .running
    let found := ∀ c ∈ pod, ∃ r, s.clip c = some r ∧ r.st = .good ∧ r.region = .main
    let within := ∀ d c r v, (s.svc a.svc).defn = some d → c ∈ pod → s.clip c = some r → r.sealVals = some v → v.rate ≤ d.ceiling
    (¬sound ∨ ¬cue ∨ ¬live → answers .badparam)
    ∧ (sound → cue → live → ¬found → answers .notfound)
    ∧ (sound → cue → live → found → ¬within → answers .badparam)
    ∧ (sound → cue → live → found → within → (∀ n, n < 256 → (s.entry n).isSome = true) → answers .full))
  ∧ ∀ (s : State) (p : PortId) (a : EntryArgs) (k n : Nat), s.takes p → p ≠ .ap → entryArgsOk a = true →
    (a.retKind = 0 → a.trigKind = 0) → s.laneOf a.svc = some k → (s.lane k).mode = .running →
    let pod := a.pod.take a.podCount
    (∀ c ∈ pod, playable s c = true) → podRate s pod ≤ (((s.svc a.svc).defn.map (·.ceiling)).getD 0) →
    n < 256 → s.entry n = none → (∀ m, m < n → (s.entry m).isSome = true) →
    let v := (s.svc a.svc).clk
    let now := (s.localCount + v.sigma) % nClk
    let due := v.st ≠ .unlocked ∧ atOrAfter nClk now (subMod nClk a.trigValue ((s.lane k).cfg.preroll * 27000)) = true
    let trigger : Trigger := if a.trigKind = 0 then .cue a.trigValue else if a.trigKind = 1 then .time a.trigValue else .now
    let added : Entry := { num := n, origin := p, svc := a.svc, trigger := trigger, pod := pod
                           retMode := retModeOf a.retKind a.duration, window := a.window
                           st := .pending, a := none, binding := none, s := none, sEff := none, e := none,
                           commitment := 0, podIdx := 0, cancelled := false, xEnd := none, podEnded := false }
    let stands := fun (x : Entry) (u : State) => u.entry n = some x ∧ (∀ m, m ≠ n → u.entry m = s.entry m)
      ∧ ∀ c, u.clip c = (s.clip c).map (fun r => { r with refs := r.refs + pod.count c })
    let only := fun (x : Entry) (st cause : Byte) => ∃ u, exec (.addEntry p a) s = .next (answer (rest u) p .ok [byte1 n, st, cause])
      ∧ u = { s with dir := u.dir, entries := u.entries, links := u.links } ∧ stands x u
    (a.trigKind = 0 → only added 0 0)
    ∧ (a.trigKind = 1 → ¬due → only added 0 0)
    ∧ (a.trigKind = 1 → due → lead s a.svc = none → only { added with st := .waiting .clock } 1 3)
    ∧ (a.trigKind = 2 → v.st = .unlocked ∨ lead s a.svc = none → only { added with st := .waiting .clock } 1 3)
    ∧ (∀ f, a.trigKind = 2 → earliest s a.svc = some f → heldLevel s a.svc = 0 → (s.sp a.svc).nxt = none →
        committed s k + podRate s pod ≤ (s.lane k).cfg.pool →
        ∃ u, exec (.addEntry p a) s = .next (answer (rest u) p .ok [byte1 n, 2, 0])
          ∧ stands { added with st := .armed, s := some f, commitment := podRate s pod } u
          ∧ (∀ r, s.clip (pod.headD 0) = some r → r.sealVals.isSome = true →
              ∃ x, (u.sp a.svc).nxt = some x ∧ x.clip = pod.headD 0 ∧ x.owner = .entry n ∧ x.phase = .seeking ∧ x.s = some f)
          ∧ u = { s with dir := u.dir, entries := u.entries, services := u.services, boxes := u.boxes, links := u.links })

/-- Cancel Entry is refused NOTFOUND for a number that holds no entry and DENIED from another port than the entry's (R73). A PENDING or
WAITING entry ends CANCELLED: ENTRY_END at its port, its number free, its references released (R72, R73). An ARMED one ends in the same
way with its prefetch discarded, and its release re-evaluates the pool and the service (R67, R72). An ACTIVE one has its return cause
CANCEL: unless the return has begun, E becomes the estimate if the entry holds no earlier E, and without an estimate it is awaited from
the next lead PES start; a second Cancel changes nothing (R74). That a replaced E is not overdue and its search starts afresh
is log 53 (DESIGN CHOICE); that one still awaited stays so beside an E that is kept is log 69 (DESIGN CHOICE). -/
def Obligations.CancelEntryActsByState : Prop :=
  ∀ (s : State) (p : PortId) (n : Nat), s.takes p → p ≠ .ap → n ≤ 255 →
    (s.entry n = none → ∃ t, exec (.cancelEntry p n 0) s = .next t ∧ s.onlyAnswers t p 0x21#8 .notfound [])
    ∧ ∀ e, s.entry n = some e → e.num = n →
    (e.origin ≠ p → ∃ t, exec (.cancelEntry p n 0) s = .next t ∧ s.onlyAnswers t p 0x21#8 .denied [])
    ∧ (e.origin = p →
      let ended := fun (u : State) => u.entry n = none ∧ (∀ m, m ≠ n → u.entry m = s.entry m)
        ∧ (∀ q, u.box q = if q = p then
            pushBox (s.box q) (.entryEnd .cancelled n e.svc e.podIdx (e.pod.headD 0) e.sEff e.e) else s.box q)
        ∧ ∀ c, u.clip c = (s.clip c).map (fun r => { r with refs := r.refs - e.pod.count c })
      let st : Byte := if e.st = .pending then 0 else if e.st = .armed then 2 else if e.st = .active then 3 else 1
      (e.st ≠ .armed → e.st ≠ .active → ∃ u, exec (.cancelEntry p n 0) s = .next (answer (rest u) p .ok [st])
        ∧ u = { s with dir := u.dir, entries := u.entries, boxes := u.boxes, links := u.links } ∧ ended u)
      ∧ (e.st = .armed → ∃ u, exec (.cancelEntry p n 0) s = .next (answer (rest (afterEnd u e.svc)) p .ok [st])
        ∧ u = { s with dir := u.dir, entries := u.entries, services := u.services, flash := u.flash, boxes := u.boxes
                       links := u.links }
        ∧ ended u ∧ (∀ j, j ≠ e.svc → u.svc j = s.svc j)
        ∧ (∀ x, (s.sp e.svc).nxt = some x → x.owner = .entry n → x.phase = .seeking → (u.sp e.svc).nxt = none)
        ∧ (∀ q, (s.sp e.svc).waiting = some q → q.owner = .entry n → (u.sp e.svc).waiting = none))
      ∧ (e.st = .active → ∃ u, exec (.cancelEntry p n 0) s = .next (answer (rest u) p .ok [st])
        ∧ u = { s with entries := u.entries, services := u.services, links := u.links }
        ∧ (∀ m, m ≠ n → u.entry m = s.entry m) ∧ (∀ j, j ≠ e.svc → u.svc j = s.svc j)
        ∧ (let begun := (s.sp e.svc).retBegun = true ∨ (s.sp e.svc).ret = .emergency
          let kept := u.entry n = some { e with cancelled := true } ∧ u.services = s.services
          (e.cancelled = true → u.entry n = some e ∧ u.services = s.services)
          ∧ (e.cancelled = false → begun → kept)
          ∧ (∀ x, e.cancelled = false → ¬begun → estimate s e.svc = some x →
              ((∃ y, e.e = some y ∧ sdiff nPts y x < 0) → kept)
              ∧ ((∀ y, e.e = some y → 0 ≤ sdiff nPts y x) →
                  u.entry n = some { e with cancelled := true, e := some x } ∧ (u.sp e.svc).ret = .returning x
                  ∧ (u.sp e.svc).retOverdue = false))
          ∧ (e.cancelled = false → ¬begun → estimate s e.svc = none →
              u.entry n = some { e with cancelled := true, e := none } ∧ (u.sp e.svc).fixE = true
              ∧ (u.sp e.svc).ret = .idle))))

/-! ### Ingest and clips -/

/-- Ingest Open is refused by the first of R154's checks that fails, and changes nothing then: BADPARAM for its record and component list;
INUSE outside NONE; from AP FAULT on an UNUSABLE region, PROTECTED under ALERT_INGEST_LOCK, BUSY during a Protection Release; BUSY in
supply state LOW; DUPLICATE; FULL with 512 records, and with fewer free blocks than ceil(K_decl / 2,752). An accepted one takes that
many blocks from the head of its region's free list as the chain of an INGESTING record with no references, opens the port's unit, and
answers with the number of blocks and the lead component's index (R154, R155), whose sizes are log 10's (DEDUCED). That a PID above
0x1FFF is no PID is log 30 (DEDUCED). -/
def Obligations.IngestOpenTakesItsChain : Prop :=
  ∀ (s : State) (p : PortId) (a : IngestArgs), s.takes p →
    let answers := fun (st : Status) => ∃ t, exec (.ingestOpen p a) s = .next t ∧ s.onlyAnswers t p 0x30#8 st []
    let r := if p = .ap then Region.alert else Region.main
    let n := (a.kDecl + 2751) / 2752
    let sound := 1 ≤ a.clip ∧ a.clip ≤ 65534 ∧ 100 ≤ a.rate ∧ a.rate ≤ 20000 ∧ 1 ≤ a.kDecl ∧ a.kDecl ≤ 327488
      ∧ 1 ≤ a.count ∧ a.count ≤ 8 ∧ a.pcrIndex < a.count ∧ a.res = 0 ∧ ∀ x ∈ a.positions.drop a.count, x.pid = 0 ∧ x.kind = 0
    let named := fun (cs : List Comp) => (∀ x ∈ cs, 16 ≤ x.pid ∧ x.pid < 0x1FFF) ∧ (cs.map (·.pid)).Nodup
      ∧ ∃ x ∈ cs, x.kind = .video ∨ x.kind = .audio
    (¬sound ∨ (∀ cs, takeComps a.count a.positions = some cs → ¬named cs) → answers .badparam)
    ∧ ∀ cs, sound → takeComps a.count a.positions = some cs → named cs →
      let idle := (s.ingest p).st = .none
      let lost := p = .ap ∧ s.flash.unusable = true
      let locked := p = .ap ∧ s.flash.prot.ingestLock = true
      let busy := p = .ap ∧ s.flash.release ≠ none ∨ s.flash.supply = .low
      let known := s.clip a.clip ≠ none
      let full := 512 ≤ s.directory.length ∨ (s.flash.free r).length < n
      (¬idle → answers .inuse) ∧ (idle → lost → answers .fault) ∧ (idle → ¬lost → locked → answers .protected_)
      ∧ (idle → ¬lost → ¬locked → busy → answers .busy) ∧ (idle → ¬lost → ¬locked → ¬busy → known → answers .duplicate)
      ∧ (idle → ¬lost → ¬locked → ¬busy → ¬known → full → answers .full)
      ∧ (idle → ¬lost → ¬locked → ¬busy → ¬known → ¬full →
        ∃ u j, exec (.ingestOpen p a) s = .next (answer (rest u) p .ok (leBytes 2 n ++ [byte1 j])) ∧ leadIdx cs = some j
          ∧ u = { s with flash := s.flash.setFree r ((s.flash.free r).drop n), dir := u.dir, ingests := u.ingests
                         links := u.links }
          ∧ (∃ x, u.clip a.clip = some x ∧ x.chain = (s.flash.free r).take n ∧ x.region = r ∧ x.st = .ingesting
              ∧ x.refs = 0 ∧ x.sealVals = none ∧ x.marker = .none
              ∧ x.decl = some { rate := a.rate, kDecl := a.kDecl, comps := cs, pcrIndex := a.pcrIndex })
          ∧ (∀ c, c ≠ a.clip → u.clip c = s.clip c)
          ∧ (u.ingest p).st = .open_ ∧ (u.ingest p).clip = a.clip ∧ (u.ingest p).stored = 0 ∧ (u.ingest p).sum = 0
          ∧ (u.ingest p).lead = j ∧ (u.ingest p).asm = [] ∧ (u.ingest p).bufA = { Buf.empty with st := .filling }
          ∧ (∀ q, q ≠ p → u.ingest q = s.ingest q))

/-- Ingest Data in OPEN: with a completed packet, or the frame's first byte on an empty assembler, other than 0x47 the ingest ends, its
record gone, its blocks dirty, its program in flight left to no requester, and the reply is BADPARAM. Over the declaration it is
refused FULL. Otherwise packets on declared PIDs are stored while they fit the free positions, the frame's tail stays in the assembler,
and the reply gives the packets stored; without room the frame is held and its reply with it (R156, R157). In NONE it is refused
NOTFOUND, in CLOSING and ENDING INUSE (R162). -/
def Obligations.IngestDataStoresDeclaredPackets : Prop :=
  ∀ (s : State) (p : PortId) (data : List Byte), s.takes p →
    let g := s.ingest p
    let answers := fun (st : Status) => ∃ t, exec (.ingestData p data) s = .next t ∧ s.onlyAnswers t p 0x31#8 st []
    let all := g.asm ++ data
    let ps := (List.range (all.length / 188)).map (fun j => (all.drop (188 * j)).take 188)
    let m := (ps.filter (fun b => g.decl.comps.any (fun c => c.pid == pktPid b))).length
    let bad := (∃ b ∈ ps, b.headD 0 ≠ 0x47#8) ∨ g.asm = [] ∧ data.headD 0 ≠ 0x47#8
    (g.st = .none → answers .notfound) ∧ (g.st = .closing ∨ g.st = .ending → answers .inuse)
    ∧ (∀ r, g.st = .open_ → bad → s.clip g.clip = some r → r.clip = g.clip →
      ∃ u, exec (.ingestData p data) s = .next (answer (rest u) p .badparam [])
        ∧ u = { s with dir := u.dir, flash := u.flash, ingests := u.ingests, links := u.links }
        ∧ (∀ c, u.clip c = if c = g.clip then none else s.clip c)
        ∧ (∀ q, u.ingest q = if q = p then Ingest.reset else s.ingest q)
        ∧ u.flash.dirty r.region = s.flash.dirty r.region ++ r.chain.map (fun b => { block := b, job := none })
        ∧ u.flash.op = s.flash.op.map (fun o => { o with orphan := o.orphan || o.req == .ingest p }))
    ∧ (g.st = .open_ → ¬bad → g.decl.kDecl < g.stored + m → answers .full)
    ∧ (g.st = .open_ → ¬bad → g.stored + m ≤ g.decl.kDecl → m ≤ g.freePositions →
      ∃ u, exec (.ingestData p data) s = .next (answer (rest u) p .ok (leBytes 4 (g.stored + m)))
        ∧ u = { s with ingests := u.ingests, links := u.links }
        ∧ (u.ingest p).stored = g.stored + m ∧ (u.ingest p).asm = all.drop (188 * (all.length / 188))
        ∧ (∀ q, q ≠ p → u.ingest q = s.ingest q))
    ∧ (g.st = .open_ → ¬bad → g.stored + m ≤ g.decl.kDecl → g.freePositions < m →
      ∃ t, exec (.ingestData p data) s = .next t
        ∧ t = { s with ingests := t.ingests, links := t.links }
        ∧ t.ingest p = { g with held := .data data }
        ∧ (t.link p).out = some { code := 0x31#8, reply := none })

/-- Ingest Close on an ingest that verifies: the unit is CLOSING, its assembler empty, its end PTS the first PTS plus the duration, and
the reply gives the checksum, C0, PCR0, the end, the packets stored and the bytes discarded. A FILLING buffer that holds packets is
handed as the last page; with both buffers EMPTY the unit requests the seal program, with the seal values of R121 (R158, R159,
R160). One that does not verify ends: VERIFY with a cause bit for each failed test, the record gone, its blocks dirty, the unit in
NONE (R159, R200). Ingest Abort with no program of the unit in flight ends the ingest at once in the same way; with one in flight
the unit is ENDING and the reply is held (R161). A unit in NONE is refused NOTFOUND, one past OPEN, or past ABORT, INUSE (R162). The
places of the cause bits are log 10's (DEDUCED). That a program of an earlier ingest, still in flight, is no program of the unit is
log 67 (DEDUCED). -/
def Obligations.IngestCloseVerifiesAndAbortEnds : Prop :=
  (∀ (s : State) (p : PortId) (sum d : Nat), s.takes p →
    let g := s.ingest p
    let answers := fun (st : Status) => ∃ t, exec (.ingestClose p sum d 0) s = .next t ∧ s.onlyAnswers t p 0x32#8 st []
    (d = 0 ∨ 324000000 < d → answers .badparam)
    ∧ (1 ≤ d → d ≤ 324000000 → (g.st = .none → answers .notfound) ∧ (g.st = .closing ∨ g.st = .ending → answers .inuse))
    ∧ (∀ x j v, 1 ≤ d → d ≤ 324000000 → g.st = .open_ → g.c0 = some x → g.pcr = some (j, v) → g.split = false →
      (65536 - g.sum % 65536) % 65536 = sum →
      let fin := (x + d) % nPts
      let pcr0 := subMod nClk v (j * 27000000 / g.decl.rate)
      ∃ u, exec (.ingestClose p sum d 0) s = .next (answer (rest u) p .ok (leBytes 2 sum ++ leBytes 5 x
          ++ leBytes 6 pcr0 ++ leBytes 5 fin ++ leBytes 4 g.stored ++ leBytes 2 g.asm.length))
        ∧ u = { s with ingests := u.ingests, links := u.links } ∧ (∀ q, q ≠ p → u.ingest q = s.ingest q)
        ∧ (u.ingest p).st = .closing ∧ (u.ingest p).asm = [] ∧ (u.ingest p).endPts = fin
        ∧ (u.ingest p).stored = g.stored
        ∧ (g.bufA.st = .filling → g.bufB.st = .empty → g.bufA.pkts ≠ [] →
            (u.ingest p).bufA = { g.bufA with st := .writing, page := g.handed } ∧ (u.ingest p).handed = g.handed + 1)
        ∧ (g.bufA.st = .filling → g.bufB.st = .empty → g.bufA.pkts = [] →
            (u.ingest p).request p = some (.sealing { rate := g.decl.rate, k := g.stored, blocks := (g.stored + 2751) / 2752
                                                      comps := g.decl.comps, pcrIndex := g.decl.pcrIndex, c0 := x
                                                      endPts := fin, pcr0 := pcr0, checksum := sum, origin := p })))
    ∧ (∀ r, 1 ≤ d → d ≤ 324000000 → g.st = .open_ → s.clip g.clip = some r → r.clip = g.clip →
      let cause := (if g.c0 = none then 1 else 0) + (if g.pcr = none then 2 else 0) + (if g.split = true then 4 else 0)
        + (if g.checksum = sum then 0 else 8)
      cause ≠ 0 → ∃ u, exec (.ingestClose p sum d 0) s = .next (answer (rest u) p .verify
          ([byte1 cause] ++ leBytes 2 g.checksum ++ leBytes 2 g.asm.length))
        ∧ u = { s with dir := u.dir, flash := u.flash, ingests := u.ingests, links := u.links }
        ∧ u.clip g.clip = none ∧ (∀ c, c ≠ g.clip → u.clip c = s.clip c) ∧ u.ingest p = Ingest.reset
        ∧ u.flash.dirty r.region = s.flash.dirty r.region ++ r.chain.map (fun b => { block := b, job := none })))
  ∧ (∀ (s : State) (p : PortId) (r : ClipRec), s.takes p → (s.ingest p).st = .open_ ∨ (s.ingest p).st = .closing →
       s.clip (s.ingest p).clip = some r → r.clip = (s.ingest p).clip →
       (ingestInFlight s p = false → ∃ u, exec (.ingestAbort p 0) s = .next (answer (rest u) p .ok [])
         ∧ u.clip (s.ingest p).clip = none ∧ u.ingest p = Ingest.reset
         ∧ u.flash.dirty r.region = s.flash.dirty r.region ++ r.chain.map (fun b => { block := b, job := none })
         ∧ u = { s with dir := u.dir, flash := u.flash, ingests := u.ingests, links := u.links })
       ∧ (ingestInFlight s p = true → ∃ t, exec (.ingestAbort p 0) s = .next t
         ∧ t = { s with ingests := t.ingests, links := t.links }
         ∧ t.ingest p = { s.ingest p with st := .ending, held := .abort }
         ∧ (t.link p).out = some { code := 0x33#8, reply := none }))
  ∧ (∀ (s : State) (p : PortId), s.takes p →
    let answers := fun (st : Status) => ∃ t, exec (.ingestAbort p 0) s = .next t ∧ s.onlyAnswers t p 0x33#8 st []
    ((s.ingest p).st = .none → answers .notfound) ∧ ((s.ingest p).st = .ending → answers .inuse))

/-- Clip Erase, checked in the order of R164, removes the record of an unreferenced clip of the port's region, withdraws
its queued damage marker, and puts its chain at the dirty list's tail with the command's identity and port. Clip
Checksum, checked in the order of R166, holds a reference to a SEALED or DAMAGED clip and starts at page 0. -/
def Obligations.ClipEraseAndChecksumAreCheckedInOrder : Prop :=
  ∀ (s : State) (p : PortId) (c res : Nat), s.takes p →
    let eraseAnswers := fun (st : Status) =>
      ∃ t, exec (.clipErase p c res) s = .next t ∧ s.onlyAnswers t p 0x34#8 st []
    let checkAnswers := fun (st : Status) =>
      ∃ t, exec (.clipChecksum p c res) s = .next t ∧ s.onlyAnswers t p 0x35#8 st []
    (c = 0 ∨ 65535 ≤ c ∨ res ≠ 0 → eraseAnswers .badparam ∧ checkAnswers .badparam)
    ∧ (1 ≤ c → c ≤ 65534 → res = 0 →
      (s.clip c = none → eraseAnswers .notfound ∧ checkAnswers .notfound)
      ∧ ∀ r, s.clip c = some r → r.clip = c →
        let locked := r.region = .alert ∧ s.flash.prot.eraseLock = true
        (r.region ≠ regionOf p → eraseAnswers .denied)
        ∧ (r.region = regionOf p → locked → eraseAnswers .protected_)
        ∧ (r.region = regionOf p → ¬locked → r.st = .ingesting ∨ 0 < r.refs → eraseAnswers .inuse)
        ∧ (r.region = regionOf p → ¬locked → r.st ≠ .ingesting → r.refs = 0 →
          ∃ u id, exec (.clipErase p c res) s = .next (answer (rest u) p .ok (leBytes 2 r.chain.length))
            ∧ u = { s with flash := u.flash, dir := u.dir, links := u.links }
            ∧ u.clip c = none ∧ (∀ x, x ≠ c → u.clip x = s.clip x)
            ∧ u.flash.freeA = s.flash.freeA ∧ u.flash.freeM = s.flash.freeM ∧ u.flash.bad = s.flash.bad
            ∧ u.flash.dirty r.region = s.flash.dirty r.region ++ r.chain.map (fun b => { block := b, job := some id })
            ∧ u.flash.markerQ = s.flash.markerQ.filter (fun m => !(m.damage && r.chain.head? == some m.block))
            ∧ (∀ x ∈ s.flash.jobs, x.id ≠ id)
            ∧ u.flash.jobs = s.flash.jobs ++ [{ id := id, p := p, clip := c, freed := 0, bad := 0 }])
        ∧ (r.st = .ingesting → checkAnswers .notfound)
        ∧ (r.st ≠ .ingesting → s.check p ≠ none → checkAnswers .inuse)
        ∧ (r.st ≠ .ingesting → s.check p = none →
          ∃ u, exec (.clipChecksum p c res) s = .next (answer (rest u) p .ok [])
            ∧ u = { s with dir := u.dir, checks := u.checks, links := u.links }
            ∧ u.clip c = some { r with refs := r.refs + 1 } ∧ u.check p = some { clip := c, page := 0, sum := 0 }))

/-! ### Alerts and protection -/

/-- Alert Preload is refused by the first of R172's checks that fails: BADPARAM for its slot, its clip id or its reserved field; BUSY
during a Protection Release; NOTFOUND for a clip that is not SEALED in the alert region. Without a clip a slot gives up the clip it
names: EMPTY, the reference released, its read in flight without a requester; an EMPTY slot is unchanged. The clip it names already
leaves the slot as it is. Another clip makes it give up the old one, then FILLING with a reference of the new one. The reply carries
each slot's state, clip id and pages held (R172); the sizes are log 10's (DEDUCED). -/
def Obligations.AlertPreloadFillsAndEmptiesSlot : Prop :=
  ∀ (s : State) (j named c res : Nat), s.takes .ap →
    let q := s.preload j
    let answers := fun (st : Status) =>
      ∃ t, exec (.alertPreload .ap j named c res) s = .next t ∧ s.onlyAnswers t .ap 0x40#8 st []
    let sound := j ≤ 3 ∧ (named = 0 ∧ c = 0 ∨ named = 1 ∧ 1 ≤ c ∧ c ≤ 65534) ∧ res = 0
    let known := named = 1 → ∃ r, s.clip c = some r ∧ r.st = .good ∧ r.region = .alert
    let slotBytes := fun (x : Preload) => byte1 (if x.st = .empty then 0 else if x.st = .filling then 1 else 2)
      :: (leBytes 2 (if x.st = .empty then 0xFFFF else x.clip) ++ leBytes 2 x.pages.length)
    let accepts := fun (u : State) =>
      exec (.alertPreload .ap j named c res) s = .next (answer (rest u) .ap .ok
        (slotBytes (u.preload 0) ++ slotBytes (u.preload 1) ++ slotBytes (u.preload 2) ++ slotBytes (u.preload 3)))
      ∧ (∀ x, x ≠ j → u.preload x = s.preload x)
    let unread := fun (u : State) => u.flash = { s.flash with
      op := s.flash.op.map (fun o => if o.req = .preload j then { o with orphan := true } else o) }
    (¬sound → answers .badparam)
    ∧ (sound → s.flash.release ≠ none → answers .busy)
    ∧ (sound → s.flash.release = none → ¬known → answers .notfound)
    ∧ (sound → s.flash.release = none → known →
      (named = 0 → q.st = .empty → ∃ u, accepts u ∧ u = { s with links := u.links })
      ∧ (named = 0 → q.st ≠ .empty → ∃ u, accepts u ∧ unread u
        ∧ u = { s with preloads := u.preloads, dir := u.dir, flash := u.flash, links := u.links }
        ∧ u.preload j = { st := .empty, clip := 0, pages := [] }
        ∧ ∀ x, u.clip x = (s.clip x).map (fun r => if x = q.clip then { r with refs := r.refs - 1 } else r))
      ∧ (named = 1 → q.st ≠ .empty → q.clip = c → ∃ u, accepts u ∧ u = { s with links := u.links })
      ∧ (named = 1 → q.st = .empty ∨ q.clip ≠ c → ∃ u, accepts u ∧ unread u
        ∧ u = { s with preloads := u.preloads, dir := u.dir, flash := u.flash, links := u.links }
        ∧ u.preload j = { st := .filling, clip := c, pages := [] }
        ∧ ∀ x, u.clip x = (s.clip x).map (fun r =>
            if x = c then { r with refs := r.refs + 1 }
            else if q.st ≠ .empty ∧ x = q.clip then { r with refs := r.refs - 1 } else r)))

/-- Alert Activate is refused by the first of R174's checks that fails: BADPARAM, NOTFOUND for a clip that is not SEALED in the alert
region, DUPLICATE, FULL without an IDLE record, INUSE with each target's reason when none would be taken. An accepted one makes the
lowest IDLE record ON with the timer running for its duration, and each target has its status: UNAVAILABLE when it is not live,
OTHER_ALERT when a record in ON holds it or it is DEFERRED in one, DEFERRED when a record in ENDING holds it, else HELD (R175). A HELD
target has its splice point (estimate + 9,000 when a READY preload slot names the clip, else + the lane's preroll; absent without an
estimate), its ARMED entry is demoted to WAITING(HELD), and a SEEKING level-3 instance of the clip is asked for; SLOWSTART stands
where no READY slot names the clip (R64, R176). The reply's layout, with a reason byte of 0, is the model's (log 10, DEDUCED). -/
def Obligations.AlertActivateHoldsService : Prop :=
  ∀ (s : State) (a : AlertArgs), s.takes .ap →
    let ts := a.targets.take a.count
    let answers := fun (st : Status) (bytes : List Byte) =>
      ∃ t, exec (.alertActivate .ap a) s = .next t ∧ s.onlyAnswers t .ap 0x41#8 st bytes
    let sound := a.alert ≠ 0 ∧ 1 ≤ a.count ∧ a.count ≤ 48 ∧ ts.Nodup ∧ (∀ i ∈ ts, i ≤ 47) ∧ (∀ i ∈ a.targets.drop a.count, i = 0)
      ∧ 1 ≤ a.clip ∧ a.clip ≤ 65534 ∧ 1 ≤ a.duration ∧ a.duration ≤ 7200 ∧ a.loop ≤ 1 ∧ a.res = 0
    let known := ∃ x, s.clip a.clip = some x ∧ x.st = .good ∧ x.region = .alert
    let twice := ∃ q, q < 4 ∧ (s.alert q).st ≠ .idle ∧ (s.alert q).id = a.alert
    let full := ∀ q, q < 4 → (s.alert q).st ≠ .idle
    let deferred := fun (i : Nat) => ∃ q, q < 4 ∧ (s.alert q).st ≠ .idle ∧ ∃ t ∈ (s.alert q).targets, t.svc = i ∧ t.status = .deferred
    let heldOn := fun (i : Nat) => ∃ q, holdingAlert s i = some q ∧ (s.alert q).st = .on
    let refused := fun (i : Nat) => s.live i = false ∨ heldOn i ∨ deferred i
    let ready := ∃ j, j < 4 ∧ (s.preload j).st = .ready ∧ (s.preload j).clip = a.clip
    (¬sound → answers .badparam [])
    ∧ (sound → ¬known → answers .notfound [])
    ∧ (sound → known → twice → answers .duplicate [])
    ∧ (sound → known → ¬twice → full → answers .full [])
    ∧ (sound → known → ¬twice → ¬full → (∀ i ∈ ts, refused i) →
        answers .inuse (ts.map (fun i => if s.live i then 1 else 2)))
    ∧ (∀ r, sound → known → ¬twice → ¬(∀ i ∈ ts, refused i) → r < 4 → (s.alert r).st = .idle →
      (∀ q, q < r → (s.alert q).st ≠ .idle) → Table.wf none s.entries = true → (∀ n x, s.entry n = some x → x.num = n) →
      ∃ u slow, exec (.alertActivate .ap a) s = .next (answer (rest u) .ap .ok ([byte1 r, byte1 ts.length]
            ++ (u.alert r).targets.flatMap (fun t => [
              if t.status = .held then 0 else if t.status = .deferred then 1 else 2,
              if t.status = .otherAlert then 1 else if t.status = .unavailable then 2 else 0,
              flagByte (slow && t.status == .held)])))
        ∧ (slow = false ↔ ready)
        ∧ (u.alert r).st = .on ∧ (u.alert r).id = a.alert ∧ (u.alert r).clip = a.clip ∧ (u.alert r).loop = (a.loop == 1)
        ∧ (u.alert r).timer = some s.localCount ∧ (u.alert r).remTicks = a.duration * 27000000 ∧ (u.alert r).cause = .none
        ∧ (∀ q, q ≠ r → u.alert q = s.alert q)
        ∧ (u.alert r).targets.map (·.svc) = ts
        ∧ (∀ t ∈ (u.alert r).targets, let i := t.svc
          (s.live i = false → t.status = .unavailable)
          ∧ (s.live i = true → heldOn i ∨ deferred i → t.status = .otherAlert)
          ∧ (s.live i = true → ¬heldOn i → ¬deferred i → holdingAlert s i ≠ none → t.status = .deferred)
          ∧ (s.live i = true → ¬deferred i → holdingAlert s i = none →
            t.status = .held ∧ t.cut = false ∧ t.e = none
            ∧ t.s = (estimate s i).map (fun e => (e + if slow then (s.cfgOf i).preroll * 90 else 9000) % nPts)
            ∧ (∀ e, armedEntry s i = some e → ∃ y, u.entry e.num = some y ∧ y.st = .waiting .held ∧ y.s = none ∧ y.commitment = 0)
            ∧ (∀ x v, s.clip a.clip = some x → x.sealVals = some v → (∀ n, (s.sp i).nxt = some n → n.phase = .seeking) →
                ∃ n, (u.sp i).nxt = some n ∧ n.clip = a.clip ∧ n.owner = .alert r ∧ n.phase = .seeking ∧ n.s = t.s)))
        ∧ ((∀ i ∈ ts, armedEntry s i = none) →
          (∀ x, s.clip a.clip = some x → u.clip a.clip = some { x with refs := x.refs + 1 })
          ∧ u = { s with alerts := u.alerts, dir := u.dir, services := u.services, boxes := u.boxes, links := u.links
                         flash := u.flash }
          ∧ (∀ j, j ∉ ts → u.svc j = s.svc j)))

/-- The first cut of a level-3 hold, from the clip of another owner that plays or from the network, marks its target as cut, and the
service's ACTIVE entry ends PREEMPTED; the cut of a loop repeat changes neither (R64, R177; for the return point that its packet can
bring with the clip DAMAGED, R178, see ClipCutOrExhaustionHandsOver). When its return ends, normal or by emergency, the splice
record is as after reset and the target is RELEASED: a record in ON in which the service is DEFERRED takes it from the network with S
formed at that moment, or gives the claim up as UNAVAILABLE when its clip is DAMAGED, and with no claim the service is released
(R99, R176, R181). A record without held targets then ends, VACATED when it was ON and nothing claims, by its end cause when it was
ENDING: ALERT_END at AP and its clip's reference released (R171, R181). That the end of a return is taken where no earlier act of
the engine is due is log 55 (DESIGN CHOICE), that the cut is judged on the observed state log 14 (DEDUCED). -/
def Obligations.AlertHoldCutsAndPassesOn : Prop :=
  let cutAt := fun (a : AlertRec) (i : Nat) =>
    { a with targets := a.targets.map (fun t => if t.svc = i then { t with cut := true } else t) }
  let point := fun (s : State) (i clip : Nat) => (estimate s i).map (fun e =>
    (e + if ∃ j, j < 4 ∧ (s.preload j).st = .ready ∧ (s.preload j).clip = clip then 9000 else (s.cfgOf i).preroll * 90) % nPts)
  (∀ (s : State) (i r c x y : Nat) (o nx : Inst) (b : Pkt) (t : Target),
    let p := s.sp i
    p.head = none → p.cur = some o → p.nxt = some nx → nx.phase = .seeking → p.ret = .idle → p.retBegun = false →
    o.packet = some b → o.leadComp = some c → o.compOf b = some c → o.isStopped c = false → nx.s = some x →
    seekOverdue s i nx = false → (pktPes b).map (fun q => (q.pts + o.delta.getD 0) % nPts) = some y →
    atOrAfter nPts y x = true → nx.owner = .alert r → (s.alert r).target i = some t →
    ∃ u, fillHead s i = some u
      ∧ (∃ z, (u.sp i).nxt = some z ∧ z.phase = .playing ∧ z.sEff = some y ∧ z.owner = .alert r)
      ∧ (t.cut = true → u.entries = s.entries ∧ (∀ q, q ≠ r → u.alert q = s.alert q)
        ∧ ((u.alert r).target i).map (·.cut) = some true
        ∧ (o.owner ≠ .alert r ∨ o.k + 1 ≠ o.sealVals.k ∨ (s.alert r).loop = true ∧ s.clipDamaged (s.alert r).clip = false →
            u.alerts = s.alerts))
      ∧ (t.cut = false → o.owner ≠ .alert r → u.alert r = cutAt (s.alert r) i ∧ (∀ q, q ≠ r → u.alert q = s.alert q) ∧ (u.sp i).ret = .idle
        ∧ (activeEntry s i = none → u.entries = s.entries)
        ∧ (∀ e, activeEntry s i = some e → Table.wf none s.entries = true → (∀ n z, s.entry n = some z → z.num = n) →
          u.entry e.num = none
          ∧ ((s.box e.origin).queue.length < 30 →
              Event.entryEnd .preempted e.num i e.podIdx (e.pod.headD 0) e.sEff e.e ∈ (u.box e.origin).queue))))
  ∧ (∀ (s : State) (k : Fin 4) (i j r y : Nat) (b : Pkt) (c : CompState) (n : Inst) (t : Target), s.examines k i j b →
    let s1 := s.observed k i j b
    let p := s1.sp i
    p.comps[j]? = some c → c.replaced = false → leadIdx (s.svc i).defComps = some j → p.fixE = false → p.nxt = some n →
    n.phase = .seeking → p.cur = none → p.ret ≠ .emergency → p.retBegun = false → n.overdue = false →
    (pktPes b).map (·.pts) = some y → (∀ x, n.s = some x → atOrAfter nPts y x = true) → n.owner = .alert r →
    (s1.alert r).target i = some t → t.cut = false → activeEntry s1 i = none →
    ∃ u, exec (.packetArrival k b) s = .next (rest u) ∧ u.alert r = cutAt (s1.alert r) i
      ∧ (∀ q, q ≠ r → u.alert q = s1.alert q) ∧ u.entries = s1.entries ∧ (u.sp i).ret = .idle
      ∧ ∃ z, (u.sp i).cur = some z ∧ z.phase = .playing ∧ z.sEff = some y ∧ z.owner = .alert r)
  ∧ (∀ (s : State) (i r : Nat) (t : Target),
    let p := s.sp i
    let a := s.alert r
    p.cur = none → p.nxt = none → p.waiting = none → p.ret ≠ .idle → p.retBegun = true →
    (∀ x ∈ p.comps, x.replaced = false ∧ x.unsent = false) → holdingAlert s i = some r → a.target i = some t → t.cut = true →
    let left := { a with targets := a.targets.map (fun x =>
      if x.svc = i then { x with status := .released, byEmergency := p.ret == .emergency } else x) }
    let claims := fun (q : Nat) => (s.alert q).st = .on ∧ ∃ x ∈ (s.alert q).targets, x.svc = i ∧ x.status = .deferred
    let first := fun (q : Nat) => q < 4 ∧ q ≠ r ∧ claims q ∧ ∀ m, m < q → m ≠ r → ¬claims m
    ((∀ q, q < 4 → q ≠ r → ¬claims q) → (∀ e ∈ s.schedule, e.svc = i → e.st ≠ .waiting .held) →
      let keeps := (∃ x ∈ left.targets, x.status = .held) ∨ a.st = .on ∧ ∃ x ∈ left.targets, x.status = .deferred
      ∃ u, svcStep s i = some u
        ∧ u = { s with services := u.services, alerts := u.alerts, dir := u.dir, boxes := u.boxes }
        ∧ (∀ l, l ≠ i → u.svc l = s.svc l)
        ∧ (u.sp i).ret = .idle ∧ (u.sp i).retBegun = false ∧ (u.sp i).cur = none ∧ (u.sp i).head = none
        ∧ (u.sp i).sigmaP = none ∧ (u.sp i).comps = p.comps.map (fun x => { CompState.reset with mark := x.mark })
        ∧ (keeps → u.alert r = left ∧ u.boxes = s.boxes ∧ u.dir = s.dir)
        ∧ (¬keeps → u.alert r = AlertRec.idle
          ∧ (∀ q, u.box q = if q = .ap then pushBox (s.box q)
              (.alertEnd (if a.st = .on then .vacated else a.cause) r a.id
                (left.targets.filter (fun x => x.status == .held || x.status == .released)).length
                (left.targets.filter (fun x => x.byEmergency)).length) else s.box q)
          ∧ ∀ c, u.clip c = (s.clip c).map (fun x => if c = a.clip then { x with refs := x.refs - 1 } else x)))
    ∧ (∀ q x v, first q → s.clip (s.alert q).clip = some x → x.st ≠ .damaged → x.sealVals = some v → armedEntry s i = none →
      ∃ u, svcStep s i = some u ∧ (u.sp i).ret = .idle
        ∧ (∃ y, (u.alert q).target i = some y ∧ y.status = .held ∧ y.cut = false ∧ y.s = point s i (s.alert q).clip
          ∧ ∃ n, (u.sp i).nxt = some n ∧ n.clip = (s.alert q).clip ∧ n.owner = .alert q ∧ n.phase = .seeking ∧ n.s = y.s)
        ∧ ((u.alert r).st = .idle ∨ u.alert r = left))
    ∧ (∀ q, first q → s.clipDamaged (s.alert q).clip = true →
      ∃ u, svcStep s i = some u
        ∧ ((u.alert q).st = .idle ∨ ∃ y, (u.alert q).target i = some y ∧ y.status = .unavailable)
        ∧ ((u.alert r).st = .idle ∨ u.alert r = left)))

/-- Protection Set, checked in the order of R183: BADPARAM without a lock, with a lock beyond the two or a non-zero reserved field; FAULT
on an UNUSABLE region; BUSY in supply state LOW, during a Protection Release, or while an earlier one's program is requested or in
flight; FULL with the four programs spent. Of an accepted one, a lock not yet set requests its program, and when the locks named are
set already, nothing is programmed; the reply gives the copy as it stands (R183), its locks in one byte and its count in one by log 10
(DEDUCED), also where nothing is programmed (log 75, DESIGN CHOICE). -/
def Obligations.ProtectionSetRequestsProgram : Prop :=
  (∀ (s : State) (locks : BitVec 8) (res : Nat), s.takes .ap → locks = 0#8 ∨ 4 ≤ locks.toNat ∨ res ≠ 0 →
    ∃ t, exec (.protectionSet .ap locks res) s = .next t ∧ s.onlyAnswers t .ap 0x43#8 .badparam [])
  ∧ ∀ (s : State) (i e : Bool), s.takes .ap → (i || e) = true →
    let locks : BitVec 8 := (if i then 1#8 else 0#8) ||| (if e then 2#8 else 0#8)
    let c := s.flash.prot
    let was : List Byte := [byte1 ((if c.ingestLock then 1 else 0) + (if c.eraseLock then 2 else 0)), byte1 c.count]
    let busy := s.flash.supply = .low ∨ s.flash.release ≠ none ∨ s.flash.protReq ≠ none
      ∨ ∃ o, s.flash.op = some o ∧ o.req = .protection
    (s.flash.unusable = true → ∃ t, exec (.protectionSet .ap locks 0) s = .next t ∧ s.onlyAnswers t .ap 0x43#8 .fault [])
    ∧ (s.flash.unusable = false → busy → ∃ t, exec (.protectionSet .ap locks 0) s = .next t ∧ s.onlyAnswers t .ap 0x43#8 .busy [])
    ∧ (s.flash.unusable = false → ¬busy →
        (c.count = 4 → ∃ t, exec (.protectionSet .ap locks 0) s = .next t ∧ s.onlyAnswers t .ap 0x43#8 .full [])
        ∧ (c.count ≠ 4 → (i = true → c.ingestLock = true) → (e = true → c.eraseLock = true) →
            ∃ t, exec (.protectionSet .ap locks 0) s = .next t ∧ s.onlyAnswers t .ap 0x43#8 .ok was)
        ∧ (c.count ≠ 4 → (i = true ∧ c.ingestLock = false) ∨ (e = true ∧ c.eraseLock = false) →
            ∃ u, exec (.protectionSet .ap locks 0) s = .next (answer (rest u) .ap .ok was)
              ∧ u = { s with flash := { s.flash with protReq := some (i, e) }, links := u.links }))

/-- Protection Release, checked in the order of R184, removes every alert clip with the damage marker it had queued, empties the alert
free list, makes every alert block but block 0 and the bad ones dirty in ascending order, each with the Clip Erase identity it carried,
and asks for the erase of block 0; the reply gives the clips removed and the blocks placed (R185). That the blocks counted are those
newly placed is log 32 (DEDUCED), the reply's sizes log 10 (DEDUCED). That a block whose erase is in flight is sorted into the ascending
list is the model's: log 65 (DESIGN CHOICE). -/
def Obligations.ProtectionReleaseClearsAlertRegion : Prop :=
  ∀ (s : State) (res : Nat), s.takes .ap →
    let answers := fun (st : Status) =>
      ∃ t, exec (.protectionRelease .ap res) s = .next t ∧ s.onlyAnswers t .ap 0x44#8 st []
    let busy := s.flash.supply = .low ∨ s.flash.release ≠ none ∨ protectionPending s.flash = true
    let held := (s.ingest .ap).st ≠ .none ∨ ∃ r ∈ s.directory, r.region = .alert ∧ 0 < r.refs
    let removed := s.directory.filter (fun r => r.region == .alert)
    (res ≠ 0 → answers .badparam)
    ∧ (res = 0 → s.flash.unusable = true → answers .fault)
    ∧ (res = 0 → s.flash.unusable = false → busy → answers .busy)
    ∧ (res = 0 → s.flash.unusable = false → ¬busy → s.flash.prot.eraseLock = true → answers .protected_)
    ∧ (res = 0 → s.flash.unusable = false → ¬busy → s.flash.prot.eraseLock = false → held → answers .inuse)
    ∧ (res = 0 → s.flash.unusable = false → ¬busy → s.flash.prot.eraseLock = false → ¬held →
      (∀ r ∈ s.directory, s.clip r.clip = some r) →
      ∃ u, exec (.protectionRelease .ap res) s = .next (answer (rest u) .ap .ok
          (leBytes 2 removed.length ++ leBytes 2 (u.flash.dirtyA.length - s.flash.dirtyA.length)))
        ∧ (∀ r ∈ s.directory, r.region = .alert → u.clip r.clip = none)
        ∧ u.flash.freeA = []
        ∧ u.flash.dirtyA.map (·.block) = (List.range' 1 255).filter (fun b => !s.flash.bad.contains b)
        ∧ (∀ x ∈ u.flash.dirtyA, x.job = (s.flash.dirtyA.find? (fun y => y.block == x.block)).bind (·.job))
        ∧ u.flash.jobs = s.flash.jobs
        ∧ u.flash.markerQ = s.flash.markerQ.filter (fun m =>
            !(m.damage && removed.any (fun r => r.chain.head? == some m.block)))
        ∧ u.flash.release = some { block0 := none, freed := 0, bad := 0 }
        ∧ u.flash.freeM = s.flash.freeM ∧ u.flash.dirtyM = s.flash.dirtyM ∧ u.flash.prot = s.flash.prot
        ∧ u = { s with dir := u.dir, flash := u.flash, links := u.links })
end

