-- ==== Sys2Proof/Laws/Tables.lean ====
section
/-! SUPPORT. The laws of the sparse tables: read after write, two writes, and the canonical form kept by every write. -/

namespace Sys2Proof.Machine

variable {α : Type}

theorem Table.get_insert_self (d : α) (k : Nat) (v : α) (t : Table α) (h : ∀ e ∈ t, e.1 ≠ k) :
    Table.get d (Table.insert k v t) k = v := by
  induction t with
  | nil => simp [Table.insert, Table.get]
  | cons e r ih =>
    obtain ⟨j, w⟩ := e
    have hj : j ≠ k := h (j, w) (by simp)
    unfold Table.insert
    split
    · simp [Table.get]
    · simpa [Table.get, hj] using ih (fun e he => h e (by simp [he]))

theorem Table.get_insert_ne (d : α) (k k' : Nat) (v : α) (t : Table α) (h : k' ≠ k) :
    Table.get d (Table.insert k v t) k' = Table.get d t k' := by
  induction t with
  | nil => simp [Table.insert, Table.get, Ne.symm h]
  | cons e r ih =>
    obtain ⟨j, w⟩ := e
    unfold Table.insert
    split
    · simp [Table.get, Ne.symm h]
    · simp [Table.get, ih]

theorem Table.get_filter_self (d : α) (k : Nat) (t : Table α) :
    Table.get d (t.filter (fun e => e.1 != k)) k = d := by
  induction t with
  | nil => rfl
  | cons e r ih =>
    obtain ⟨j, w⟩ := e
    by_cases hj : j = k
    · simpa [hj] using ih
    · simpa [hj, Table.get] using ih

theorem Table.get_filter_ne (d : α) (k k' : Nat) (t : Table α) (h : k' ≠ k) :
    Table.get d (t.filter (fun e => e.1 != k)) k' = Table.get d t k' := by
  induction t with
  | nil => rfl
  | cons e r ih =>
    obtain ⟨j, w⟩ := e
    by_cases hj : j = k
    · subst hj
      simpa [Table.get, Ne.symm h] using ih
    · simp only [List.filter_cons, bne_iff_ne, ne_eq, hj, not_false_eq_true, ↓reduceIte, Table.get, ih]

theorem Table.filter_free (k : Nat) (t : Table α) : ∀ e ∈ t.filter (fun e => e.1 != k), e.1 ≠ k := by
  intro e he
  simpa using (List.mem_filter.mp he).2

theorem Table.filter_insert (k : Nat) (v : α) (t : Table α) (h : ∀ e ∈ t, e.1 ≠ k) :
    (Table.insert k v t).filter (fun e => e.1 != k) = t := by
  induction t with
  | nil => simp [Table.insert]
  | cons e r ih =>
    obtain ⟨j, w⟩ := e
    have hj : j ≠ k := h (j, w) (by simp)
    have hr : ∀ e ∈ r, e.1 ≠ k := fun e he => h e (by simp [he])
    unfold Table.insert
    split
    · simp only [List.filter_cons, bne_self_eq_false, Bool.false_eq_true, ↓reduceIte]
      simp only [bne_iff_ne, ne_eq, hj, not_false_eq_true, ↓reduceIte, List.cons.injEq, true_and]
      exact List.filter_eq_self.mpr (fun e he => by simpa using hr e he)
    · simp [hj, ih hr]

theorem Table.mem_insert (k : Nat) (v : α) (t : Table α) (e : Nat × α) (h : e ∈ Table.insert k v t) :
    e = (k, v) ∨ e ∈ t := by
  induction t with
  | nil => simpa [Table.insert] using h
  | cons f r ih =>
    obtain ⟨j, w⟩ := f
    unfold Table.insert at h
    split at h
    · simpa using h
    · rcases List.mem_cons.mp h with h | h
      · exact .inr (by simp [h])
      · exact (ih h).imp id (fun h => by simp [h])

theorem Table.insert_pairwise (k : Nat) (v : α) (t : Table α) (hk : ∀ e ∈ t, e.1 ≠ k)
    (h : t.Pairwise (fun a b => a.1 < b.1)) : (Table.insert k v t).Pairwise (fun a b => a.1 < b.1) := by
  induction t with
  | nil => simp [Table.insert]
  | cons f r ih =>
    obtain ⟨j, w⟩ := f
    obtain ⟨hj, hr⟩ := List.pairwise_cons.mp h
    unfold Table.insert
    split
    · next hlt =>
      refine List.pairwise_cons.mpr ⟨?_, h⟩
      intro e he
      rcases List.mem_cons.mp he with he | he
      · simpa [he] using hlt
      · exact lt_trans hlt (hj e he)
    · next hlt =>
      have hne : j ≠ k := hk (j, w) (by simp)
      refine List.pairwise_cons.mpr ⟨?_, ih (fun e he => hk e (by simp [he])) hr⟩
      intro e he
      rcases Table.mem_insert k v r e he with he | he
      · subst he
        show j < k
        omega
      · exact hj e he

variable [DecidableEq α]

/-- A read after a write to the same key gives the value written. -/
@[simp] theorem Table.get_set_self (d : α) (t : Table α) (k : Nat) (v : α) :
    Table.get d (Table.set d t k v) k = v := by
  unfold Table.set
  split
  · simp_all [Table.get_filter_self]
  · exact Table.get_insert_self d k v _ (Table.filter_free k t)

/-- A write leaves every other key alone. -/
theorem Table.get_set_ne (d : α) (t : Table α) (k k' : Nat) (v : α) (h : k' ≠ k) :
    Table.get d (Table.set d t k v) k' = Table.get d t k' := by
  unfold Table.set
  split
  · exact Table.get_filter_ne d k k' t h
  · rw [Table.get_insert_ne d k k' v _ h, Table.get_filter_ne d k k' t h]

/-- A read after a write, at any key. -/
theorem Table.get_set (d : α) (t : Table α) (k k' : Nat) (v : α) :
    Table.get d (Table.set d t k v) k' = if k' = k then v else Table.get d t k' := by
  split
  · next h => subst h; exact Table.get_set_self d t _ v
  · next h => exact Table.get_set_ne d t k k' v h

/-- Of two writes to one key the later stands. -/
@[simp] theorem Table.set_set (d : α) (t : Table α) (k : Nat) (v w : α) :
    Table.set d (Table.set d t k v) k w = Table.set d t k w := by
  have key : (Table.set d t k v).filter (fun e => e.1 != k) = t.filter (fun e => e.1 != k) := by
    unfold Table.set
    split
    · exact List.filter_eq_self.mpr (fun e he => by simpa using Table.filter_free k t e he)
    · exact Table.filter_insert k v _ (Table.filter_free k t)
  show (if w = d then (Table.set d t k v).filter (fun e => e.1 != k)
    else Table.insert k w ((Table.set d t k v).filter (fun e => e.1 != k))) = _
  rw [key]
  rfl

/-! ### The canonical form -/

/-- The canonical form, said of the list: keys strictly rising and no default listed. -/
theorem Table.wf_iff (d : α) (t : Table α) :
    Table.wf d t = true ↔ t.Pairwise (fun a b => a.1 < b.1) ∧ ∀ e ∈ t, e.2 ≠ d := by
  induction t with
  | nil => simp [Table.wf]
  | cons e r ih =>
    obtain ⟨j, v⟩ := e
    cases r with
    | nil => simp [Table.wf]
    | cons f r =>
      obtain ⟨k, w⟩ := f
      simp only [Table.wf, Bool.and_eq_true, decide_eq_true_eq, ih, List.pairwise_cons, List.mem_cons, forall_eq_or_imp]
      constructor
      · rintro ⟨⟨hv, hjk⟩, ⟨hkr, hr⟩, hw, hd⟩
        exact ⟨⟨⟨hjk, fun e he => lt_trans hjk (hkr e he)⟩, hkr, hr⟩, hv, hw, hd⟩
      · rintro ⟨⟨⟨hjk, -⟩, hkr, hr⟩, hv, hw, hd⟩
        exact ⟨⟨hv, hjk⟩, ⟨hkr, hr⟩, hw, hd⟩

/-- Every write keeps the canonical form. -/
theorem Table.wf_set (d : α) (t : Table α) (k : Nat) (v : α) (h : Table.wf d t = true) :
    Table.wf d (Table.set d t k v) = true := by
  obtain ⟨hp, hd⟩ := (Table.wf_iff d t).mp h
  refine (Table.wf_iff d _).mpr ?_
  unfold Table.set
  split
  · exact ⟨hp.filter _, fun e he => hd e (List.mem_filter.mp he).1⟩
  · next hv =>
    refine ⟨Table.insert_pairwise k v _ (Table.filter_free k t) (hp.filter _), ?_⟩
    intro e he
    rcases Table.mem_insert k v _ e he with he | he
    · simpa [he] using hv
    · exact hd e (List.mem_filter.mp he).1

end Sys2Proof.Machine
end

