-- ==== Sys2Proof/Laws/State.lean ====
section
/-! SUPPORT. One lemma per field and accessor for each named update of State, true by rfl. -/

namespace Sys2Proof.Machine

variable (s : State)

/-! ### setLane -/

@[simp] theorem State.setLane_pending (k : Nat) (x : Lane) : (s.setLane k x).pending = s.pending := rfl
@[simp] theorem State.setLane_resetAsserted (k : Nat) (x : Lane) : (s.setLane k x).resetAsserted = s.resetAsserted := rfl
@[simp] theorem State.setLane_lowsupply (k : Nat) (x : Lane) : (s.setLane k x).lowsupply = s.lowsupply := rfl
@[simp] theorem State.setLane_refclk (k : Nat) (x : Lane) : (s.setLane k x).refclk = s.refclk := rfl
@[simp] theorem State.setLane_part (k : Nat) (x : Lane) : (s.setLane k x).part = s.part := rfl
@[simp] theorem State.setLane_localCount (k : Nat) (x : Lane) : (s.setLane k x).localCount = s.localCount := rfl
@[simp] theorem State.setLane_monitor (k : Nat) (x : Lane) : (s.setLane k x).monitor = s.monitor := rfl
@[simp] theorem State.setLane_backupCount (k : Nat) (x : Lane) : (s.setLane k x).backupCount = s.backupCount := rfl
@[simp] theorem State.setLane_restoreCount (k : Nat) (x : Lane) : (s.setLane k x).restoreCount = s.restoreCount := rfl
@[simp] theorem State.setLane_services (k : Nat) (x : Lane) : (s.setLane k x).services = s.services := rfl
@[simp] theorem State.setLane_entries (k : Nat) (x : Lane) : (s.setLane k x).entries = s.entries := rfl
@[simp] theorem State.setLane_alerts (k : Nat) (x : Lane) : (s.setLane k x).alerts = s.alerts := rfl
@[simp] theorem State.setLane_preloads (k : Nat) (x : Lane) : (s.setLane k x).preloads = s.preloads := rfl
@[simp] theorem State.setLane_dir (k : Nat) (x : Lane) : (s.setLane k x).dir = s.dir := rfl
@[simp] theorem State.setLane_flash (k : Nat) (x : Lane) : (s.setLane k x).flash = s.flash := rfl
@[simp] theorem State.setLane_ingests (k : Nat) (x : Lane) : (s.setLane k x).ingests = s.ingests := rfl
@[simp] theorem State.setLane_checks (k : Nat) (x : Lane) : (s.setLane k x).checks = s.checks := rfl
@[simp] theorem State.setLane_links (k : Nat) (x : Lane) : (s.setLane k x).links = s.links := rfl
@[simp] theorem State.setLane_boxes (k : Nat) (x : Lane) : (s.setLane k x).boxes = s.boxes := rfl
@[simp] theorem State.setLane_freeCtr (k : Nat) (x : Lane) : (s.setLane k x).freeCtr = s.freeCtr := rfl
@[simp] theorem State.setLane_svc (k : Nat) (x : Lane) (j : Nat) : (s.setLane k x).svc j = s.svc j := rfl
@[simp] theorem State.setLane_entry (k : Nat) (x : Lane) (j : Nat) : (s.setLane k x).entry j = s.entry j := rfl
@[simp] theorem State.setLane_alert (k : Nat) (x : Lane) (j : Nat) : (s.setLane k x).alert j = s.alert j := rfl
@[simp] theorem State.setLane_preload (k : Nat) (x : Lane) (j : Nat) : (s.setLane k x).preload j = s.preload j := rfl
@[simp] theorem State.setLane_clip (k : Nat) (x : Lane) (j : Nat) : (s.setLane k x).clip j = s.clip j := rfl
@[simp] theorem State.setLane_ingest (k : Nat) (x : Lane) (j : PortId) : (s.setLane k x).ingest j = s.ingest j := rfl
@[simp] theorem State.setLane_check (k : Nat) (x : Lane) (j : PortId) : (s.setLane k x).check j = s.check j := rfl
@[simp] theorem State.setLane_link (k : Nat) (x : Lane) (j : PortId) : (s.setLane k x).link j = s.link j := rfl
@[simp] theorem State.setLane_box (k : Nat) (x : Lane) (j : PortId) : (s.setLane k x).box j = s.box j := rfl

/-! ### setSvc -/

@[simp] theorem State.setSvc_pending (k : Nat) (x : Service) : (s.setSvc k x).pending = s.pending := rfl
@[simp] theorem State.setSvc_resetAsserted (k : Nat) (x : Service) : (s.setSvc k x).resetAsserted = s.resetAsserted := rfl
@[simp] theorem State.setSvc_lowsupply (k : Nat) (x : Service) : (s.setSvc k x).lowsupply = s.lowsupply := rfl
@[simp] theorem State.setSvc_refclk (k : Nat) (x : Service) : (s.setSvc k x).refclk = s.refclk := rfl
@[simp] theorem State.setSvc_part (k : Nat) (x : Service) : (s.setSvc k x).part = s.part := rfl
@[simp] theorem State.setSvc_localCount (k : Nat) (x : Service) : (s.setSvc k x).localCount = s.localCount := rfl
@[simp] theorem State.setSvc_monitor (k : Nat) (x : Service) : (s.setSvc k x).monitor = s.monitor := rfl
@[simp] theorem State.setSvc_backupCount (k : Nat) (x : Service) : (s.setSvc k x).backupCount = s.backupCount := rfl
@[simp] theorem State.setSvc_restoreCount (k : Nat) (x : Service) : (s.setSvc k x).restoreCount = s.restoreCount := rfl
@[simp] theorem State.setSvc_lanes (k : Nat) (x : Service) : (s.setSvc k x).lanes = s.lanes := rfl
@[simp] theorem State.setSvc_entries (k : Nat) (x : Service) : (s.setSvc k x).entries = s.entries := rfl
@[simp] theorem State.setSvc_alerts (k : Nat) (x : Service) : (s.setSvc k x).alerts = s.alerts := rfl
@[simp] theorem State.setSvc_preloads (k : Nat) (x : Service) : (s.setSvc k x).preloads = s.preloads := rfl
@[simp] theorem State.setSvc_dir (k : Nat) (x : Service) : (s.setSvc k x).dir = s.dir := rfl
@[simp] theorem State.setSvc_flash (k : Nat) (x : Service) : (s.setSvc k x).flash = s.flash := rfl
@[simp] theorem State.setSvc_ingests (k : Nat) (x : Service) : (s.setSvc k x).ingests = s.ingests := rfl
@[simp] theorem State.setSvc_checks (k : Nat) (x : Service) : (s.setSvc k x).checks = s.checks := rfl
@[simp] theorem State.setSvc_links (k : Nat) (x : Service) : (s.setSvc k x).links = s.links := rfl
@[simp] theorem State.setSvc_boxes (k : Nat) (x : Service) : (s.setSvc k x).boxes = s.boxes := rfl
@[simp] theorem State.setSvc_freeCtr (k : Nat) (x : Service) : (s.setSvc k x).freeCtr = s.freeCtr := rfl
@[simp] theorem State.setSvc_lane (k : Nat) (x : Service) (j : Nat) : (s.setSvc k x).lane j = s.lane j := rfl
@[simp] theorem State.setSvc_entry (k : Nat) (x : Service) (j : Nat) : (s.setSvc k x).entry j = s.entry j := rfl
@[simp] theorem State.setSvc_alert (k : Nat) (x : Service) (j : Nat) : (s.setSvc k x).alert j = s.alert j := rfl
@[simp] theorem State.setSvc_preload (k : Nat) (x : Service) (j : Nat) : (s.setSvc k x).preload j = s.preload j := rfl
@[simp] theorem State.setSvc_clip (k : Nat) (x : Service) (j : Nat) : (s.setSvc k x).clip j = s.clip j := rfl
@[simp] theorem State.setSvc_ingest (k : Nat) (x : Service) (j : PortId) : (s.setSvc k x).ingest j = s.ingest j := rfl
@[simp] theorem State.setSvc_check (k : Nat) (x : Service) (j : PortId) : (s.setSvc k x).check j = s.check j := rfl
@[simp] theorem State.setSvc_link (k : Nat) (x : Service) (j : PortId) : (s.setSvc k x).link j = s.link j := rfl
@[simp] theorem State.setSvc_box (k : Nat) (x : Service) (j : PortId) : (s.setSvc k x).box j = s.box j := rfl

/-! ### setEntry -/

@[simp] theorem State.setEntry_pending (k : Nat) (x : Option Entry) : (s.setEntry k x).pending = s.pending := rfl
@[simp] theorem State.setEntry_resetAsserted (k : Nat) (x : Option Entry) : (s.setEntry k x).resetAsserted = s.resetAsserted := rfl
@[simp] theorem State.setEntry_lowsupply (k : Nat) (x : Option Entry) : (s.setEntry k x).lowsupply = s.lowsupply := rfl
@[simp] theorem State.setEntry_refclk (k : Nat) (x : Option Entry) : (s.setEntry k x).refclk = s.refclk := rfl
@[simp] theorem State.setEntry_part (k : Nat) (x : Option Entry) : (s.setEntry k x).part = s.part := rfl
@[simp] theorem State.setEntry_localCount (k : Nat) (x : Option Entry) : (s.setEntry k x).localCount = s.localCount := rfl
@[simp] theorem State.setEntry_monitor (k : Nat) (x : Option Entry) : (s.setEntry k x).monitor = s.monitor := rfl
@[simp] theorem State.setEntry_backupCount (k : Nat) (x : Option Entry) : (s.setEntry k x).backupCount = s.backupCount := rfl
@[simp] theorem State.setEntry_restoreCount (k : Nat) (x : Option Entry) : (s.setEntry k x).restoreCount = s.restoreCount := rfl
@[simp] theorem State.setEntry_lanes (k : Nat) (x : Option Entry) : (s.setEntry k x).lanes = s.lanes := rfl
@[simp] theorem State.setEntry_services (k : Nat) (x : Option Entry) : (s.setEntry k x).services = s.services := rfl
@[simp] theorem State.setEntry_alerts (k : Nat) (x : Option Entry) : (s.setEntry k x).alerts = s.alerts := rfl
@[simp] theorem State.setEntry_preloads (k : Nat) (x : Option Entry) : (s.setEntry k x).preloads = s.preloads := rfl
@[simp] theorem State.setEntry_dir (k : Nat) (x : Option Entry) : (s.setEntry k x).dir = s.dir := rfl
@[simp] theorem State.setEntry_flash (k : Nat) (x : Option Entry) : (s.setEntry k x).flash = s.flash := rfl
@[simp] theorem State.setEntry_ingests (k : Nat) (x : Option Entry) : (s.setEntry k x).ingests = s.ingests := rfl
@[simp] theorem State.setEntry_checks (k : Nat) (x : Option Entry) : (s.setEntry k x).checks = s.checks := rfl
@[simp] theorem State.setEntry_links (k : Nat) (x : Option Entry) : (s.setEntry k x).links = s.links := rfl
@[simp] theorem State.setEntry_boxes (k : Nat) (x : Option Entry) : (s.setEntry k x).boxes = s.boxes := rfl
@[simp] theorem State.setEntry_freeCtr (k : Nat) (x : Option Entry) : (s.setEntry k x).freeCtr = s.freeCtr := rfl
@[simp] theorem State.setEntry_lane (k : Nat) (x : Option Entry) (j : Nat) : (s.setEntry k x).lane j = s.lane j := rfl
@[simp] theorem State.setEntry_svc (k : Nat) (x : Option Entry) (j : Nat) : (s.setEntry k x).svc j = s.svc j := rfl
@[simp] theorem State.setEntry_alert (k : Nat) (x : Option Entry) (j : Nat) : (s.setEntry k x).alert j = s.alert j := rfl
@[simp] theorem State.setEntry_preload (k : Nat) (x : Option Entry) (j : Nat) : (s.setEntry k x).preload j = s.preload j := rfl
@[simp] theorem State.setEntry_clip (k : Nat) (x : Option Entry) (j : Nat) : (s.setEntry k x).clip j = s.clip j := rfl
@[simp] theorem State.setEntry_ingest (k : Nat) (x : Option Entry) (j : PortId) : (s.setEntry k x).ingest j = s.ingest j := rfl
@[simp] theorem State.setEntry_check (k : Nat) (x : Option Entry) (j : PortId) : (s.setEntry k x).check j = s.check j := rfl
@[simp] theorem State.setEntry_link (k : Nat) (x : Option Entry) (j : PortId) : (s.setEntry k x).link j = s.link j := rfl
@[simp] theorem State.setEntry_box (k : Nat) (x : Option Entry) (j : PortId) : (s.setEntry k x).box j = s.box j := rfl

/-! ### setAlert -/

@[simp] theorem State.setAlert_pending (k : Nat) (x : AlertRec) : (s.setAlert k x).pending = s.pending := rfl
@[simp] theorem State.setAlert_resetAsserted (k : Nat) (x : AlertRec) : (s.setAlert k x).resetAsserted = s.resetAsserted := rfl
@[simp] theorem State.setAlert_lowsupply (k : Nat) (x : AlertRec) : (s.setAlert k x).lowsupply = s.lowsupply := rfl
@[simp] theorem State.setAlert_refclk (k : Nat) (x : AlertRec) : (s.setAlert k x).refclk = s.refclk := rfl
@[simp] theorem State.setAlert_part (k : Nat) (x : AlertRec) : (s.setAlert k x).part = s.part := rfl
@[simp] theorem State.setAlert_localCount (k : Nat) (x : AlertRec) : (s.setAlert k x).localCount = s.localCount := rfl
@[simp] theorem State.setAlert_monitor (k : Nat) (x : AlertRec) : (s.setAlert k x).monitor = s.monitor := rfl
@[simp] theorem State.setAlert_backupCount (k : Nat) (x : AlertRec) : (s.setAlert k x).backupCount = s.backupCount := rfl
@[simp] theorem State.setAlert_restoreCount (k : Nat) (x : AlertRec) : (s.setAlert k x).restoreCount = s.restoreCount := rfl
@[simp] theorem State.setAlert_lanes (k : Nat) (x : AlertRec) : (s.setAlert k x).lanes = s.lanes := rfl
@[simp] theorem State.setAlert_services (k : Nat) (x : AlertRec) : (s.setAlert k x).services = s.services := rfl
@[simp] theorem State.setAlert_entries (k : Nat) (x : AlertRec) : (s.setAlert k x).entries = s.entries := rfl
@[simp] theorem State.setAlert_preloads (k : Nat) (x : AlertRec) : (s.setAlert k x).preloads = s.preloads := rfl
@[simp] theorem State.setAlert_dir (k : Nat) (x : AlertRec) : (s.setAlert k x).dir = s.dir := rfl
@[simp] theorem State.setAlert_flash (k : Nat) (x : AlertRec) : (s.setAlert k x).flash = s.flash := rfl
@[simp] theorem State.setAlert_ingests (k : Nat) (x : AlertRec) : (s.setAlert k x).ingests = s.ingests := rfl
@[simp] theorem State.setAlert_checks (k : Nat) (x : AlertRec) : (s.setAlert k x).checks = s.checks := rfl
@[simp] theorem State.setAlert_links (k : Nat) (x : AlertRec) : (s.setAlert k x).links = s.links := rfl
@[simp] theorem State.setAlert_boxes (k : Nat) (x : AlertRec) : (s.setAlert k x).boxes = s.boxes := rfl
@[simp] theorem State.setAlert_freeCtr (k : Nat) (x : AlertRec) : (s.setAlert k x).freeCtr = s.freeCtr := rfl
@[simp] theorem State.setAlert_lane (k : Nat) (x : AlertRec) (j : Nat) : (s.setAlert k x).lane j = s.lane j := rfl
@[simp] theorem State.setAlert_svc (k : Nat) (x : AlertRec) (j : Nat) : (s.setAlert k x).svc j = s.svc j := rfl
@[simp] theorem State.setAlert_entry (k : Nat) (x : AlertRec) (j : Nat) : (s.setAlert k x).entry j = s.entry j := rfl
@[simp] theorem State.setAlert_preload (k : Nat) (x : AlertRec) (j : Nat) : (s.setAlert k x).preload j = s.preload j := rfl
@[simp] theorem State.setAlert_clip (k : Nat) (x : AlertRec) (j : Nat) : (s.setAlert k x).clip j = s.clip j := rfl
@[simp] theorem State.setAlert_ingest (k : Nat) (x : AlertRec) (j : PortId) : (s.setAlert k x).ingest j = s.ingest j := rfl
@[simp] theorem State.setAlert_check (k : Nat) (x : AlertRec) (j : PortId) : (s.setAlert k x).check j = s.check j := rfl
@[simp] theorem State.setAlert_link (k : Nat) (x : AlertRec) (j : PortId) : (s.setAlert k x).link j = s.link j := rfl
@[simp] theorem State.setAlert_box (k : Nat) (x : AlertRec) (j : PortId) : (s.setAlert k x).box j = s.box j := rfl

/-! ### setPreload -/

@[simp] theorem State.setPreload_pending (k : Nat) (x : Preload) : (s.setPreload k x).pending = s.pending := rfl
@[simp] theorem State.setPreload_resetAsserted (k : Nat) (x : Preload) : (s.setPreload k x).resetAsserted = s.resetAsserted := rfl
@[simp] theorem State.setPreload_lowsupply (k : Nat) (x : Preload) : (s.setPreload k x).lowsupply = s.lowsupply := rfl
@[simp] theorem State.setPreload_refclk (k : Nat) (x : Preload) : (s.setPreload k x).refclk = s.refclk := rfl
@[simp] theorem State.setPreload_part (k : Nat) (x : Preload) : (s.setPreload k x).part = s.part := rfl
@[simp] theorem State.setPreload_localCount (k : Nat) (x : Preload) : (s.setPreload k x).localCount = s.localCount := rfl
@[simp] theorem State.setPreload_monitor (k : Nat) (x : Preload) : (s.setPreload k x).monitor = s.monitor := rfl
@[simp] theorem State.setPreload_backupCount (k : Nat) (x : Preload) : (s.setPreload k x).backupCount = s.backupCount := rfl
@[simp] theorem State.setPreload_restoreCount (k : Nat) (x : Preload) : (s.setPreload k x).restoreCount = s.restoreCount := rfl
@[simp] theorem State.setPreload_lanes (k : Nat) (x : Preload) : (s.setPreload k x).lanes = s.lanes := rfl
@[simp] theorem State.setPreload_services (k : Nat) (x : Preload) : (s.setPreload k x).services = s.services := rfl
@[simp] theorem State.setPreload_entries (k : Nat) (x : Preload) : (s.setPreload k x).entries = s.entries := rfl
@[simp] theorem State.setPreload_alerts (k : Nat) (x : Preload) : (s.setPreload k x).alerts = s.alerts := rfl
@[simp] theorem State.setPreload_dir (k : Nat) (x : Preload) : (s.setPreload k x).dir = s.dir := rfl
@[simp] theorem State.setPreload_flash (k : Nat) (x : Preload) : (s.setPreload k x).flash = s.flash := rfl
@[simp] theorem State.setPreload_ingests (k : Nat) (x : Preload) : (s.setPreload k x).ingests = s.ingests := rfl
@[simp] theorem State.setPreload_checks (k : Nat) (x : Preload) : (s.setPreload k x).checks = s.checks := rfl
@[simp] theorem State.setPreload_links (k : Nat) (x : Preload) : (s.setPreload k x).links = s.links := rfl
@[simp] theorem State.setPreload_boxes (k : Nat) (x : Preload) : (s.setPreload k x).boxes = s.boxes := rfl
@[simp] theorem State.setPreload_freeCtr (k : Nat) (x : Preload) : (s.setPreload k x).freeCtr = s.freeCtr := rfl
@[simp] theorem State.setPreload_lane (k : Nat) (x : Preload) (j : Nat) : (s.setPreload k x).lane j = s.lane j := rfl
@[simp] theorem State.setPreload_svc (k : Nat) (x : Preload) (j : Nat) : (s.setPreload k x).svc j = s.svc j := rfl
@[simp] theorem State.setPreload_entry (k : Nat) (x : Preload) (j : Nat) : (s.setPreload k x).entry j = s.entry j := rfl
@[simp] theorem State.setPreload_alert (k : Nat) (x : Preload) (j : Nat) : (s.setPreload k x).alert j = s.alert j := rfl
@[simp] theorem State.setPreload_clip (k : Nat) (x : Preload) (j : Nat) : (s.setPreload k x).clip j = s.clip j := rfl
@[simp] theorem State.setPreload_ingest (k : Nat) (x : Preload) (j : PortId) : (s.setPreload k x).ingest j = s.ingest j := rfl
@[simp] theorem State.setPreload_check (k : Nat) (x : Preload) (j : PortId) : (s.setPreload k x).check j = s.check j := rfl
@[simp] theorem State.setPreload_link (k : Nat) (x : Preload) (j : PortId) : (s.setPreload k x).link j = s.link j := rfl
@[simp] theorem State.setPreload_box (k : Nat) (x : Preload) (j : PortId) : (s.setPreload k x).box j = s.box j := rfl

/-! ### setClip -/

@[simp] theorem State.setClip_pending (k : Nat) (x : Option ClipRec) : (s.setClip k x).pending = s.pending := rfl
@[simp] theorem State.setClip_resetAsserted (k : Nat) (x : Option ClipRec) : (s.setClip k x).resetAsserted = s.resetAsserted := rfl
@[simp] theorem State.setClip_lowsupply (k : Nat) (x : Option ClipRec) : (s.setClip k x).lowsupply = s.lowsupply := rfl
@[simp] theorem State.setClip_refclk (k : Nat) (x : Option ClipRec) : (s.setClip k x).refclk = s.refclk := rfl
@[simp] theorem State.setClip_part (k : Nat) (x : Option ClipRec) : (s.setClip k x).part = s.part := rfl
@[simp] theorem State.setClip_localCount (k : Nat) (x : Option ClipRec) : (s.setClip k x).localCount = s.localCount := rfl
@[simp] theorem State.setClip_monitor (k : Nat) (x : Option ClipRec) : (s.setClip k x).monitor = s.monitor := rfl
@[simp] theorem State.setClip_backupCount (k : Nat) (x : Option ClipRec) : (s.setClip k x).backupCount = s.backupCount := rfl
@[simp] theorem State.setClip_restoreCount (k : Nat) (x : Option ClipRec) : (s.setClip k x).restoreCount = s.restoreCount := rfl
@[simp] theorem State.setClip_lanes (k : Nat) (x : Option ClipRec) : (s.setClip k x).lanes = s.lanes := rfl
@[simp] theorem State.setClip_services (k : Nat) (x : Option ClipRec) : (s.setClip k x).services = s.services := rfl
@[simp] theorem State.setClip_entries (k : Nat) (x : Option ClipRec) : (s.setClip k x).entries = s.entries := rfl
@[simp] theorem State.setClip_alerts (k : Nat) (x : Option ClipRec) : (s.setClip k x).alerts = s.alerts := rfl
@[simp] theorem State.setClip_preloads (k : Nat) (x : Option ClipRec) : (s.setClip k x).preloads = s.preloads := rfl
@[simp] theorem State.setClip_flash (k : Nat) (x : Option ClipRec) : (s.setClip k x).flash = s.flash := rfl
@[simp] theorem State.setClip_ingests (k : Nat) (x : Option ClipRec) : (s.setClip k x).ingests = s.ingests := rfl
@[simp] theorem State.setClip_checks (k : Nat) (x : Option ClipRec) : (s.setClip k x).checks = s.checks := rfl
@[simp] theorem State.setClip_links (k : Nat) (x : Option ClipRec) : (s.setClip k x).links = s.links := rfl
@[simp] theorem State.setClip_boxes (k : Nat) (x : Option ClipRec) : (s.setClip k x).boxes = s.boxes := rfl
@[simp] theorem State.setClip_freeCtr (k : Nat) (x : Option ClipRec) : (s.setClip k x).freeCtr = s.freeCtr := rfl
@[simp] theorem State.setClip_lane (k : Nat) (x : Option ClipRec) (j : Nat) : (s.setClip k x).lane j = s.lane j := rfl
@[simp] theorem State.setClip_svc (k : Nat) (x : Option ClipRec) (j : Nat) : (s.setClip k x).svc j = s.svc j := rfl
@[simp] theorem State.setClip_entry (k : Nat) (x : Option ClipRec) (j : Nat) : (s.setClip k x).entry j = s.entry j := rfl
@[simp] theorem State.setClip_alert (k : Nat) (x : Option ClipRec) (j : Nat) : (s.setClip k x).alert j = s.alert j := rfl
@[simp] theorem State.setClip_preload (k : Nat) (x : Option ClipRec) (j : Nat) : (s.setClip k x).preload j = s.preload j := rfl
@[simp] theorem State.setClip_ingest (k : Nat) (x : Option ClipRec) (j : PortId) : (s.setClip k x).ingest j = s.ingest j := rfl
@[simp] theorem State.setClip_check (k : Nat) (x : Option ClipRec) (j : PortId) : (s.setClip k x).check j = s.check j := rfl
@[simp] theorem State.setClip_link (k : Nat) (x : Option ClipRec) (j : PortId) : (s.setClip k x).link j = s.link j := rfl
@[simp] theorem State.setClip_box (k : Nat) (x : Option ClipRec) (j : PortId) : (s.setClip k x).box j = s.box j := rfl

/-! ### setIngest -/

@[simp] theorem State.setIngest_pending (k : PortId) (x : Ingest) : (s.setIngest k x).pending = s.pending := rfl
@[simp] theorem State.setIngest_resetAsserted (k : PortId) (x : Ingest) : (s.setIngest k x).resetAsserted = s.resetAsserted := rfl
@[simp] theorem State.setIngest_lowsupply (k : PortId) (x : Ingest) : (s.setIngest k x).lowsupply = s.lowsupply := rfl
@[simp] theorem State.setIngest_refclk (k : PortId) (x : Ingest) : (s.setIngest k x).refclk = s.refclk := rfl
@[simp] theorem State.setIngest_part (k : PortId) (x : Ingest) : (s.setIngest k x).part = s.part := rfl
@[simp] theorem State.setIngest_localCount (k : PortId) (x : Ingest) : (s.setIngest k x).localCount = s.localCount := rfl
@[simp] theorem State.setIngest_monitor (k : PortId) (x : Ingest) : (s.setIngest k x).monitor = s.monitor := rfl
@[simp] theorem State.setIngest_backupCount (k : PortId) (x : Ingest) : (s.setIngest k x).backupCount = s.backupCount := rfl
@[simp] theorem State.setIngest_restoreCount (k : PortId) (x : Ingest) : (s.setIngest k x).restoreCount = s.restoreCount := rfl
@[simp] theorem State.setIngest_lanes (k : PortId) (x : Ingest) : (s.setIngest k x).lanes = s.lanes := rfl
@[simp] theorem State.setIngest_services (k : PortId) (x : Ingest) : (s.setIngest k x).services = s.services := rfl
@[simp] theorem State.setIngest_entries (k : PortId) (x : Ingest) : (s.setIngest k x).entries = s.entries := rfl
@[simp] theorem State.setIngest_alerts (k : PortId) (x : Ingest) : (s.setIngest k x).alerts = s.alerts := rfl
@[simp] theorem State.setIngest_preloads (k : PortId) (x : Ingest) : (s.setIngest k x).preloads = s.preloads := rfl
@[simp] theorem State.setIngest_dir (k : PortId) (x : Ingest) : (s.setIngest k x).dir = s.dir := rfl
@[simp] theorem State.setIngest_flash (k : PortId) (x : Ingest) : (s.setIngest k x).flash = s.flash := rfl
@[simp] theorem State.setIngest_checks (k : PortId) (x : Ingest) : (s.setIngest k x).checks = s.checks := rfl
@[simp] theorem State.setIngest_links (k : PortId) (x : Ingest) : (s.setIngest k x).links = s.links := rfl
@[simp] theorem State.setIngest_boxes (k : PortId) (x : Ingest) : (s.setIngest k x).boxes = s.boxes := rfl
@[simp] theorem State.setIngest_freeCtr (k : PortId) (x : Ingest) : (s.setIngest k x).freeCtr = s.freeCtr := rfl
@[simp] theorem State.setIngest_lane (k : PortId) (x : Ingest) (j : Nat) : (s.setIngest k x).lane j = s.lane j := rfl
@[simp] theorem State.setIngest_svc (k : PortId) (x : Ingest) (j : Nat) : (s.setIngest k x).svc j = s.svc j := rfl
@[simp] theorem State.setIngest_entry (k : PortId) (x : Ingest) (j : Nat) : (s.setIngest k x).entry j = s.entry j := rfl
@[simp] theorem State.setIngest_alert (k : PortId) (x : Ingest) (j : Nat) : (s.setIngest k x).alert j = s.alert j := rfl
@[simp] theorem State.setIngest_preload (k : PortId) (x : Ingest) (j : Nat) : (s.setIngest k x).preload j = s.preload j := rfl
@[simp] theorem State.setIngest_clip (k : PortId) (x : Ingest) (j : Nat) : (s.setIngest k x).clip j = s.clip j := rfl
@[simp] theorem State.setIngest_check (k : PortId) (x : Ingest) (j : PortId) : (s.setIngest k x).check j = s.check j := rfl
@[simp] theorem State.setIngest_link (k : PortId) (x : Ingest) (j : PortId) : (s.setIngest k x).link j = s.link j := rfl
@[simp] theorem State.setIngest_box (k : PortId) (x : Ingest) (j : PortId) : (s.setIngest k x).box j = s.box j := rfl

/-! ### setCheck -/

@[simp] theorem State.setCheck_pending (k : PortId) (x : Option Check) : (s.setCheck k x).pending = s.pending := rfl
@[simp] theorem State.setCheck_resetAsserted (k : PortId) (x : Option Check) : (s.setCheck k x).resetAsserted = s.resetAsserted := rfl
@[simp] theorem State.setCheck_lowsupply (k : PortId) (x : Option Check) : (s.setCheck k x).lowsupply = s.lowsupply := rfl
@[simp] theorem State.setCheck_refclk (k : PortId) (x : Option Check) : (s.setCheck k x).refclk = s.refclk := rfl
@[simp] theorem State.setCheck_part (k : PortId) (x : Option Check) : (s.setCheck k x).part = s.part := rfl
@[simp] theorem State.setCheck_localCount (k : PortId) (x : Option Check) : (s.setCheck k x).localCount = s.localCount := rfl
@[simp] theorem State.setCheck_monitor (k : PortId) (x : Option Check) : (s.setCheck k x).monitor = s.monitor := rfl
@[simp] theorem State.setCheck_backupCount (k : PortId) (x : Option Check) : (s.setCheck k x).backupCount = s.backupCount := rfl
@[simp] theorem State.setCheck_restoreCount (k : PortId) (x : Option Check) : (s.setCheck k x).restoreCount = s.restoreCount := rfl
@[simp] theorem State.setCheck_lanes (k : PortId) (x : Option Check) : (s.setCheck k x).lanes = s.lanes := rfl
@[simp] theorem State.setCheck_services (k : PortId) (x : Option Check) : (s.setCheck k x).services = s.services := rfl
@[simp] theorem State.setCheck_entries (k : PortId) (x : Option Check) : (s.setCheck k x).entries = s.entries := rfl
@[simp] theorem State.setCheck_alerts (k : PortId) (x : Option Check) : (s.setCheck k x).alerts = s.alerts := rfl
@[simp] theorem State.setCheck_preloads (k : PortId) (x : Option Check) : (s.setCheck k x).preloads = s.preloads := rfl
@[simp] theorem State.setCheck_dir (k : PortId) (x : Option Check) : (s.setCheck k x).dir = s.dir := rfl
@[simp] theorem State.setCheck_flash (k : PortId) (x : Option Check) : (s.setCheck k x).flash = s.flash := rfl
@[simp] theorem State.setCheck_ingests (k : PortId) (x : Option Check) : (s.setCheck k x).ingests = s.ingests := rfl
@[simp] theorem State.setCheck_links (k : PortId) (x : Option Check) : (s.setCheck k x).links = s.links := rfl
@[simp] theorem State.setCheck_boxes (k : PortId) (x : Option Check) : (s.setCheck k x).boxes = s.boxes := rfl
@[simp] theorem State.setCheck_freeCtr (k : PortId) (x : Option Check) : (s.setCheck k x).freeCtr = s.freeCtr := rfl
@[simp] theorem State.setCheck_lane (k : PortId) (x : Option Check) (j : Nat) : (s.setCheck k x).lane j = s.lane j := rfl
@[simp] theorem State.setCheck_svc (k : PortId) (x : Option Check) (j : Nat) : (s.setCheck k x).svc j = s.svc j := rfl
@[simp] theorem State.setCheck_entry (k : PortId) (x : Option Check) (j : Nat) : (s.setCheck k x).entry j = s.entry j := rfl
@[simp] theorem State.setCheck_alert (k : PortId) (x : Option Check) (j : Nat) : (s.setCheck k x).alert j = s.alert j := rfl
@[simp] theorem State.setCheck_preload (k : PortId) (x : Option Check) (j : Nat) : (s.setCheck k x).preload j = s.preload j := rfl
@[simp] theorem State.setCheck_clip (k : PortId) (x : Option Check) (j : Nat) : (s.setCheck k x).clip j = s.clip j := rfl
@[simp] theorem State.setCheck_ingest (k : PortId) (x : Option Check) (j : PortId) : (s.setCheck k x).ingest j = s.ingest j := rfl
@[simp] theorem State.setCheck_link (k : PortId) (x : Option Check) (j : PortId) : (s.setCheck k x).link j = s.link j := rfl
@[simp] theorem State.setCheck_box (k : PortId) (x : Option Check) (j : PortId) : (s.setCheck k x).box j = s.box j := rfl

/-! ### setLink -/

@[simp] theorem State.setLink_pending (k : PortId) (x : Link) : (s.setLink k x).pending = s.pending := rfl
@[simp] theorem State.setLink_resetAsserted (k : PortId) (x : Link) : (s.setLink k x).resetAsserted = s.resetAsserted := rfl
@[simp] theorem State.setLink_lowsupply (k : PortId) (x : Link) : (s.setLink k x).lowsupply = s.lowsupply := rfl
@[simp] theorem State.setLink_refclk (k : PortId) (x : Link) : (s.setLink k x).refclk = s.refclk := rfl
@[simp] theorem State.setLink_part (k : PortId) (x : Link) : (s.setLink k x).part = s.part := rfl
@[simp] theorem State.setLink_localCount (k : PortId) (x : Link) : (s.setLink k x).localCount = s.localCount := rfl
@[simp] theorem State.setLink_monitor (k : PortId) (x : Link) : (s.setLink k x).monitor = s.monitor := rfl
@[simp] theorem State.setLink_backupCount (k : PortId) (x : Link) : (s.setLink k x).backupCount = s.backupCount := rfl
@[simp] theorem State.setLink_restoreCount (k : PortId) (x : Link) : (s.setLink k x).restoreCount = s.restoreCount := rfl
@[simp] theorem State.setLink_lanes (k : PortId) (x : Link) : (s.setLink k x).lanes = s.lanes := rfl
@[simp] theorem State.setLink_services (k : PortId) (x : Link) : (s.setLink k x).services = s.services := rfl
@[simp] theorem State.setLink_entries (k : PortId) (x : Link) : (s.setLink k x).entries = s.entries := rfl
@[simp] theorem State.setLink_alerts (k : PortId) (x : Link) : (s.setLink k x).alerts = s.alerts := rfl
@[simp] theorem State.setLink_preloads (k : PortId) (x : Link) : (s.setLink k x).preloads = s.preloads := rfl
@[simp] theorem State.setLink_dir (k : PortId) (x : Link) : (s.setLink k x).dir = s.dir := rfl
@[simp] theorem State.setLink_flash (k : PortId) (x : Link) : (s.setLink k x).flash = s.flash := rfl
@[simp] theorem State.setLink_ingests (k : PortId) (x : Link) : (s.setLink k x).ingests = s.ingests := rfl
@[simp] theorem State.setLink_checks (k : PortId) (x : Link) : (s.setLink k x).checks = s.checks := rfl
@[simp] theorem State.setLink_boxes (k : PortId) (x : Link) : (s.setLink k x).boxes = s.boxes := rfl
@[simp] theorem State.setLink_freeCtr (k : PortId) (x : Link) : (s.setLink k x).freeCtr = s.freeCtr := rfl
@[simp] theorem State.setLink_lane (k : PortId) (x : Link) (j : Nat) : (s.setLink k x).lane j = s.lane j := rfl
@[simp] theorem State.setLink_svc (k : PortId) (x : Link) (j : Nat) : (s.setLink k x).svc j = s.svc j := rfl
@[simp] theorem State.setLink_entry (k : PortId) (x : Link) (j : Nat) : (s.setLink k x).entry j = s.entry j := rfl
@[simp] theorem State.setLink_alert (k : PortId) (x : Link) (j : Nat) : (s.setLink k x).alert j = s.alert j := rfl
@[simp] theorem State.setLink_preload (k : PortId) (x : Link) (j : Nat) : (s.setLink k x).preload j = s.preload j := rfl
@[simp] theorem State.setLink_clip (k : PortId) (x : Link) (j : Nat) : (s.setLink k x).clip j = s.clip j := rfl
@[simp] theorem State.setLink_ingest (k : PortId) (x : Link) (j : PortId) : (s.setLink k x).ingest j = s.ingest j := rfl
@[simp] theorem State.setLink_check (k : PortId) (x : Link) (j : PortId) : (s.setLink k x).check j = s.check j := rfl
@[simp] theorem State.setLink_box (k : PortId) (x : Link) (j : PortId) : (s.setLink k x).box j = s.box j := rfl

/-! ### setBox -/

@[simp] theorem State.setBox_pending (k : PortId) (x : Box) : (s.setBox k x).pending = s.pending := rfl
@[simp] theorem State.setBox_resetAsserted (k : PortId) (x : Box) : (s.setBox k x).resetAsserted = s.resetAsserted := rfl
@[simp] theorem State.setBox_lowsupply (k : PortId) (x : Box) : (s.setBox k x).lowsupply = s.lowsupply := rfl
@[simp] theorem State.setBox_refclk (k : PortId) (x : Box) : (s.setBox k x).refclk = s.refclk := rfl
@[simp] theorem State.setBox_part (k : PortId) (x : Box) : (s.setBox k x).part = s.part := rfl
@[simp] theorem State.setBox_localCount (k : PortId) (x : Box) : (s.setBox k x).localCount = s.localCount := rfl
@[simp] theorem State.setBox_monitor (k : PortId) (x : Box) : (s.setBox k x).monitor = s.monitor := rfl
@[simp] theorem State.setBox_backupCount (k : PortId) (x : Box) : (s.setBox k x).backupCount = s.backupCount := rfl
@[simp] theorem State.setBox_restoreCount (k : PortId) (x : Box) : (s.setBox k x).restoreCount = s.restoreCount := rfl
@[simp] theorem State.setBox_lanes (k : PortId) (x : Box) : (s.setBox k x).lanes = s.lanes := rfl
@[simp] theorem State.setBox_services (k : PortId) (x : Box) : (s.setBox k x).services = s.services := rfl
@[simp] theorem State.setBox_entries (k : PortId) (x : Box) : (s.setBox k x).entries = s.entries := rfl
@[simp] theorem State.setBox_alerts (k : PortId) (x : Box) : (s.setBox k x).alerts = s.alerts := rfl
@[simp] theorem State.setBox_preloads (k : PortId) (x : Box) : (s.setBox k x).preloads = s.preloads := rfl
@[simp] theorem State.setBox_dir (k : PortId) (x : Box) : (s.setBox k x).dir = s.dir := rfl
@[simp] theorem State.setBox_flash (k : PortId) (x : Box) : (s.setBox k x).flash = s.flash := rfl
@[simp] theorem State.setBox_ingests (k : PortId) (x : Box) : (s.setBox k x).ingests = s.ingests := rfl
@[simp] theorem State.setBox_checks (k : PortId) (x : Box) : (s.setBox k x).checks = s.checks := rfl
@[simp] theorem State.setBox_links (k : PortId) (x : Box) : (s.setBox k x).links = s.links := rfl
@[simp] theorem State.setBox_freeCtr (k : PortId) (x : Box) : (s.setBox k x).freeCtr = s.freeCtr := rfl
@[simp] theorem State.setBox_lane (k : PortId) (x : Box) (j : Nat) : (s.setBox k x).lane j = s.lane j := rfl
@[simp] theorem State.setBox_svc (k : PortId) (x : Box) (j : Nat) : (s.setBox k x).svc j = s.svc j := rfl
@[simp] theorem State.setBox_entry (k : PortId) (x : Box) (j : Nat) : (s.setBox k x).entry j = s.entry j := rfl
@[simp] theorem State.setBox_alert (k : PortId) (x : Box) (j : Nat) : (s.setBox k x).alert j = s.alert j := rfl
@[simp] theorem State.setBox_preload (k : PortId) (x : Box) (j : Nat) : (s.setBox k x).preload j = s.preload j := rfl
@[simp] theorem State.setBox_clip (k : PortId) (x : Box) (j : Nat) : (s.setBox k x).clip j = s.clip j := rfl
@[simp] theorem State.setBox_ingest (k : PortId) (x : Box) (j : PortId) : (s.setBox k x).ingest j = s.ingest j := rfl
@[simp] theorem State.setBox_check (k : PortId) (x : Box) (j : PortId) : (s.setBox k x).check j = s.check j := rfl
@[simp] theorem State.setBox_link (k : PortId) (x : Box) (j : PortId) : (s.setBox k x).link j = s.link j := rfl

/-! ### withFlash -/

@[simp] theorem State.withFlash_pending (f : Flash) : (s.withFlash f).pending = s.pending := rfl
@[simp] theorem State.withFlash_resetAsserted (f : Flash) : (s.withFlash f).resetAsserted = s.resetAsserted := rfl
@[simp] theorem State.withFlash_lowsupply (f : Flash) : (s.withFlash f).lowsupply = s.lowsupply := rfl
@[simp] theorem State.withFlash_refclk (f : Flash) : (s.withFlash f).refclk = s.refclk := rfl
@[simp] theorem State.withFlash_part (f : Flash) : (s.withFlash f).part = s.part := rfl
@[simp] theorem State.withFlash_localCount (f : Flash) : (s.withFlash f).localCount = s.localCount := rfl
@[simp] theorem State.withFlash_monitor (f : Flash) : (s.withFlash f).monitor = s.monitor := rfl
@[simp] theorem State.withFlash_backupCount (f : Flash) : (s.withFlash f).backupCount = s.backupCount := rfl
@[simp] theorem State.withFlash_restoreCount (f : Flash) : (s.withFlash f).restoreCount = s.restoreCount := rfl
@[simp] theorem State.withFlash_lanes (f : Flash) : (s.withFlash f).lanes = s.lanes := rfl
@[simp] theorem State.withFlash_services (f : Flash) : (s.withFlash f).services = s.services := rfl
@[simp] theorem State.withFlash_entries (f : Flash) : (s.withFlash f).entries = s.entries := rfl
@[simp] theorem State.withFlash_alerts (f : Flash) : (s.withFlash f).alerts = s.alerts := rfl
@[simp] theorem State.withFlash_preloads (f : Flash) : (s.withFlash f).preloads = s.preloads := rfl
@[simp] theorem State.withFlash_dir (f : Flash) : (s.withFlash f).dir = s.dir := rfl
@[simp] theorem State.withFlash_ingests (f : Flash) : (s.withFlash f).ingests = s.ingests := rfl
@[simp] theorem State.withFlash_checks (f : Flash) : (s.withFlash f).checks = s.checks := rfl
@[simp] theorem State.withFlash_links (f : Flash) : (s.withFlash f).links = s.links := rfl
@[simp] theorem State.withFlash_boxes (f : Flash) : (s.withFlash f).boxes = s.boxes := rfl
@[simp] theorem State.withFlash_freeCtr (f : Flash) : (s.withFlash f).freeCtr = s.freeCtr := rfl
@[simp] theorem State.withFlash_flash (f : Flash) : (s.withFlash f).flash = f := rfl
@[simp] theorem State.withFlash_lane (f : Flash) (j : Nat) : (s.withFlash f).lane j = s.lane j := rfl
@[simp] theorem State.withFlash_svc (f : Flash) (j : Nat) : (s.withFlash f).svc j = s.svc j := rfl
@[simp] theorem State.withFlash_entry (f : Flash) (j : Nat) : (s.withFlash f).entry j = s.entry j := rfl
@[simp] theorem State.withFlash_alert (f : Flash) (j : Nat) : (s.withFlash f).alert j = s.alert j := rfl
@[simp] theorem State.withFlash_preload (f : Flash) (j : Nat) : (s.withFlash f).preload j = s.preload j := rfl
@[simp] theorem State.withFlash_clip (f : Flash) (j : Nat) : (s.withFlash f).clip j = s.clip j := rfl
@[simp] theorem State.withFlash_ingest (f : Flash) (j : PortId) : (s.withFlash f).ingest j = s.ingest j := rfl
@[simp] theorem State.withFlash_check (f : Flash) (j : PortId) : (s.withFlash f).check j = s.check j := rfl
@[simp] theorem State.withFlash_link (f : Flash) (j : PortId) : (s.withFlash f).link j = s.link j := rfl
@[simp] theorem State.withFlash_box (f : Flash) (j : PortId) : (s.withFlash f).box j = s.box j := rfl

/-! ### Reads after writes -/

theorem portIdx_inj {p q : PortId} : portIdx p = portIdx q ↔ p = q := by
  cases p <;> cases q <;> simp [portIdx]

theorem State.lane_setLane (k : Nat) (x : Lane) (j : Nat) : (s.setLane k x).lane j = if j = k then x else s.lane j := by
  simp [State.lane, State.setLane, Table.get_set]
@[simp] theorem State.lane_setLane_self (k : Nat) (x : Lane) : (s.setLane k x).lane k = x := by simp [State.lane, State.setLane]
@[simp] theorem State.setLane_setLane (k : Nat) (x : Lane) (y : Lane) : (s.setLane k x).setLane k y = s.setLane k y := by simp [State.setLane]
theorem State.svc_setSvc (k : Nat) (x : Service) (j : Nat) : (s.setSvc k x).svc j = if j = k then x else s.svc j := by
  simp [State.svc, State.setSvc, Table.get_set]
@[simp] theorem State.svc_setSvc_self (k : Nat) (x : Service) : (s.setSvc k x).svc k = x := by simp [State.svc, State.setSvc]
@[simp] theorem State.setSvc_setSvc (k : Nat) (x : Service) (y : Service) : (s.setSvc k x).setSvc k y = s.setSvc k y := by simp [State.setSvc]
theorem State.entry_setEntry (k : Nat) (x : Option Entry) (j : Nat) : (s.setEntry k x).entry j = if j = k then x else s.entry j := by
  simp [State.entry, State.setEntry, Table.get_set]
@[simp] theorem State.entry_setEntry_self (k : Nat) (x : Option Entry) : (s.setEntry k x).entry k = x := by simp [State.entry, State.setEntry]
@[simp] theorem State.setEntry_setEntry (k : Nat) (x : Option Entry) (y : Option Entry) : (s.setEntry k x).setEntry k y = s.setEntry k y := by simp [State.setEntry]
theorem State.alert_setAlert (k : Nat) (x : AlertRec) (j : Nat) : (s.setAlert k x).alert j = if j = k then x else s.alert j := by
  simp [State.alert, State.setAlert, Table.get_set]
@[simp] theorem State.alert_setAlert_self (k : Nat) (x : AlertRec) : (s.setAlert k x).alert k = x := by simp [State.alert, State.setAlert]
@[simp] theorem State.setAlert_setAlert (k : Nat) (x : AlertRec) (y : AlertRec) : (s.setAlert k x).setAlert k y = s.setAlert k y := by simp [State.setAlert]
theorem State.preload_setPreload (k : Nat) (x : Preload) (j : Nat) : (s.setPreload k x).preload j = if j = k then x else s.preload j := by
  simp [State.preload, State.setPreload, Table.get_set]
@[simp] theorem State.preload_setPreload_self (k : Nat) (x : Preload) : (s.setPreload k x).preload k = x := by simp [State.preload, State.setPreload]
@[simp] theorem State.setPreload_setPreload (k : Nat) (x : Preload) (y : Preload) : (s.setPreload k x).setPreload k y = s.setPreload k y := by simp [State.setPreload]
theorem State.clip_setClip (k : Nat) (x : Option ClipRec) (j : Nat) : (s.setClip k x).clip j = if j = k then x else s.clip j := by
  simp [State.clip, State.setClip, Table.get_set]
@[simp] theorem State.clip_setClip_self (k : Nat) (x : Option ClipRec) : (s.setClip k x).clip k = x := by simp [State.clip, State.setClip]
@[simp] theorem State.setClip_setClip (k : Nat) (x : Option ClipRec) (y : Option ClipRec) : (s.setClip k x).setClip k y = s.setClip k y := by simp [State.setClip]
theorem State.ingest_setIngest (k : PortId) (x : Ingest) (j : PortId) : (s.setIngest k x).ingest j = if j = k then x else s.ingest j := by
  simp [State.ingest, State.setIngest, Table.get_set, portIdx_inj]
@[simp] theorem State.ingest_setIngest_self (k : PortId) (x : Ingest) : (s.setIngest k x).ingest k = x := by simp [State.ingest, State.setIngest]
@[simp] theorem State.setIngest_setIngest (k : PortId) (x : Ingest) (y : Ingest) : (s.setIngest k x).setIngest k y = s.setIngest k y := by simp [State.setIngest]
theorem State.check_setCheck (k : PortId) (x : Option Check) (j : PortId) : (s.setCheck k x).check j = if j = k then x else s.check j := by
  simp [State.check, State.setCheck, Table.get_set, portIdx_inj]
@[simp] theorem State.check_setCheck_self (k : PortId) (x : Option Check) : (s.setCheck k x).check k = x := by simp [State.check, State.setCheck]
@[simp] theorem State.setCheck_setCheck (k : PortId) (x : Option Check) (y : Option Check) : (s.setCheck k x).setCheck k y = s.setCheck k y := by simp [State.setCheck]
theorem State.link_setLink (k : PortId) (x : Link) (j : PortId) : (s.setLink k x).link j = if j = k then x else s.link j := by
  simp [State.link, State.setLink, Table.get_set, portIdx_inj]
@[simp] theorem State.link_setLink_self (k : PortId) (x : Link) : (s.setLink k x).link k = x := by simp [State.link, State.setLink]
@[simp] theorem State.setLink_setLink (k : PortId) (x : Link) (y : Link) : (s.setLink k x).setLink k y = s.setLink k y := by simp [State.setLink]
theorem State.box_setBox (k : PortId) (x : Box) (j : PortId) : (s.setBox k x).box j = if j = k then x else s.box j := by
  simp [State.box, State.setBox, Table.get_set, portIdx_inj]
@[simp] theorem State.box_setBox_self (k : PortId) (x : Box) : (s.setBox k x).box k = x := by simp [State.box, State.setBox]
@[simp] theorem State.setBox_setBox (k : PortId) (x : Box) (y : Box) : (s.setBox k x).setBox k y = s.setBox k y := by simp [State.setBox]

/-! ### Composite updates -/

theorem State.svc_modSvc (i j : Nat) (f : Service → Service) :
    (s.modSvc i f).svc j = if j = i then f (s.svc i) else s.svc j := State.svc_setSvc s i (f (s.svc i)) j
theorem State.sp_modSp (i j : Nat) (f : SpliceRec → SpliceRec) :
    (s.modSp i f).sp j = if j = i then f (s.sp i) else s.sp j := by
  unfold State.modSp State.sp
  rw [State.svc_modSvc]
  split <;> rfl
@[simp] theorem State.modFlash_flash (f : Flash → Flash) : (s.modFlash f).flash = f s.flash := rfl
@[simp] theorem State.fresh_fst : s.fresh.1 = s.freeCtr := rfl

@[simp] theorem State.modSvc_pending (i : Nat) (f : Service → Service) : (s.modSvc i f).pending = s.pending := rfl
@[simp] theorem State.modSvc_resetAsserted (i : Nat) (f : Service → Service) : (s.modSvc i f).resetAsserted = s.resetAsserted := rfl
@[simp] theorem State.modSvc_lowsupply (i : Nat) (f : Service → Service) : (s.modSvc i f).lowsupply = s.lowsupply := rfl
@[simp] theorem State.modSvc_refclk (i : Nat) (f : Service → Service) : (s.modSvc i f).refclk = s.refclk := rfl
@[simp] theorem State.modSvc_part (i : Nat) (f : Service → Service) : (s.modSvc i f).part = s.part := rfl
@[simp] theorem State.modSvc_localCount (i : Nat) (f : Service → Service) : (s.modSvc i f).localCount = s.localCount := rfl
@[simp] theorem State.modSvc_monitor (i : Nat) (f : Service → Service) : (s.modSvc i f).monitor = s.monitor := rfl
@[simp] theorem State.modSvc_backupCount (i : Nat) (f : Service → Service) : (s.modSvc i f).backupCount = s.backupCount := rfl
@[simp] theorem State.modSvc_restoreCount (i : Nat) (f : Service → Service) : (s.modSvc i f).restoreCount = s.restoreCount := rfl
@[simp] theorem State.modSvc_lanes (i : Nat) (f : Service → Service) : (s.modSvc i f).lanes = s.lanes := rfl
@[simp] theorem State.modSvc_entries (i : Nat) (f : Service → Service) : (s.modSvc i f).entries = s.entries := rfl
@[simp] theorem State.modSvc_alerts (i : Nat) (f : Service → Service) : (s.modSvc i f).alerts = s.alerts := rfl
@[simp] theorem State.modSvc_preloads (i : Nat) (f : Service → Service) : (s.modSvc i f).preloads = s.preloads := rfl
@[simp] theorem State.modSvc_dir (i : Nat) (f : Service → Service) : (s.modSvc i f).dir = s.dir := rfl
@[simp] theorem State.modSvc_flash (i : Nat) (f : Service → Service) : (s.modSvc i f).flash = s.flash := rfl
@[simp] theorem State.modSvc_ingests (i : Nat) (f : Service → Service) : (s.modSvc i f).ingests = s.ingests := rfl
@[simp] theorem State.modSvc_checks (i : Nat) (f : Service → Service) : (s.modSvc i f).checks = s.checks := rfl
@[simp] theorem State.modSvc_links (i : Nat) (f : Service → Service) : (s.modSvc i f).links = s.links := rfl
@[simp] theorem State.modSvc_boxes (i : Nat) (f : Service → Service) : (s.modSvc i f).boxes = s.boxes := rfl
@[simp] theorem State.modSvc_freeCtr (i : Nat) (f : Service → Service) : (s.modSvc i f).freeCtr = s.freeCtr := rfl
@[simp] theorem State.modSvc_lane (i : Nat) (f : Service → Service) (j : Nat) : (s.modSvc i f).lane j = s.lane j := rfl
@[simp] theorem State.modSvc_entry (i : Nat) (f : Service → Service) (j : Nat) : (s.modSvc i f).entry j = s.entry j := rfl
@[simp] theorem State.modSvc_alert (i : Nat) (f : Service → Service) (j : Nat) : (s.modSvc i f).alert j = s.alert j := rfl
@[simp] theorem State.modSvc_preload (i : Nat) (f : Service → Service) (j : Nat) : (s.modSvc i f).preload j = s.preload j := rfl
@[simp] theorem State.modSvc_clip (i : Nat) (f : Service → Service) (j : Nat) : (s.modSvc i f).clip j = s.clip j := rfl
@[simp] theorem State.modSvc_ingest (i : Nat) (f : Service → Service) (j : PortId) : (s.modSvc i f).ingest j = s.ingest j := rfl
@[simp] theorem State.modSvc_check (i : Nat) (f : Service → Service) (j : PortId) : (s.modSvc i f).check j = s.check j := rfl
@[simp] theorem State.modSvc_link (i : Nat) (f : Service → Service) (j : PortId) : (s.modSvc i f).link j = s.link j := rfl
@[simp] theorem State.modSvc_box (i : Nat) (f : Service → Service) (j : PortId) : (s.modSvc i f).box j = s.box j := rfl
@[simp] theorem State.modSp_pending (i : Nat) (f : SpliceRec → SpliceRec) : (s.modSp i f).pending = s.pending := rfl
@[simp] theorem State.modSp_resetAsserted (i : Nat) (f : SpliceRec → SpliceRec) : (s.modSp i f).resetAsserted = s.resetAsserted := rfl
@[simp] theorem State.modSp_lowsupply (i : Nat) (f : SpliceRec → SpliceRec) : (s.modSp i f).lowsupply = s.lowsupply := rfl
@[simp] theorem State.modSp_refclk (i : Nat) (f : SpliceRec → SpliceRec) : (s.modSp i f).refclk = s.refclk := rfl
@[simp] theorem State.modSp_part (i : Nat) (f : SpliceRec → SpliceRec) : (s.modSp i f).part = s.part := rfl
@[simp] theorem State.modSp_localCount (i : Nat) (f : SpliceRec → SpliceRec) : (s.modSp i f).localCount = s.localCount := rfl
@[simp] theorem State.modSp_monitor (i : Nat) (f : SpliceRec → SpliceRec) : (s.modSp i f).monitor = s.monitor := rfl
@[simp] theorem State.modSp_backupCount (i : Nat) (f : SpliceRec → SpliceRec) : (s.modSp i f).backupCount = s.backupCount := rfl
@[simp] theorem State.modSp_restoreCount (i : Nat) (f : SpliceRec → SpliceRec) : (s.modSp i f).restoreCount = s.restoreCount := rfl
@[simp] theorem State.modSp_lanes (i : Nat) (f : SpliceRec → SpliceRec) : (s.modSp i f).lanes = s.lanes := rfl
@[simp] theorem State.modSp_entries (i : Nat) (f : SpliceRec → SpliceRec) : (s.modSp i f).entries = s.entries := rfl
@[simp] theorem State.modSp_alerts (i : Nat) (f : SpliceRec → SpliceRec) : (s.modSp i f).alerts = s.alerts := rfl
@[simp] theorem State.modSp_preloads (i : Nat) (f : SpliceRec → SpliceRec) : (s.modSp i f).preloads = s.preloads := rfl
@[simp] theorem State.modSp_dir (i : Nat) (f : SpliceRec → SpliceRec) : (s.modSp i f).dir = s.dir := rfl
@[simp] theorem State.modSp_flash (i : Nat) (f : SpliceRec → SpliceRec) : (s.modSp i f).flash = s.flash := rfl
@[simp] theorem State.modSp_ingests (i : Nat) (f : SpliceRec → SpliceRec) : (s.modSp i f).ingests = s.ingests := rfl
@[simp] theorem State.modSp_checks (i : Nat) (f : SpliceRec → SpliceRec) : (s.modSp i f).checks = s.checks := rfl
@[simp] theorem State.modSp_links (i : Nat) (f : SpliceRec → SpliceRec) : (s.modSp i f).links = s.links := rfl
@[simp] theorem State.modSp_boxes (i : Nat) (f : SpliceRec → SpliceRec) : (s.modSp i f).boxes = s.boxes := rfl
@[simp] theorem State.modSp_freeCtr (i : Nat) (f : SpliceRec → SpliceRec) : (s.modSp i f).freeCtr = s.freeCtr := rfl
@[simp] theorem State.modSp_lane (i : Nat) (f : SpliceRec → SpliceRec) (j : Nat) : (s.modSp i f).lane j = s.lane j := rfl
@[simp] theorem State.modSp_entry (i : Nat) (f : SpliceRec → SpliceRec) (j : Nat) : (s.modSp i f).entry j = s.entry j := rfl
@[simp] theorem State.modSp_alert (i : Nat) (f : SpliceRec → SpliceRec) (j : Nat) : (s.modSp i f).alert j = s.alert j := rfl
@[simp] theorem State.modSp_preload (i : Nat) (f : SpliceRec → SpliceRec) (j : Nat) : (s.modSp i f).preload j = s.preload j := rfl
@[simp] theorem State.modSp_clip (i : Nat) (f : SpliceRec → SpliceRec) (j : Nat) : (s.modSp i f).clip j = s.clip j := rfl
@[simp] theorem State.modSp_ingest (i : Nat) (f : SpliceRec → SpliceRec) (j : PortId) : (s.modSp i f).ingest j = s.ingest j := rfl
@[simp] theorem State.modSp_check (i : Nat) (f : SpliceRec → SpliceRec) (j : PortId) : (s.modSp i f).check j = s.check j := rfl
@[simp] theorem State.modSp_link (i : Nat) (f : SpliceRec → SpliceRec) (j : PortId) : (s.modSp i f).link j = s.link j := rfl
@[simp] theorem State.modSp_box (i : Nat) (f : SpliceRec → SpliceRec) (j : PortId) : (s.modSp i f).box j = s.box j := rfl
@[simp] theorem State.modFlash_pending (f : Flash → Flash) : (s.modFlash f).pending = s.pending := rfl
@[simp] theorem State.modFlash_resetAsserted (f : Flash → Flash) : (s.modFlash f).resetAsserted = s.resetAsserted := rfl
@[simp] theorem State.modFlash_lowsupply (f : Flash → Flash) : (s.modFlash f).lowsupply = s.lowsupply := rfl
@[simp] theorem State.modFlash_refclk (f : Flash → Flash) : (s.modFlash f).refclk = s.refclk := rfl
@[simp] theorem State.modFlash_part (f : Flash → Flash) : (s.modFlash f).part = s.part := rfl
@[simp] theorem State.modFlash_localCount (f : Flash → Flash) : (s.modFlash f).localCount = s.localCount := rfl
@[simp] theorem State.modFlash_monitor (f : Flash → Flash) : (s.modFlash f).monitor = s.monitor := rfl
@[simp] theorem State.modFlash_backupCount (f : Flash → Flash) : (s.modFlash f).backupCount = s.backupCount := rfl
@[simp] theorem State.modFlash_restoreCount (f : Flash → Flash) : (s.modFlash f).restoreCount = s.restoreCount := rfl
@[simp] theorem State.modFlash_lanes (f : Flash → Flash) : (s.modFlash f).lanes = s.lanes := rfl
@[simp] theorem State.modFlash_services (f : Flash → Flash) : (s.modFlash f).services = s.services := rfl
@[simp] theorem State.modFlash_entries (f : Flash → Flash) : (s.modFlash f).entries = s.entries := rfl
@[simp] theorem State.modFlash_alerts (f : Flash → Flash) : (s.modFlash f).alerts = s.alerts := rfl
@[simp] theorem State.modFlash_preloads (f : Flash → Flash) : (s.modFlash f).preloads = s.preloads := rfl
@[simp] theorem State.modFlash_dir (f : Flash → Flash) : (s.modFlash f).dir = s.dir := rfl
@[simp] theorem State.modFlash_ingests (f : Flash → Flash) : (s.modFlash f).ingests = s.ingests := rfl
@[simp] theorem State.modFlash_checks (f : Flash → Flash) : (s.modFlash f).checks = s.checks := rfl
@[simp] theorem State.modFlash_links (f : Flash → Flash) : (s.modFlash f).links = s.links := rfl
@[simp] theorem State.modFlash_boxes (f : Flash → Flash) : (s.modFlash f).boxes = s.boxes := rfl
@[simp] theorem State.modFlash_freeCtr (f : Flash → Flash) : (s.modFlash f).freeCtr = s.freeCtr := rfl
@[simp] theorem State.modFlash_lane (f : Flash → Flash) (j : Nat) : (s.modFlash f).lane j = s.lane j := rfl
@[simp] theorem State.modFlash_svc (f : Flash → Flash) (j : Nat) : (s.modFlash f).svc j = s.svc j := rfl
@[simp] theorem State.modFlash_entry (f : Flash → Flash) (j : Nat) : (s.modFlash f).entry j = s.entry j := rfl
@[simp] theorem State.modFlash_alert (f : Flash → Flash) (j : Nat) : (s.modFlash f).alert j = s.alert j := rfl
@[simp] theorem State.modFlash_preload (f : Flash → Flash) (j : Nat) : (s.modFlash f).preload j = s.preload j := rfl
@[simp] theorem State.modFlash_clip (f : Flash → Flash) (j : Nat) : (s.modFlash f).clip j = s.clip j := rfl
@[simp] theorem State.modFlash_ingest (f : Flash → Flash) (j : PortId) : (s.modFlash f).ingest j = s.ingest j := rfl
@[simp] theorem State.modFlash_check (f : Flash → Flash) (j : PortId) : (s.modFlash f).check j = s.check j := rfl
@[simp] theorem State.modFlash_link (f : Flash → Flash) (j : PortId) : (s.modFlash f).link j = s.link j := rfl
@[simp] theorem State.modFlash_box (f : Flash → Flash) (j : PortId) : (s.modFlash f).box j = s.box j := rfl
@[simp] theorem State.modEntry_pending (n : Nat) (f : Entry → Entry) : (s.modEntry n f).pending = s.pending := rfl
@[simp] theorem State.modEntry_resetAsserted (n : Nat) (f : Entry → Entry) : (s.modEntry n f).resetAsserted = s.resetAsserted := rfl
@[simp] theorem State.modEntry_lowsupply (n : Nat) (f : Entry → Entry) : (s.modEntry n f).lowsupply = s.lowsupply := rfl
@[simp] theorem State.modEntry_refclk (n : Nat) (f : Entry → Entry) : (s.modEntry n f).refclk = s.refclk := rfl
@[simp] theorem State.modEntry_part (n : Nat) (f : Entry → Entry) : (s.modEntry n f).part = s.part := rfl
@[simp] theorem State.modEntry_localCount (n : Nat) (f : Entry → Entry) : (s.modEntry n f).localCount = s.localCount := rfl
@[simp] theorem State.modEntry_monitor (n : Nat) (f : Entry → Entry) : (s.modEntry n f).monitor = s.monitor := rfl
@[simp] theorem State.modEntry_backupCount (n : Nat) (f : Entry → Entry) : (s.modEntry n f).backupCount = s.backupCount := rfl
@[simp] theorem State.modEntry_restoreCount (n : Nat) (f : Entry → Entry) : (s.modEntry n f).restoreCount = s.restoreCount := rfl
@[simp] theorem State.modEntry_lanes (n : Nat) (f : Entry → Entry) : (s.modEntry n f).lanes = s.lanes := rfl
@[simp] theorem State.modEntry_services (n : Nat) (f : Entry → Entry) : (s.modEntry n f).services = s.services := rfl
@[simp] theorem State.modEntry_alerts (n : Nat) (f : Entry → Entry) : (s.modEntry n f).alerts = s.alerts := rfl
@[simp] theorem State.modEntry_preloads (n : Nat) (f : Entry → Entry) : (s.modEntry n f).preloads = s.preloads := rfl
@[simp] theorem State.modEntry_dir (n : Nat) (f : Entry → Entry) : (s.modEntry n f).dir = s.dir := rfl
@[simp] theorem State.modEntry_flash (n : Nat) (f : Entry → Entry) : (s.modEntry n f).flash = s.flash := rfl
@[simp] theorem State.modEntry_ingests (n : Nat) (f : Entry → Entry) : (s.modEntry n f).ingests = s.ingests := rfl
@[simp] theorem State.modEntry_checks (n : Nat) (f : Entry → Entry) : (s.modEntry n f).checks = s.checks := rfl
@[simp] theorem State.modEntry_links (n : Nat) (f : Entry → Entry) : (s.modEntry n f).links = s.links := rfl
@[simp] theorem State.modEntry_boxes (n : Nat) (f : Entry → Entry) : (s.modEntry n f).boxes = s.boxes := rfl
@[simp] theorem State.modEntry_freeCtr (n : Nat) (f : Entry → Entry) : (s.modEntry n f).freeCtr = s.freeCtr := rfl
@[simp] theorem State.modEntry_lane (n : Nat) (f : Entry → Entry) (j : Nat) : (s.modEntry n f).lane j = s.lane j := rfl
@[simp] theorem State.modEntry_svc (n : Nat) (f : Entry → Entry) (j : Nat) : (s.modEntry n f).svc j = s.svc j := rfl
@[simp] theorem State.modEntry_alert (n : Nat) (f : Entry → Entry) (j : Nat) : (s.modEntry n f).alert j = s.alert j := rfl
@[simp] theorem State.modEntry_preload (n : Nat) (f : Entry → Entry) (j : Nat) : (s.modEntry n f).preload j = s.preload j := rfl
@[simp] theorem State.modEntry_clip (n : Nat) (f : Entry → Entry) (j : Nat) : (s.modEntry n f).clip j = s.clip j := rfl
@[simp] theorem State.modEntry_ingest (n : Nat) (f : Entry → Entry) (j : PortId) : (s.modEntry n f).ingest j = s.ingest j := rfl
@[simp] theorem State.modEntry_check (n : Nat) (f : Entry → Entry) (j : PortId) : (s.modEntry n f).check j = s.check j := rfl
@[simp] theorem State.modEntry_link (n : Nat) (f : Entry → Entry) (j : PortId) : (s.modEntry n f).link j = s.link j := rfl
@[simp] theorem State.modEntry_box (n : Nat) (f : Entry → Entry) (j : PortId) : (s.modEntry n f).box j = s.box j := rfl
@[simp] theorem State.push_pending (p : PortId) (e : Event) : (s.push p e).pending = s.pending := rfl
@[simp] theorem State.push_resetAsserted (p : PortId) (e : Event) : (s.push p e).resetAsserted = s.resetAsserted := rfl
@[simp] theorem State.push_lowsupply (p : PortId) (e : Event) : (s.push p e).lowsupply = s.lowsupply := rfl
@[simp] theorem State.push_refclk (p : PortId) (e : Event) : (s.push p e).refclk = s.refclk := rfl
@[simp] theorem State.push_part (p : PortId) (e : Event) : (s.push p e).part = s.part := rfl
@[simp] theorem State.push_localCount (p : PortId) (e : Event) : (s.push p e).localCount = s.localCount := rfl
@[simp] theorem State.push_monitor (p : PortId) (e : Event) : (s.push p e).monitor = s.monitor := rfl
@[simp] theorem State.push_backupCount (p : PortId) (e : Event) : (s.push p e).backupCount = s.backupCount := rfl
@[simp] theorem State.push_restoreCount (p : PortId) (e : Event) : (s.push p e).restoreCount = s.restoreCount := rfl
@[simp] theorem State.push_lanes (p : PortId) (e : Event) : (s.push p e).lanes = s.lanes := rfl
@[simp] theorem State.push_services (p : PortId) (e : Event) : (s.push p e).services = s.services := rfl
@[simp] theorem State.push_entries (p : PortId) (e : Event) : (s.push p e).entries = s.entries := rfl
@[simp] theorem State.push_alerts (p : PortId) (e : Event) : (s.push p e).alerts = s.alerts := rfl
@[simp] theorem State.push_preloads (p : PortId) (e : Event) : (s.push p e).preloads = s.preloads := rfl
@[simp] theorem State.push_dir (p : PortId) (e : Event) : (s.push p e).dir = s.dir := rfl
@[simp] theorem State.push_flash (p : PortId) (e : Event) : (s.push p e).flash = s.flash := rfl
@[simp] theorem State.push_ingests (p : PortId) (e : Event) : (s.push p e).ingests = s.ingests := rfl
@[simp] theorem State.push_checks (p : PortId) (e : Event) : (s.push p e).checks = s.checks := rfl
@[simp] theorem State.push_links (p : PortId) (e : Event) : (s.push p e).links = s.links := rfl
@[simp] theorem State.push_freeCtr (p : PortId) (e : Event) : (s.push p e).freeCtr = s.freeCtr := rfl
@[simp] theorem State.push_lane (p : PortId) (e : Event) (j : Nat) : (s.push p e).lane j = s.lane j := rfl
@[simp] theorem State.push_svc (p : PortId) (e : Event) (j : Nat) : (s.push p e).svc j = s.svc j := rfl
@[simp] theorem State.push_entry (p : PortId) (e : Event) (j : Nat) : (s.push p e).entry j = s.entry j := rfl
@[simp] theorem State.push_alert (p : PortId) (e : Event) (j : Nat) : (s.push p e).alert j = s.alert j := rfl
@[simp] theorem State.push_preload (p : PortId) (e : Event) (j : Nat) : (s.push p e).preload j = s.preload j := rfl
@[simp] theorem State.push_clip (p : PortId) (e : Event) (j : Nat) : (s.push p e).clip j = s.clip j := rfl
@[simp] theorem State.push_ingest (p : PortId) (e : Event) (j : PortId) : (s.push p e).ingest j = s.ingest j := rfl
@[simp] theorem State.push_check (p : PortId) (e : Event) (j : PortId) : (s.push p e).check j = s.check j := rfl
@[simp] theorem State.push_link (p : PortId) (e : Event) (j : PortId) : (s.push p e).link j = s.link j := rfl
@[simp] theorem State.fresh_pending : s.fresh.2.pending = s.pending := rfl
@[simp] theorem State.fresh_resetAsserted : s.fresh.2.resetAsserted = s.resetAsserted := rfl
@[simp] theorem State.fresh_lowsupply : s.fresh.2.lowsupply = s.lowsupply := rfl
@[simp] theorem State.fresh_refclk : s.fresh.2.refclk = s.refclk := rfl
@[simp] theorem State.fresh_part : s.fresh.2.part = s.part := rfl
@[simp] theorem State.fresh_localCount : s.fresh.2.localCount = s.localCount := rfl
@[simp] theorem State.fresh_monitor : s.fresh.2.monitor = s.monitor := rfl
@[simp] theorem State.fresh_backupCount : s.fresh.2.backupCount = s.backupCount := rfl
@[simp] theorem State.fresh_restoreCount : s.fresh.2.restoreCount = s.restoreCount := rfl
@[simp] theorem State.fresh_lanes : s.fresh.2.lanes = s.lanes := rfl
@[simp] theorem State.fresh_services : s.fresh.2.services = s.services := rfl
@[simp] theorem State.fresh_entries : s.fresh.2.entries = s.entries := rfl
@[simp] theorem State.fresh_alerts : s.fresh.2.alerts = s.alerts := rfl
@[simp] theorem State.fresh_preloads : s.fresh.2.preloads = s.preloads := rfl
@[simp] theorem State.fresh_dir : s.fresh.2.dir = s.dir := rfl
@[simp] theorem State.fresh_flash : s.fresh.2.flash = s.flash := rfl
@[simp] theorem State.fresh_ingests : s.fresh.2.ingests = s.ingests := rfl
@[simp] theorem State.fresh_checks : s.fresh.2.checks = s.checks := rfl
@[simp] theorem State.fresh_links : s.fresh.2.links = s.links := rfl
@[simp] theorem State.fresh_boxes : s.fresh.2.boxes = s.boxes := rfl
@[simp] theorem State.fresh_lane (j : Nat) : s.fresh.2.lane j = s.lane j := rfl
@[simp] theorem State.fresh_svc (j : Nat) : s.fresh.2.svc j = s.svc j := rfl
@[simp] theorem State.fresh_entry (j : Nat) : s.fresh.2.entry j = s.entry j := rfl
@[simp] theorem State.fresh_alert (j : Nat) : s.fresh.2.alert j = s.alert j := rfl
@[simp] theorem State.fresh_preload (j : Nat) : s.fresh.2.preload j = s.preload j := rfl
@[simp] theorem State.fresh_clip (j : Nat) : s.fresh.2.clip j = s.clip j := rfl
@[simp] theorem State.fresh_ingest (j : PortId) : s.fresh.2.ingest j = s.ingest j := rfl
@[simp] theorem State.fresh_check (j : PortId) : s.fresh.2.check j = s.check j := rfl
@[simp] theorem State.fresh_link (j : PortId) : s.fresh.2.link j = s.link j := rfl
@[simp] theorem State.fresh_box (j : PortId) : s.fresh.2.box j = s.box j := rfl

/-! ### The event queues (R193) -/

/-- A queue that holds at most 32 events still does after an offer. -/
theorem pushBox_length (b : Box) (e : Event) (h : b.queue.length ≤ 32) : (pushBox b e).queue.length ≤ 32 := by
  unfold pushBox
  split
  · simp; omega
  · exact h

/-- All that an offer can do: the event joins the tail, or a full queue loses it. -/
theorem pushBox_cases (b : Box) (e : Event) :
    (b.queue.length < 32 ∧ pushBox b e = { b with queue := b.queue ++ [e] }) ∨
    (32 ≤ b.queue.length ∧ pushBox b e = { b with lostEvents := true }) := by
  unfold pushBox
  split
  · exact .inl ⟨‹_›, rfl⟩
  · exact .inr ⟨by omega, rfl⟩

@[simp] theorem pushBox_watch (b : Box) (e : Event) : (pushBox b e).watch = b.watch := by
  unfold pushBox; split <;> rfl

theorem State.box_push (p q : PortId) (e : Event) :
    (s.push p e).box q = if q = p then pushBox (s.box p) e else s.box q := State.box_setBox s p _ q

/-- An event to all three ports joins each port's queue on its own. -/
@[simp] theorem State.box_pushAll (e : Event) (q : PortId) : (s.pushAll e).box q = pushBox (s.box q) e := by
  cases q <;> simp [State.pushAll, State.box_push]

@[simp] theorem State.pushAll_pending (e : Event) : (s.pushAll e).pending = s.pending := by simp [State.pushAll]
@[simp] theorem State.pushAll_resetAsserted (e : Event) : (s.pushAll e).resetAsserted = s.resetAsserted := by simp [State.pushAll]
@[simp] theorem State.pushAll_lowsupply (e : Event) : (s.pushAll e).lowsupply = s.lowsupply := by simp [State.pushAll]
@[simp] theorem State.pushAll_refclk (e : Event) : (s.pushAll e).refclk = s.refclk := by simp [State.pushAll]
@[simp] theorem State.pushAll_part (e : Event) : (s.pushAll e).part = s.part := by simp [State.pushAll]
@[simp] theorem State.pushAll_localCount (e : Event) : (s.pushAll e).localCount = s.localCount := by simp [State.pushAll]
@[simp] theorem State.pushAll_monitor (e : Event) : (s.pushAll e).monitor = s.monitor := by simp [State.pushAll]
@[simp] theorem State.pushAll_backupCount (e : Event) : (s.pushAll e).backupCount = s.backupCount := by simp [State.pushAll]
@[simp] theorem State.pushAll_restoreCount (e : Event) : (s.pushAll e).restoreCount = s.restoreCount := by simp [State.pushAll]
@[simp] theorem State.pushAll_lanes (e : Event) : (s.pushAll e).lanes = s.lanes := by simp [State.pushAll]
@[simp] theorem State.pushAll_services (e : Event) : (s.pushAll e).services = s.services := by simp [State.pushAll]
@[simp] theorem State.pushAll_entries (e : Event) : (s.pushAll e).entries = s.entries := by simp [State.pushAll]
@[simp] theorem State.pushAll_alerts (e : Event) : (s.pushAll e).alerts = s.alerts := by simp [State.pushAll]
@[simp] theorem State.pushAll_preloads (e : Event) : (s.pushAll e).preloads = s.preloads := by simp [State.pushAll]
@[simp] theorem State.pushAll_dir (e : Event) : (s.pushAll e).dir = s.dir := by simp [State.pushAll]
@[simp] theorem State.pushAll_flash (e : Event) : (s.pushAll e).flash = s.flash := by simp [State.pushAll]
@[simp] theorem State.pushAll_ingests (e : Event) : (s.pushAll e).ingests = s.ingests := by simp [State.pushAll]
@[simp] theorem State.pushAll_checks (e : Event) : (s.pushAll e).checks = s.checks := by simp [State.pushAll]
@[simp] theorem State.pushAll_links (e : Event) : (s.pushAll e).links = s.links := by simp [State.pushAll]
@[simp] theorem State.pushAll_freeCtr (e : Event) : (s.pushAll e).freeCtr = s.freeCtr := by simp [State.pushAll]
@[simp] theorem State.pushAll_lane (e : Event) (j : Nat) : (s.pushAll e).lane j = s.lane j := by simp [State.pushAll]
@[simp] theorem State.pushAll_svc (e : Event) (j : Nat) : (s.pushAll e).svc j = s.svc j := by simp [State.pushAll]
@[simp] theorem State.pushAll_entry (e : Event) (j : Nat) : (s.pushAll e).entry j = s.entry j := by simp [State.pushAll]
@[simp] theorem State.pushAll_alert (e : Event) (j : Nat) : (s.pushAll e).alert j = s.alert j := by simp [State.pushAll]
@[simp] theorem State.pushAll_preload (e : Event) (j : Nat) : (s.pushAll e).preload j = s.preload j := by simp [State.pushAll]
@[simp] theorem State.pushAll_clip (e : Event) (j : Nat) : (s.pushAll e).clip j = s.clip j := by simp [State.pushAll]
@[simp] theorem State.pushAll_ingest (e : Event) (j : PortId) : (s.pushAll e).ingest j = s.ingest j := by simp [State.pushAll]
@[simp] theorem State.pushAll_check (e : Event) (j : PortId) : (s.pushAll e).check j = s.check j := by simp [State.pushAll]
@[simp] theorem State.pushAll_link (e : Event) (j : PortId) : (s.pushAll e).link j = s.link j := by simp [State.pushAll]

/-! ### What the flash updates leave -/

@[simp] theorem Flash.setFree_supply (f : Flash) (r : Region) (l : List Nat) : (f.setFree r l).supply = f.supply := by cases r <;> rfl
@[simp] theorem Flash.setFree_prot (f : Flash) (r : Region) (l : List Nat) : (f.setFree r l).prot = f.prot := by cases r <;> rfl
@[simp] theorem Flash.setFree_unusable (f : Flash) (r : Region) (l : List Nat) : (f.setFree r l).unusable = f.unusable := by cases r <;> rfl
@[simp] theorem Flash.setFree_release (f : Flash) (r : Region) (l : List Nat) : (f.setFree r l).release = f.release := by cases r <;> rfl
@[simp] theorem Flash.setFree_scanNext (f : Flash) (r : Region) (l : List Nat) : (f.setFree r l).scanNext = f.scanNext := by cases r <;> rfl
@[simp] theorem Flash.setFree_scanNotes (f : Flash) (r : Region) (l : List Nat) : (f.setFree r l).scanNotes = f.scanNotes := by cases r <;> rfl
@[simp] theorem Flash.setFree_scanProt (f : Flash) (r : Region) (l : List Nat) : (f.setFree r l).scanProt = f.scanProt := by cases r <;> rfl
@[simp] theorem Flash.setFree_scanMark0 (f : Flash) (r : Region) (l : List Nat) : (f.setFree r l).scanMark0 = f.scanMark0 := by cases r <;> rfl
@[simp] theorem Flash.setFree_jobs (f : Flash) (r : Region) (l : List Nat) : (f.setFree r l).jobs = f.jobs := by cases r <;> rfl
@[simp] theorem Flash.setDirty_supply (f : Flash) (r : Region) (l : List Dirty) : (f.setDirty r l).supply = f.supply := by cases r <;> rfl
@[simp] theorem Flash.setDirty_prot (f : Flash) (r : Region) (l : List Dirty) : (f.setDirty r l).prot = f.prot := by cases r <;> rfl
@[simp] theorem Flash.setDirty_unusable (f : Flash) (r : Region) (l : List Dirty) : (f.setDirty r l).unusable = f.unusable := by cases r <;> rfl
@[simp] theorem Flash.setDirty_release (f : Flash) (r : Region) (l : List Dirty) : (f.setDirty r l).release = f.release := by cases r <;> rfl
@[simp] theorem Flash.setDirty_scanNext (f : Flash) (r : Region) (l : List Dirty) : (f.setDirty r l).scanNext = f.scanNext := by cases r <;> rfl
@[simp] theorem Flash.setDirty_scanNotes (f : Flash) (r : Region) (l : List Dirty) : (f.setDirty r l).scanNotes = f.scanNotes := by cases r <;> rfl
@[simp] theorem Flash.setDirty_scanProt (f : Flash) (r : Region) (l : List Dirty) : (f.setDirty r l).scanProt = f.scanProt := by cases r <;> rfl
@[simp] theorem Flash.setDirty_scanMark0 (f : Flash) (r : Region) (l : List Dirty) : (f.setDirty r l).scanMark0 = f.scanMark0 := by cases r <;> rfl
@[simp] theorem Flash.setDirty_jobs (f : Flash) (r : Region) (l : List Dirty) : (f.setDirty r l).jobs = f.jobs := by cases r <;> rfl
@[simp] theorem Flash.addDirty_supply (f : Flash) (r : Region) (l : List Nat) (j : Option Nat) : (f.addDirty r l j).supply = f.supply := by cases r <;> rfl
@[simp] theorem Flash.addDirty_prot (f : Flash) (r : Region) (l : List Nat) (j : Option Nat) : (f.addDirty r l j).prot = f.prot := by cases r <;> rfl
@[simp] theorem Flash.addDirty_unusable (f : Flash) (r : Region) (l : List Nat) (j : Option Nat) : (f.addDirty r l j).unusable = f.unusable := by cases r <;> rfl
@[simp] theorem Flash.addDirty_release (f : Flash) (r : Region) (l : List Nat) (j : Option Nat) : (f.addDirty r l j).release = f.release := by cases r <;> rfl
@[simp] theorem Flash.addDirty_scanNext (f : Flash) (r : Region) (l : List Nat) (j : Option Nat) : (f.addDirty r l j).scanNext = f.scanNext := by cases r <;> rfl
@[simp] theorem Flash.addDirty_scanNotes (f : Flash) (r : Region) (l : List Nat) (j : Option Nat) : (f.addDirty r l j).scanNotes = f.scanNotes := by cases r <;> rfl
@[simp] theorem Flash.addDirty_scanProt (f : Flash) (r : Region) (l : List Nat) (j : Option Nat) : (f.addDirty r l j).scanProt = f.scanProt := by cases r <;> rfl
@[simp] theorem Flash.addDirty_scanMark0 (f : Flash) (r : Region) (l : List Nat) (j : Option Nat) : (f.addDirty r l j).scanMark0 = f.scanMark0 := by cases r <;> rfl
@[simp] theorem Flash.addDirty_jobs (f : Flash) (r : Region) (l : List Nat) (j : Option Nat) : (f.addDirty r l j).jobs = f.jobs := by cases r <;> rfl
@[simp] theorem Flash.addBad_supply (f : Flash) (b : Nat) : (f.addBad b).supply = f.supply := rfl
@[simp] theorem Flash.addBad_prot (f : Flash) (b : Nat) : (f.addBad b).prot = f.prot := rfl
@[simp] theorem Flash.addBad_unusable (f : Flash) (b : Nat) : (f.addBad b).unusable = f.unusable := rfl
@[simp] theorem Flash.addBad_release (f : Flash) (b : Nat) : (f.addBad b).release = f.release := rfl
@[simp] theorem Flash.addBad_scanNext (f : Flash) (b : Nat) : (f.addBad b).scanNext = f.scanNext := rfl
@[simp] theorem Flash.addBad_scanNotes (f : Flash) (b : Nat) : (f.addBad b).scanNotes = f.scanNotes := rfl
@[simp] theorem Flash.addBad_scanProt (f : Flash) (b : Nat) : (f.addBad b).scanProt = f.scanProt := rfl
@[simp] theorem Flash.addBad_scanMark0 (f : Flash) (b : Nat) : (f.addBad b).scanMark0 = f.scanMark0 := rfl
@[simp] theorem Flash.addBad_jobs (f : Flash) (b : Nat) : (f.addBad b).jobs = f.jobs := rfl
@[simp] theorem Flash.setIndex_supply (f : Flash) (b n : Nat) : (f.setIndex b n).supply = f.supply := rfl
@[simp] theorem Flash.setIndex_prot (f : Flash) (b n : Nat) : (f.setIndex b n).prot = f.prot := rfl
@[simp] theorem Flash.setIndex_unusable (f : Flash) (b n : Nat) : (f.setIndex b n).unusable = f.unusable := rfl
@[simp] theorem Flash.setIndex_release (f : Flash) (b n : Nat) : (f.setIndex b n).release = f.release := rfl
@[simp] theorem Flash.setIndex_scanNext (f : Flash) (b n : Nat) : (f.setIndex b n).scanNext = f.scanNext := rfl
@[simp] theorem Flash.setIndex_scanNotes (f : Flash) (b n : Nat) : (f.setIndex b n).scanNotes = f.scanNotes := rfl
@[simp] theorem Flash.setIndex_scanProt (f : Flash) (b n : Nat) : (f.setIndex b n).scanProt = f.scanProt := rfl
@[simp] theorem Flash.setIndex_scanMark0 (f : Flash) (b n : Nat) : (f.setIndex b n).scanMark0 = f.scanMark0 := rfl
@[simp] theorem Flash.setIndex_jobs (f : Flash) (b n : Nat) : (f.setIndex b n).jobs = f.jobs := rfl
@[simp] theorem Flash.orphan_supply (f : Flash) (w : Requester → Bool) : (f.orphan w).supply = f.supply := rfl
@[simp] theorem Flash.orphan_prot (f : Flash) (w : Requester → Bool) : (f.orphan w).prot = f.prot := rfl
@[simp] theorem Flash.orphan_unusable (f : Flash) (w : Requester → Bool) : (f.orphan w).unusable = f.unusable := rfl
@[simp] theorem Flash.orphan_release (f : Flash) (w : Requester → Bool) : (f.orphan w).release = f.release := rfl
@[simp] theorem Flash.orphan_scanNext (f : Flash) (w : Requester → Bool) : (f.orphan w).scanNext = f.scanNext := rfl
@[simp] theorem Flash.orphan_scanNotes (f : Flash) (w : Requester → Bool) : (f.orphan w).scanNotes = f.scanNotes := rfl
@[simp] theorem Flash.orphan_scanProt (f : Flash) (w : Requester → Bool) : (f.orphan w).scanProt = f.scanProt := rfl
@[simp] theorem Flash.orphan_scanMark0 (f : Flash) (w : Requester → Bool) : (f.orphan w).scanMark0 = f.scanMark0 := rfl
@[simp] theorem Flash.orphan_jobs (f : Flash) (w : Requester → Bool) : (f.orphan w).jobs = f.jobs := rfl

end Sys2Proof.Machine
end

