-- ==== Sys2Proof/Laws/Flash.lean ====
section
/-! SUPPORT. One lemma per field for each named update of the flash channel's state, and its reads after writes. -/

namespace Sys2Proof.Machine

variable (f : Flash)

/-! ### setFree -/

@[simp] theorem Flash.setFree_op (r : Region) (l : List Nat) : (f.setFree r l).op = f.op := by cases r <;> rfl
@[simp] theorem Flash.setFree_rr (r : Region) (l : List Nat) : (f.setFree r l).rr = f.rr := by cases r <;> rfl
@[simp] theorem Flash.setFree_dirtyA (r : Region) (l : List Nat) : (f.setFree r l).dirtyA = f.dirtyA := by cases r <;> rfl
@[simp] theorem Flash.setFree_dirtyM (r : Region) (l : List Nat) : (f.setFree r l).dirtyM = f.dirtyM := by cases r <;> rfl
@[simp] theorem Flash.setFree_bad (r : Region) (l : List Nat) : (f.setFree r l).bad = f.bad := by cases r <;> rfl
@[simp] theorem Flash.setFree_nextPage (r : Region) (l : List Nat) : (f.setFree r l).nextPage = f.nextPage := by cases r <;> rfl
@[simp] theorem Flash.setFree_made (r : Region) (l : List Nat) : (f.setFree r l).made = f.made := by cases r <;> rfl
@[simp] theorem Flash.setFree_markerQ (r : Region) (l : List Nat) : (f.setFree r l).markerQ = f.markerQ := by cases r <;> rfl
@[simp] theorem Flash.setFree_protReq (r : Region) (l : List Nat) : (f.setFree r l).protReq = f.protReq := by cases r <;> rfl

/-! ### setDirty -/

@[simp] theorem Flash.setDirty_op (r : Region) (l : List Dirty) : (f.setDirty r l).op = f.op := by cases r <;> rfl
@[simp] theorem Flash.setDirty_rr (r : Region) (l : List Dirty) : (f.setDirty r l).rr = f.rr := by cases r <;> rfl
@[simp] theorem Flash.setDirty_freeA (r : Region) (l : List Dirty) : (f.setDirty r l).freeA = f.freeA := by cases r <;> rfl
@[simp] theorem Flash.setDirty_freeM (r : Region) (l : List Dirty) : (f.setDirty r l).freeM = f.freeM := by cases r <;> rfl
@[simp] theorem Flash.setDirty_bad (r : Region) (l : List Dirty) : (f.setDirty r l).bad = f.bad := by cases r <;> rfl
@[simp] theorem Flash.setDirty_nextPage (r : Region) (l : List Dirty) : (f.setDirty r l).nextPage = f.nextPage := by cases r <;> rfl
@[simp] theorem Flash.setDirty_made (r : Region) (l : List Dirty) : (f.setDirty r l).made = f.made := by cases r <;> rfl
@[simp] theorem Flash.setDirty_markerQ (r : Region) (l : List Dirty) : (f.setDirty r l).markerQ = f.markerQ := by cases r <;> rfl
@[simp] theorem Flash.setDirty_protReq (r : Region) (l : List Dirty) : (f.setDirty r l).protReq = f.protReq := by cases r <;> rfl

/-! ### addDirty -/

@[simp] theorem Flash.addDirty_op (r : Region) (l : List Nat) (j : Option Nat) : (f.addDirty r l j).op = f.op := by cases r <;> rfl
@[simp] theorem Flash.addDirty_rr (r : Region) (l : List Nat) (j : Option Nat) : (f.addDirty r l j).rr = f.rr := by cases r <;> rfl
@[simp] theorem Flash.addDirty_freeA (r : Region) (l : List Nat) (j : Option Nat) : (f.addDirty r l j).freeA = f.freeA := by cases r <;> rfl
@[simp] theorem Flash.addDirty_freeM (r : Region) (l : List Nat) (j : Option Nat) : (f.addDirty r l j).freeM = f.freeM := by cases r <;> rfl
@[simp] theorem Flash.addDirty_bad (r : Region) (l : List Nat) (j : Option Nat) : (f.addDirty r l j).bad = f.bad := by cases r <;> rfl
@[simp] theorem Flash.addDirty_nextPage (r : Region) (l : List Nat) (j : Option Nat) : (f.addDirty r l j).nextPage = f.nextPage := by cases r <;> rfl
@[simp] theorem Flash.addDirty_made (r : Region) (l : List Nat) (j : Option Nat) : (f.addDirty r l j).made = f.made := by cases r <;> rfl
@[simp] theorem Flash.addDirty_markerQ (r : Region) (l : List Nat) (j : Option Nat) : (f.addDirty r l j).markerQ = f.markerQ := by cases r <;> rfl
@[simp] theorem Flash.addDirty_protReq (r : Region) (l : List Nat) (j : Option Nat) : (f.addDirty r l j).protReq = f.protReq := by cases r <;> rfl

/-! ### addBad -/

@[simp] theorem Flash.addBad_op (b : Nat) : (f.addBad b).op = f.op := rfl
@[simp] theorem Flash.addBad_rr (b : Nat) : (f.addBad b).rr = f.rr := rfl
@[simp] theorem Flash.addBad_freeA (b : Nat) : (f.addBad b).freeA = f.freeA := rfl
@[simp] theorem Flash.addBad_freeM (b : Nat) : (f.addBad b).freeM = f.freeM := rfl
@[simp] theorem Flash.addBad_dirtyA (b : Nat) : (f.addBad b).dirtyA = f.dirtyA := rfl
@[simp] theorem Flash.addBad_dirtyM (b : Nat) : (f.addBad b).dirtyM = f.dirtyM := rfl
@[simp] theorem Flash.addBad_nextPage (b : Nat) : (f.addBad b).nextPage = f.nextPage := rfl
@[simp] theorem Flash.addBad_made (b : Nat) : (f.addBad b).made = f.made := rfl
@[simp] theorem Flash.addBad_protReq (b : Nat) : (f.addBad b).protReq = f.protReq := rfl

/-! ### setIndex -/

@[simp] theorem Flash.setIndex_op (b n : Nat) : (f.setIndex b n).op = f.op := rfl
@[simp] theorem Flash.setIndex_rr (b n : Nat) : (f.setIndex b n).rr = f.rr := rfl
@[simp] theorem Flash.setIndex_freeA (b n : Nat) : (f.setIndex b n).freeA = f.freeA := rfl
@[simp] theorem Flash.setIndex_freeM (b n : Nat) : (f.setIndex b n).freeM = f.freeM := rfl
@[simp] theorem Flash.setIndex_dirtyA (b n : Nat) : (f.setIndex b n).dirtyA = f.dirtyA := rfl
@[simp] theorem Flash.setIndex_dirtyM (b n : Nat) : (f.setIndex b n).dirtyM = f.dirtyM := rfl
@[simp] theorem Flash.setIndex_bad (b n : Nat) : (f.setIndex b n).bad = f.bad := rfl
@[simp] theorem Flash.setIndex_made (b n : Nat) : (f.setIndex b n).made = f.made := rfl
@[simp] theorem Flash.setIndex_markerQ (b n : Nat) : (f.setIndex b n).markerQ = f.markerQ := rfl
@[simp] theorem Flash.setIndex_protReq (b n : Nat) : (f.setIndex b n).protReq = f.protReq := rfl

/-! ### setMarks -/

@[simp] theorem Flash.setMarks_op (b : Nat) (m : PageMarks) : (f.setMarks b m).op = f.op := rfl
@[simp] theorem Flash.setMarks_rr (b : Nat) (m : PageMarks) : (f.setMarks b m).rr = f.rr := rfl
@[simp] theorem Flash.setMarks_supply (b : Nat) (m : PageMarks) : (f.setMarks b m).supply = f.supply := rfl
@[simp] theorem Flash.setMarks_freeA (b : Nat) (m : PageMarks) : (f.setMarks b m).freeA = f.freeA := rfl
@[simp] theorem Flash.setMarks_freeM (b : Nat) (m : PageMarks) : (f.setMarks b m).freeM = f.freeM := rfl
@[simp] theorem Flash.setMarks_dirtyA (b : Nat) (m : PageMarks) : (f.setMarks b m).dirtyA = f.dirtyA := rfl
@[simp] theorem Flash.setMarks_dirtyM (b : Nat) (m : PageMarks) : (f.setMarks b m).dirtyM = f.dirtyM := rfl
@[simp] theorem Flash.setMarks_bad (b : Nat) (m : PageMarks) : (f.setMarks b m).bad = f.bad := rfl
@[simp] theorem Flash.setMarks_nextPage (b : Nat) (m : PageMarks) : (f.setMarks b m).nextPage = f.nextPage := rfl
@[simp] theorem Flash.setMarks_prot (b : Nat) (m : PageMarks) : (f.setMarks b m).prot = f.prot := rfl
@[simp] theorem Flash.setMarks_unusable (b : Nat) (m : PageMarks) : (f.setMarks b m).unusable = f.unusable := rfl
@[simp] theorem Flash.setMarks_release (b : Nat) (m : PageMarks) : (f.setMarks b m).release = f.release := rfl
@[simp] theorem Flash.setMarks_markerQ (b : Nat) (m : PageMarks) : (f.setMarks b m).markerQ = f.markerQ := rfl
@[simp] theorem Flash.setMarks_protReq (b : Nat) (m : PageMarks) : (f.setMarks b m).protReq = f.protReq := rfl
@[simp] theorem Flash.setMarks_scanNext (b : Nat) (m : PageMarks) : (f.setMarks b m).scanNext = f.scanNext := rfl
@[simp] theorem Flash.setMarks_scanNotes (b : Nat) (m : PageMarks) : (f.setMarks b m).scanNotes = f.scanNotes := rfl
@[simp] theorem Flash.setMarks_scanProt (b : Nat) (m : PageMarks) : (f.setMarks b m).scanProt = f.scanProt := rfl
@[simp] theorem Flash.setMarks_scanMark0 (b : Nat) (m : PageMarks) : (f.setMarks b m).scanMark0 = f.scanMark0 := rfl
@[simp] theorem Flash.setMarks_jobs (b : Nat) (m : PageMarks) : (f.setMarks b m).jobs = f.jobs := rfl

/-! ### orphan -/

@[simp] theorem Flash.orphan_rr (w : Requester → Bool) : (f.orphan w).rr = f.rr := rfl
@[simp] theorem Flash.orphan_freeA (w : Requester → Bool) : (f.orphan w).freeA = f.freeA := rfl
@[simp] theorem Flash.orphan_freeM (w : Requester → Bool) : (f.orphan w).freeM = f.freeM := rfl
@[simp] theorem Flash.orphan_dirtyA (w : Requester → Bool) : (f.orphan w).dirtyA = f.dirtyA := rfl
@[simp] theorem Flash.orphan_dirtyM (w : Requester → Bool) : (f.orphan w).dirtyM = f.dirtyM := rfl
@[simp] theorem Flash.orphan_bad (w : Requester → Bool) : (f.orphan w).bad = f.bad := rfl
@[simp] theorem Flash.orphan_nextPage (w : Requester → Bool) : (f.orphan w).nextPage = f.nextPage := rfl
@[simp] theorem Flash.orphan_made (w : Requester → Bool) : (f.orphan w).made = f.made := rfl
@[simp] theorem Flash.orphan_markerQ (w : Requester → Bool) : (f.orphan w).markerQ = f.markerQ := rfl
@[simp] theorem Flash.orphan_protReq (w : Requester → Bool) : (f.orphan w).protReq = f.protReq := rfl

/-! ### noteMade -/

@[simp] theorem Flash.noteMade_op (b : Nat) (k : ProgKind) : (f.noteMade b k).op = f.op := by cases k <;> rfl
@[simp] theorem Flash.noteMade_rr (b : Nat) (k : ProgKind) : (f.noteMade b k).rr = f.rr := by cases k <;> rfl
@[simp] theorem Flash.noteMade_supply (b : Nat) (k : ProgKind) : (f.noteMade b k).supply = f.supply := by cases k <;> rfl
@[simp] theorem Flash.noteMade_freeA (b : Nat) (k : ProgKind) : (f.noteMade b k).freeA = f.freeA := by cases k <;> rfl
@[simp] theorem Flash.noteMade_freeM (b : Nat) (k : ProgKind) : (f.noteMade b k).freeM = f.freeM := by cases k <;> rfl
@[simp] theorem Flash.noteMade_dirtyA (b : Nat) (k : ProgKind) : (f.noteMade b k).dirtyA = f.dirtyA := by cases k <;> rfl
@[simp] theorem Flash.noteMade_dirtyM (b : Nat) (k : ProgKind) : (f.noteMade b k).dirtyM = f.dirtyM := by cases k <;> rfl
@[simp] theorem Flash.noteMade_bad (b : Nat) (k : ProgKind) : (f.noteMade b k).bad = f.bad := by cases k <;> rfl
@[simp] theorem Flash.noteMade_nextPage (b : Nat) (k : ProgKind) : (f.noteMade b k).nextPage = f.nextPage := by cases k <;> rfl
@[simp] theorem Flash.noteMade_prot (b : Nat) (k : ProgKind) : (f.noteMade b k).prot = f.prot := by cases k <;> rfl
@[simp] theorem Flash.noteMade_unusable (b : Nat) (k : ProgKind) : (f.noteMade b k).unusable = f.unusable := by cases k <;> rfl
@[simp] theorem Flash.noteMade_release (b : Nat) (k : ProgKind) : (f.noteMade b k).release = f.release := by cases k <;> rfl
@[simp] theorem Flash.noteMade_markerQ (b : Nat) (k : ProgKind) : (f.noteMade b k).markerQ = f.markerQ := by cases k <;> rfl
@[simp] theorem Flash.noteMade_protReq (b : Nat) (k : ProgKind) : (f.noteMade b k).protReq = f.protReq := by cases k <;> rfl
@[simp] theorem Flash.noteMade_scanNext (b : Nat) (k : ProgKind) : (f.noteMade b k).scanNext = f.scanNext := by cases k <;> rfl
@[simp] theorem Flash.noteMade_scanNotes (b : Nat) (k : ProgKind) : (f.noteMade b k).scanNotes = f.scanNotes := by cases k <;> rfl
@[simp] theorem Flash.noteMade_scanProt (b : Nat) (k : ProgKind) : (f.noteMade b k).scanProt = f.scanProt := by cases k <;> rfl
@[simp] theorem Flash.noteMade_scanMark0 (b : Nat) (k : ProgKind) : (f.noteMade b k).scanMark0 = f.scanMark0 := by cases k <;> rfl
@[simp] theorem Flash.noteMade_jobs (b : Nat) (k : ProgKind) : (f.noteMade b k).jobs = f.jobs := by cases k <;> rfl

/-! ### start -/

@[simp] theorem Flash.start_rr (o : FlashOp) (k : ProgKind) : (f.start o k).rr = f.rr := by simp [Flash.start]
@[simp] theorem Flash.start_supply (o : FlashOp) (k : ProgKind) : (f.start o k).supply = f.supply := by simp [Flash.start]
@[simp] theorem Flash.start_freeA (o : FlashOp) (k : ProgKind) : (f.start o k).freeA = f.freeA := by simp [Flash.start]
@[simp] theorem Flash.start_freeM (o : FlashOp) (k : ProgKind) : (f.start o k).freeM = f.freeM := by simp [Flash.start]
@[simp] theorem Flash.start_dirtyA (o : FlashOp) (k : ProgKind) : (f.start o k).dirtyA = f.dirtyA := by simp [Flash.start]
@[simp] theorem Flash.start_dirtyM (o : FlashOp) (k : ProgKind) : (f.start o k).dirtyM = f.dirtyM := by simp [Flash.start]
@[simp] theorem Flash.start_bad (o : FlashOp) (k : ProgKind) : (f.start o k).bad = f.bad := by simp [Flash.start]
@[simp] theorem Flash.start_nextPage (o : FlashOp) (k : ProgKind) : (f.start o k).nextPage = f.nextPage := by simp [Flash.start]
@[simp] theorem Flash.start_prot (o : FlashOp) (k : ProgKind) : (f.start o k).prot = f.prot := by simp [Flash.start]
@[simp] theorem Flash.start_unusable (o : FlashOp) (k : ProgKind) : (f.start o k).unusable = f.unusable := by simp [Flash.start]
@[simp] theorem Flash.start_release (o : FlashOp) (k : ProgKind) : (f.start o k).release = f.release := by simp [Flash.start]
@[simp] theorem Flash.start_markerQ (o : FlashOp) (k : ProgKind) : (f.start o k).markerQ = f.markerQ := by simp [Flash.start]
@[simp] theorem Flash.start_protReq (o : FlashOp) (k : ProgKind) : (f.start o k).protReq = f.protReq := by simp [Flash.start]
@[simp] theorem Flash.start_scanNext (o : FlashOp) (k : ProgKind) : (f.start o k).scanNext = f.scanNext := by simp [Flash.start]
@[simp] theorem Flash.start_scanNotes (o : FlashOp) (k : ProgKind) : (f.start o k).scanNotes = f.scanNotes := by simp [Flash.start]
@[simp] theorem Flash.start_scanProt (o : FlashOp) (k : ProgKind) : (f.start o k).scanProt = f.scanProt := by simp [Flash.start]
@[simp] theorem Flash.start_scanMark0 (o : FlashOp) (k : ProgKind) : (f.start o k).scanMark0 = f.scanMark0 := by simp [Flash.start]
@[simp] theorem Flash.start_jobs (o : FlashOp) (k : ProgKind) : (f.start o k).jobs = f.jobs := by simp [Flash.start]

/-! ### Reads after writes -/

@[simp] theorem Flash.free_setFree (r : Region) (l : List Nat) : (f.setFree r l).free r = l := by cases r <;> rfl
theorem Flash.free_setFree_ne {r q : Region} (h : q ≠ r) (l : List Nat) : (f.setFree r l).free q = f.free q := by
  cases r <;> cases q <;> first | rfl | exact absurd rfl h
@[simp] theorem Flash.dirty_setDirty (r : Region) (l : List Dirty) : (f.setDirty r l).dirty r = l := by cases r <;> rfl
theorem Flash.dirty_setDirty_ne {r q : Region} (h : q ≠ r) (l : List Dirty) : (f.setDirty r l).dirty q = f.dirty q := by
  cases r <;> cases q <;> first | rfl | exact absurd rfl h
@[simp] theorem Flash.dirty_setFree (r q : Region) (l : List Nat) : (f.setFree r l).dirty q = f.dirty q := by
  cases r <;> cases q <;> rfl
@[simp] theorem Flash.free_setDirty (r q : Region) (l : List Dirty) : (f.setDirty r l).free q = f.free q := by
  cases r <;> cases q <;> rfl
theorem Flash.index_setIndex (b n c : Nat) : (f.setIndex b n).index c = if c = b then n else f.index c := by
  simp [Flash.index, Flash.setIndex, Table.get_set]
theorem Flash.marks_setMarks (b : Nat) (m : PageMarks) (c : Nat) :
    (f.setMarks b m).marks c = if c = b then m else f.marks c := by
  simp [Flash.marks, Flash.setMarks, Table.get_set]
@[simp] theorem Flash.start_op (o : FlashOp) (k : ProgKind) : (f.start o k).op = some o := rfl
@[simp] theorem Flash.start_made (o : FlashOp) (k : ProgKind) : (f.start o k).made = (f.noteMade o.block k).made := rfl

end Sys2Proof.Machine
end

