-- ==== Sys2Proof/Laws/Rest.lean ====
section
/-! SUPPORT. What the acts of the splice engine, the scheduler, the alert unit and the arbiter leave unchanged: the frame
of `settle` and of `rest`. -/

namespace Sys2Proof.Machine

/-- What the acts of `rest` leave of the flash channel: the supply state, the region state, a release, the scan's own
registers; a protection lock can only become set. -/
structure FlashKept (f g : Flash) : Prop where
  supply : g.supply = f.supply
  unusable : g.unusable = f.unusable
  release : g.release = f.release
  scanNext : g.scanNext = f.scanNext
  scanNotes : g.scanNotes = f.scanNotes
  scanProt : g.scanProt = f.scanProt
  scanMark0 : g.scanMark0 = f.scanMark0
  ingestLock : f.prot.ingestLock = true → g.prot.ingestLock = true
  eraseLock : f.prot.eraseLock = true → g.prot.eraseLock = true

@[simp] theorem flashKept_iff (f g : Flash) : FlashKept f g ↔
    g.supply = f.supply ∧ g.unusable = f.unusable ∧ g.release = f.release ∧ g.scanNext = f.scanNext
    ∧ g.scanNotes = f.scanNotes ∧ g.scanProt = f.scanProt ∧ g.scanMark0 = f.scanMark0
    ∧ (f.prot.ingestLock = true → g.prot.ingestLock = true) ∧ (f.prot.eraseLock = true → g.prot.eraseLock = true) :=
  ⟨fun h => ⟨h.1, h.2, h.3, h.4, h.5, h.6, h.7, h.8, h.9⟩, fun ⟨a, b, c, d, e, f, g, h, i⟩ => ⟨a, b, c, d, e, f, g, h, i⟩⟩

@[simp] theorem Flash.toCurrent_supply (f : Flash) (i : Nat) : (f.toCurrent i).supply = f.supply := rfl
@[simp] theorem Flash.toCurrent_prot (f : Flash) (i : Nat) : (f.toCurrent i).prot = f.prot := rfl
@[simp] theorem Flash.toCurrent_unusable (f : Flash) (i : Nat) : (f.toCurrent i).unusable = f.unusable := rfl
@[simp] theorem Flash.toCurrent_release (f : Flash) (i : Nat) : (f.toCurrent i).release = f.release := rfl
@[simp] theorem Flash.toCurrent_scanNext (f : Flash) (i : Nat) : (f.toCurrent i).scanNext = f.scanNext := rfl
@[simp] theorem Flash.toCurrent_scanNotes (f : Flash) (i : Nat) : (f.toCurrent i).scanNotes = f.scanNotes := rfl
@[simp] theorem Flash.toCurrent_scanProt (f : Flash) (i : Nat) : (f.toCurrent i).scanProt = f.scanProt := rfl
@[simp] theorem Flash.toCurrent_scanMark0 (f : Flash) (i : Nat) : (f.toCurrent i).scanMark0 = f.scanMark0 := rfl

/-- What no act of `rest` changes: the pins, the part state, time, every lane whole; of every service its definition,
its clock record, its cue memory and its masks; of every port its watch set, its receiver, its rate and the command it
answers. Condition flags and locks can only become set, and event queues only grow, never above 32. -/
structure Kept (s t : State) : Prop where
  pending : t.pending = s.pending
  resetAsserted : t.resetAsserted = s.resetAsserted
  lowsupply : t.lowsupply = s.lowsupply
  refclk : t.refclk = s.refclk
  part : t.part = s.part
  localCount : t.localCount = s.localCount
  monitor : t.monitor = s.monitor
  backupCount : t.backupCount = s.backupCount
  restoreCount : t.restoreCount = s.restoreCount
  lanes : t.lanes = s.lanes
  preloads : t.preloads = s.preloads
  checks : t.checks = s.checks
  flash : FlashKept s.flash t.flash
  defn : ∀ i, (t.svc i).defn = (s.svc i).defn
  clk : ∀ i, (t.svc i).clk = (s.svc i).clk
  cues : ∀ i, (t.svc i).cues = (s.svc i).cues
  masks : ∀ i, (t.svc i).cond.masks = (s.svc i).cond.masks
  flags : ∀ i n, (s.svc i).cond.flags.getLsbD n = true → (t.svc i).cond.flags.getLsbD n = true
  watch : ∀ p, (t.box p).watch = (s.box p).watch
  grows : ∀ p, (s.box p).queue <+: (t.box p).queue
  queues : (∀ p, (s.box p).queue.length ≤ 32) → ∀ p, (t.box p).queue.length ≤ 32
  rate : ∀ p, (t.link p).rate = (s.link p).rate
  rx : ∀ p, (t.link p).rx = (s.link p).rx
  nextRate : ∀ p, (t.link p).nextRate = (s.link p).nextRate
  codes : ∀ p, (t.link p).out.map (·.code) = (s.link p).out.map (·.code)

/-! ### The transmitter's part of a link -/

@[simp] theorem Link.startTx_rate (l : Link) : l.startTx.rate = l.rate := by
  unfold Link.startTx; repeat' split
  all_goals rfl
@[simp] theorem Link.startTx_rx (l : Link) : l.startTx.rx = l.rx := by
  unfold Link.startTx; repeat' split
  all_goals rfl
@[simp] theorem Link.startTx_nextRate (l : Link) : l.startTx.nextRate = l.nextRate := by
  unfold Link.startTx; repeat' split
  all_goals rfl
@[simp] theorem Link.startTx_out (l : Link) : l.startTx.out = l.out := by
  unfold Link.startTx; repeat' split
  all_goals rfl
@[simp] theorem Link.form_rate (l : Link) (st : Status) (b : List Byte) : (l.form st b).rate = l.rate := by
  unfold Link.form; split <;> simp
@[simp] theorem Link.form_rx (l : Link) (st : Status) (b : List Byte) : (l.form st b).rx = l.rx := by
  unfold Link.form; split <;> simp
@[simp] theorem Link.form_nextRate (l : Link) (st : Status) (b : List Byte) : (l.form st b).nextRate = l.nextRate := by
  unfold Link.form; split <;> simp
@[simp] theorem Link.form_codes (l : Link) (st : Status) (b : List Byte) :
    (l.form st b).out.map (·.code) = l.out.map (·.code) := by
  unfold Link.form; split <;> simp_all

/-- A formed reply stands in the exchange of its port. -/
theorem Link.form_out (l : Link) (st : Status) (b : List Byte) (o : Outstanding) (h : l.out = some o) :
    (l.form st b).out = some { code := o.code, reply := some { code := o.code, status := st, results := b } } := by
  simp [Link.form, h]

namespace Kept

@[simp] theorem refl (s : State) : Kept s s := by constructor <;> simp

theorem trans {s t u : State} (h : Kept s t) (k : Kept t u) : Kept s u where
  pending := k.pending.trans h.pending
  resetAsserted := k.resetAsserted.trans h.resetAsserted
  lowsupply := k.lowsupply.trans h.lowsupply
  refclk := k.refclk.trans h.refclk
  part := k.part.trans h.part
  localCount := k.localCount.trans h.localCount
  monitor := k.monitor.trans h.monitor
  backupCount := k.backupCount.trans h.backupCount
  restoreCount := k.restoreCount.trans h.restoreCount
  lanes := k.lanes.trans h.lanes
  preloads := k.preloads.trans h.preloads
  checks := k.checks.trans h.checks
  flash := by
    have a := (flashKept_iff _ _).mp h.flash
    have b := (flashKept_iff _ _).mp k.flash
    simp_all
  defn i := (k.defn i).trans (h.defn i)
  clk i := (k.clk i).trans (h.clk i)
  cues i := (k.cues i).trans (h.cues i)
  masks i := (k.masks i).trans (h.masks i)
  watch i := (k.watch i).trans (h.watch i)
  rate i := (k.rate i).trans (h.rate i)
  rx i := (k.rx i).trans (h.rx i)
  nextRate i := (k.nextRate i).trans (h.nextRate i)
  codes i := (k.codes i).trans (h.codes i)
  flags i n hb := k.flags i n (h.flags i n hb)
  grows p := (h.grows p).trans (k.grows p)
  queues hq := k.queues (h.queues hq)

variable {s t : State}

/-! ### The basic updates -/

@[simp] theorem setEntry (h : Kept s t) (n : Nat) (e : Option Entry) : Kept s (t.setEntry n e) :=
  h.trans (by constructor <;> simp)
@[simp] theorem setAlert (h : Kept s t) (n : Nat) (a : AlertRec) : Kept s (t.setAlert n a) :=
  h.trans (by constructor <;> simp)
@[simp] theorem setClip (h : Kept s t) (c : Nat) (r : Option ClipRec) : Kept s (t.setClip c r) :=
  h.trans (by constructor <;> simp)
@[simp] theorem setIngest (h : Kept s t) (p : PortId) (g : Ingest) : Kept s (t.setIngest p g) :=
  h.trans (by constructor <;> simp)
theorem setLink (h : Kept s t) (p : PortId) (l : Link) (hr : l.rate = (t.link p).rate) (hx : l.rx = (t.link p).rx)
    (hn : l.nextRate = (t.link p).nextRate) (hc : l.out.map (·.code) = (t.link p).out.map (·.code)) :
    Kept s (t.setLink p l) := by
  refine h.trans ?_
  constructor
  case rate => intro q; rw [State.link_setLink]; split <;> simp_all
  case rx => intro q; rw [State.link_setLink]; split <;> simp_all
  case nextRate => intro q; rw [State.link_setLink]; split <;> simp_all
  case codes => intro q; rw [State.link_setLink]; split <;> simp_all
  all_goals simp
@[simp] theorem withFlash (h : Kept s t) (f : Flash) (hf : FlashKept t.flash f) : Kept s (t.withFlash f) := by
  refine h.trans ?_
  constructor
  case flash => exact hf
  all_goals simp
@[simp] theorem modFlash (h : Kept s t) (f : Flash → Flash) (hf : ∀ x, FlashKept x (f x)) :
    Kept s (t.modFlash f) := h.withFlash _ (hf _)
@[simp] theorem flashRec (h : Kept s t) (f : Flash) (hf : FlashKept t.flash f) : Kept s { t with flash := f } :=
  h.withFlash f hf
@[simp] theorem fresh (h : Kept s t) : Kept s t.fresh.2 := h.trans (by constructor <;> simp)
@[simp] theorem push (h : Kept s t) (p : PortId) (e : Event) : Kept s (t.push p e) := by
  refine h.trans ?_
  constructor
  case queues =>
    intro hq q
    rw [State.box_push]
    split
    · exact pushBox_length _ _ (hq p)
    · exact hq q
  case grows =>
    intro q
    rw [State.box_push]
    split
    · next hp =>
      subst hp
      rcases pushBox_cases (t.box q) e with ⟨-, hb⟩ | ⟨-, hb⟩ <;> simp [hb]
    · exact List.prefix_rfl
  case watch =>
    intro q
    rw [State.box_push]
    split
    · next hp => subst hp; simp
    · rfl
  all_goals simp

theorem setSvc (h : Kept s t) (i : Nat) (v : Service) (hd : v.defn = (t.svc i).defn) (hc : v.clk = (t.svc i).clk)
    (hq : v.cues = (t.svc i).cues) (hm : v.cond.masks = (t.svc i).cond.masks)
    (hf : ∀ n, (t.svc i).cond.flags.getLsbD n = true → v.cond.flags.getLsbD n = true) : Kept s (t.setSvc i v) := by
  refine h.trans ?_
  constructor
  case defn => intro j; rw [State.svc_setSvc]; split <;> simp_all
  case clk => intro j; rw [State.svc_setSvc]; split <;> simp_all
  case cues => intro j; rw [State.svc_setSvc]; split <;> simp_all
  case masks => intro j; rw [State.svc_setSvc]; split <;> simp_all
  case flags => intro j n; rw [State.svc_setSvc]; split <;> simp_all
  all_goals simp

@[simp] theorem modSp (h : Kept s t) (i : Nat) (f : SpliceRec → SpliceRec) : Kept s (t.modSp i f) :=
  h.setSvc i _ rfl rfl rfl rfl (fun _ hn => hn)

@[simp] theorem modEntry (h : Kept s t) (n : Nat) (f : Entry → Entry) : Kept s (t.modEntry n f) := h.setEntry _ _
@[simp] theorem modAlert (h : Kept s t) (r : Nat) (f : AlertRec → AlertRec) : Kept s (t.modAlert r f) := h.setAlert _ _
@[simp] theorem addRef (h : Kept s t) (c : Nat) : Kept s (t.addRef c) := h.setClip _ _
@[simp] theorem dropRef (h : Kept s t) (c : Nat) : Kept s (t.dropRef c) := h.setClip _ _
@[simp] theorem answer (h : Kept s t) (p : PortId) (st : Status) (l : List Byte) : Kept s (answer t p st l) :=
  h.setLink p _ (by simp) (by simp) (by simp) (by simp)

theorem foldl {β : Type} (f : State → β → State) (hf : ∀ {s t : State} (b : β), Kept s t → Kept s (f t b)) (l : List β)
    (h : Kept s t) : Kept s (l.foldl f t) := by
  induction l generalizing t with
  | nil => exact h
  | cons b r ih => exact ih (hf b h)

/-! ### Conditions -/

@[simp] theorem offerCondition (h : Kept s t) (i : Nat) (c : Cond) (p : PortId) : Kept s (offerCondition t i c p) := by
  unfold Machine.offerCondition
  split <;> simp (maxDischargeDepth := 30) [h]

@[simp] theorem raise (h : Kept s t) (i : Nat) (c : Cond) : Kept s (raise t i c) := by
  have h1 : Kept s (t.modSvc i (fun v => { v with cond := { v.cond with flags := v.cond.flags ||| condBit c } })) :=
    h.setSvc i _ rfl rfl rfl rfl (fun n hn => by simp [hn])
  unfold Machine.raise
  split <;> simp (maxDischargeDepth := 30) [h1]

@[simp] theorem raiseIf (h : Kept s t) (b : Bool) (i : Nat) (c : Cond) : Kept s (raiseIf b t i c) := by
  unfold Machine.raiseIf
  split <;> simp (maxDischargeDepth := 30) [h]

/-! ### The splice engine's basic acts -/

@[simp] theorem discardRole (h : Kept s t) (i : Nat) (r : Role) : Kept s (discardRole t i r) := by
  simp (maxDischargeDepth := 30) [Machine.discardRole, h]

@[simp] theorem discardSeeking (h : Kept s t) (i : Nat) (o : Owner) : Kept s (discardSeeking t i o) := by
  unfold Machine.discardSeeking
  split
  · split <;> simp (maxDischargeDepth := 30) [h]
  · simp (maxDischargeDepth := 30) [h]

@[simp] theorem placeInst (h : Kept s t) (i : Nat) (q : InstReq) : Kept s (placeInst t i q) := by
  unfold Machine.placeInst
  repeat' split
  all_goals simp (maxDischargeDepth := 30) [h]

@[simp] theorem requestNext (h : Kept s t) (i : Nat) (q : InstReq) : Kept s (requestNext t i q) := by
  unfold Machine.requestNext
  repeat' split
  all_goals simp (maxDischargeDepth := 30) [h]

@[simp] theorem handE (h : Kept s t) (i e : Nat) : Kept s (handE t i e) := by
  unfold Machine.handE
  split <;> simp (maxDischargeDepth := 30) [h]

@[simp] theorem awaitLead (h : Kept s t) (i : Nat) (b : Bool) : Kept s (awaitLead t i b) := by
  simp (maxDischargeDepth := 30) [Machine.awaitLead, h]

/-! ### The scheduler -/

@[simp] theorem endEntry (h : Kept s t) (e : Entry) (r : EntryResult) : Kept s (endEntry t e r) := by
  unfold Machine.endEntry
  refine setEntry (foldl _ (fun c h => dropRef h c) _ (push ?_ _ _)) _ _
  split <;> simp (maxDischargeDepth := 30) [h]

@[simp] theorem demote (h : Kept s t) (e : Entry) : Kept s (demote t e) := by simp (maxDischargeDepth := 30) [Machine.demote, h]

@[simp] theorem armRun (h : Kept s t) (n : Nat) : Kept s (armRun t n).1 := by
  unfold Machine.armRun
  split
  · exact h
  · dsimp only
    repeat' split
    all_goals simp (maxDischargeDepth := 30) [h]

@[simp] theorem arbiterPass (h : Kept s t) (l : List Nat) (d : Bool) : Kept s (arbiterPass l t d).1 := by
  induction l generalizing t d with
  | nil => exact h
  | cons n r ih =>
    unfold Machine.arbiterPass
    split
    · dsimp only
      split
      · simp (maxDischargeDepth := 30) [h]
      · exact ih (by simp (maxDischargeDepth := 30) [h]) _
    · exact ih h _

@[simp] theorem arbiterLoop (h : Kept s t) (f k : Nat) : Kept s (arbiterLoop f t k) := by
  induction f generalizing t with
  | zero => exact h
  | succ f ih =>
    unfold Machine.arbiterLoop
    dsimp only
    split
    · exact ih (by simp (maxDischargeDepth := 30) [h])
    · simp (maxDischargeDepth := 30) [h]

@[simp] theorem poolFreed (h : Kept s t) (k : Nat) : Kept s (poolFreed t k) := h.arbiterLoop _ _

@[simp] theorem armAndArbitrate (h : Kept s t) (n : Nat) : Kept s (armAndArbitrate t n) := by
  unfold Machine.armAndArbitrate
  dsimp only
  split <;> simp (maxDischargeDepth := 30) [h]

@[simp] theorem reevalList (h : Kept s t) (c : WaitCause) (l : List Nat) : Kept s (reevalList c l t) := by
  induction l generalizing t with
  | nil => exact h
  | cons n r ih =>
    unfold Machine.reevalList
    refine ih ?_
    split <;> simp (maxDischargeDepth := 30) [h]

@[simp] theorem reeval (h : Kept s t) (i : Nat) (c : WaitCause) : Kept s (reeval t i c) := h.reevalList _ _

@[simp] theorem afterEnd (h : Kept s t) (i : Nat) : Kept s (afterEnd t i) := by simp (maxDischargeDepth := 30) [Machine.afterEnd, h]

@[simp] theorem endAndRelease (h : Kept s t) (e : Entry) (r : EntryResult) : Kept s (endAndRelease t e r) := by
  unfold Machine.endAndRelease
  dsimp only
  split <;> simp (maxDischargeDepth := 30) [h]

@[simp] theorem fireDue (h : Kept s t) (i : Nat) : Kept s (fireDue t i) := by
  unfold Machine.fireDue
  refine foldl _ (fun n h => ?_) _ h
  split
  · split <;> simp (maxDischargeDepth := 30) [h]
  · exact h

@[simp] theorem firstLock (h : Kept s t) (i : Nat) : Kept s (firstLock t i) := by
  unfold Machine.firstLock
  refine foldl _ (fun n h => ?_) _ h
  repeat' split
  all_goals simp (maxDischargeDepth := 30) [h]

@[simp] theorem setE (h : Kept s t) (n e : Nat) : Kept s (setE t n e) := by
  unfold Machine.setE
  split <;> simp (maxDischargeDepth := 30) [h]

@[simp] theorem keepAwaiting (h : Kept s t) (i : Nat) {f : State → State} (hf : ∀ {u}, Kept s u → Kept s (f u)) :
    Kept s (keepAwaiting t i f) := (hf h).modSp _ _

@[simp] theorem activate (h : Kept s t) (n sEff delta : Nat) (v : Seal) : Kept s (activate t n sEff delta v) := by
  unfold Machine.activate
  split
  · exact h
  · dsimp only
    repeat' split
    all_goals simp (maxDischargeDepth := 30) [h]

@[simp] theorem podAdvance (h : Kept s t) (n delta : Nat) (v : Seal) : Kept s (podAdvance t n delta v) := by
  unfold Machine.podAdvance
  split
  · exact h
  · dsimp only
    split <;> simp (maxDischargeDepth := 30) [h]

@[simp] theorem podEnd (h : Kept s t) (n delta : Nat) (v : Seal) : Kept s (podEnd t n delta v) := by
  unfold Machine.podEnd
  split
  · dsimp only
    split
    · exact (h.setEntry _ _).keepAwaiting _ (fun h => h.setE _ _)
    · exact h.setEntry _ _
  · exact h

@[simp] theorem returnEnded (h : Kept s t) (e : Entry) (b : Bool) (p : Option Nat) : Kept s (returnEnded t e b p) := by
  unfold Machine.returnEnded
  repeat' split
  all_goals (try dsimp only)
  all_goals repeat' split
  all_goals simp (maxDischargeDepth := 30) [h]

/-! ### The alert unit -/

@[simp] theorem holdTarget (h : Kept s t) (r i : Nat) : Kept s (holdTarget t r i) := h.setAlert _ _

@[simp] theorem takeService (h : Kept s t) (r i : Nat) : Kept s (takeService t r i) := by
  unfold Machine.takeService
  dsimp only
  split <;> simp (maxDischargeDepth := 30) [h]

@[simp] theorem endRecord (h : Kept s t) (r : Nat) (c : EndCause) : Kept s (endRecord t r c) := by
  simp (maxDischargeDepth := 30) [Machine.endRecord, h]

@[simp] theorem testRecord (h : Kept s t) (r : Nat) : Kept s (testRecord t r) := by
  unfold Machine.testRecord
  dsimp only
  repeat' split
  all_goals simp (maxDischargeDepth := 30) [h]

@[simp] theorem passOn (h : Kept s t) (i : Nat) : Kept s (passOn t i) := by
  unfold Machine.passOn
  repeat' split
  all_goals simp (maxDischargeDepth := 30) [h]

@[simp] theorem leaveHeld (h : Kept s t) (r i : Nat) (b : Bool) : Kept s (leaveHeld t r i b) := h.setAlert _ _

@[simp] theorem depart (h : Kept s t) (r i : Nat) (b : Bool) : Kept s (depart t r i b) := by simp (maxDischargeDepth := 30) [Machine.depart, h]

@[simp] theorem alertCut (h : Kept s t) (r i : Nat) : Kept s (alertCut t r i) := by
  unfold Machine.alertCut
  dsimp only
  repeat' split
  all_goals simp (maxDischargeDepth := 30) [h]

@[simp] theorem alertE (h : Kept s t) (r i e : Nat) : Kept s (alertE t r i e) := by simp (maxDischargeDepth := 30) [Machine.alertE, h]

@[simp] theorem endTarget (h : Kept s t) (r : Nat) (x : Target) : Kept s (endTarget t r x) := by
  unfold Machine.endTarget
  dsimp only
  repeat' split
  all_goals simp (maxDischargeDepth := 30) [h]

@[simp] theorem endAlert (h : Kept s t) (r : Nat) (c : EndCause) (m : Nat) : Kept s (endAlert t r c m) := by
  unfold Machine.endAlert
  dsimp only
  exact testRecord (foldl _ (fun x h => endTarget h _ x) _ (h.modAlert _ _)) _

/-! ### Cuts, returns and damaged clips -/

@[simp] theorem reportCut (h : Kept s t) (i : Nat) (o : Owner) (sEff delta : Nat) (v : Seal) :
    Kept s (reportCut t i o sEff delta v) := by
  unfold Machine.reportCut
  repeat' split
  all_goals simp (maxDischargeDepth := 30) [h]

@[simp] theorem beginReturn (h : Kept s t) (i : Nat) : Kept s (beginReturn t i) := by
  unfold Machine.beginReturn
  dsimp only
  split
  · exact h
  · refine modSp ?_ _ _
    split <;> simp (maxDischargeDepth := 30) [h]

@[simp] theorem finishReturn (h : Kept s t) (i : Nat) : Kept s (finishReturn t i) := by
  unfold Machine.finishReturn
  dsimp only
  repeat' split
  all_goals simp (maxDischargeDepth := 30) [h]

@[simp] theorem clipCut (h : Kept s t) (i ci : Nat) (n : Inst) (x w : Nat) : Kept s (clipCut t i ci n x w) := by
  simp (maxDischargeDepth := 30) [Machine.clipCut, h]

@[simp] theorem exhaustCut (h : Kept s t) (i : Nat) (o n : Inst) : Kept s (exhaustCut t i o n) := by
  unfold Machine.exhaustCut
  refine reportCut (modSp ?_ _ _) _ _ _ _ _
  split <;> simp (maxDischargeDepth := 30) [h]

@[simp] theorem startEmergency (h : Kept s t) (i : Nat) (o : Owner) : Kept s (startEmergency t i o) := by
  unfold Machine.startEmergency
  refine modSp ?_ _ _
  repeat' split
  all_goals simp (maxDischargeDepth := 30) [h]

@[simp] theorem instanceFault (h : Kept s t) (i : Nat) (r : Role) (n : Inst) : Kept s (instanceFault t i r n) := by
  unfold Machine.instanceFault
  repeat' split
  all_goals simp (maxDischargeDepth := 30) [h]

@[simp] theorem faultArmed (h : Kept s t) (c : Nat) : Kept s (faultArmed t c) := by
  unfold Machine.faultArmed
  refine foldl _ (fun n h => ?_) _ h
  repeat' split
  all_goals simp (maxDischargeDepth := 30) [h]

@[simp] theorem markDamaged (h : Kept s t) (c : Nat) : Kept s (markDamaged t c) := by
  unfold Machine.markDamaged
  repeat' split
  all_goals simp (maxDischargeDepth := 30) [h]

/-! ### The emission head -/

@[simp] theorem stopCur (h : Kept s t) (i c : Nat) : Kept s (stopCur t i c) := h.modSp _ _

theorem examineCur (h : Kept s t) {i : Nat} {n : Inst} {b : Pkt} {due : Nat} {u : State}
    (hu : examineCur t i n b due = some u) : Kept s u := by
  unfold Machine.examineCur at hu
  dsimp only at hu
  repeat' split at hu
  all_goals first | (cases hu; simp (maxDischargeDepth := 30) [h]) | cases hu

theorem examineNext (h : Kept s t) {i : Nat} {n : Inst} {b : Pkt} {u : State}
    (hu : examineNext t i n b = some u) : Kept s u := by
  unfold Machine.examineNext at hu
  repeat' split at hu
  all_goals first | (cases hu; simp (maxDischargeDepth := 30) [h]) | cases hu

@[simp] theorem placeHead (h : Kept s t) (i : Nat) (r : Role) (n : Inst) (b : Pkt) (d : Nat) :
    Kept s (placeHead t i r n b d) := by
  unfold Machine.placeHead
  repeat' split
  all_goals simp (maxDischargeDepth := 30) [h]

@[simp] theorem exhaust (h : Kept s t) (i : Nat) : Kept s (exhaust t i) := by
  unfold Machine.exhaust
  repeat' split
  all_goals simp (maxDischargeDepth := 30) [h]

@[simp] theorem handClipEnd (h : Kept s t) (r i : Nat) (c : Inst) : Kept s (handClipEnd t r i c) :=
  h.keepAwaiting _ (fun h => h.alertE _ _ _)

@[simp] theorem repeatEnd (h : Kept s t) (i : Nat) : Kept s (repeatEnd t i) := by
  unfold Machine.repeatEnd
  repeat' split
  all_goals simp (maxDischargeDepth := 30) [h]

@[simp] theorem takePacket (h : Kept s t) (i : Nat) (r : Role) (n : Inst) (b : Pkt) : Kept s (takePacket t i r n b) := by
  unfold Machine.takePacket
  dsimp only
  split
  · refine exhaust (repeatEnd ?_ _) _
    split
    · next hu => exact examineCur (by simp (maxDischargeDepth := 30) [h]) hu
    · simp (maxDischargeDepth := 30) [h]
  · split
    · next hu => exact examineNext (by simp (maxDischargeDepth := 30) [h]) hu
    · simp (maxDischargeDepth := 30) [h]

theorem fillHead (h : Kept s t) {i : Nat} {u : State} (hu : fillHead t i = some u) : Kept s u := by
  unfold Machine.fillHead at hu
  dsimp only at hu
  repeat' split at hu
  all_goals first | (cases hu; simp (maxDischargeDepth := 30) [h]) | cases hu

theorem choose (h : Kept s t) {i : Nat} {u : State} (hu : choose t i = some u) : Kept s u := by
  unfold Machine.choose at hu
  repeat' split at hu
  all_goals first | (cases hu; simp (maxDischargeDepth := 30) [h]) | cases hu

/-! ### Settling -/

theorem serveWaiting (h : Kept s t) {i : Nat} {u : State} (hu : serveWaiting t i = some u) : Kept s u := by
  unfold Machine.serveWaiting at hu
  split at hu
  · cases hu; simp (maxDischargeDepth := 30) [h]
  · cases hu

theorem podStep (h : Kept s t) {i : Nat} {c : Inst} {e : Entry} {u : State} (hu : podStep t i c e = some u) : Kept s u := by
  unfold Machine.podStep at hu
  dsimp only at hu
  repeat' split at hu
  all_goals first | (cases hu; simp (maxDischargeDepth := 30) [h]) | cases hu

theorem loopStep (h : Kept s t) {i : Nat} {c : Inst} {r : Nat} {u : State} (hu : loopStep t i c r = some u) : Kept s u := by
  unfold Machine.loopStep at hu
  dsimp only at hu
  repeat' split at hu
  all_goals first
    | (cases hu; exact h.requestNext _ _)
    | (cases hu; exact h.handClipEnd _ _ _)
    | cases hu

theorem ownerStep (h : Kept s t) {i : Nat} {c : Inst} {u : State} (hu : ownerStep t i c = some u) : Kept s u := by
  unfold Machine.ownerStep at hu
  repeat' split at hu
  all_goals first | exact podStep h hu | exact loopStep h hu | cases hu

theorem clipEndStep (h : Kept s t) {i : Nat} {u : State} (hu : clipEndStep t i = some u) : Kept s u := by
  unfold Machine.clipEndStep at hu
  dsimp only at hu
  repeat' split at hu
  all_goals first | exact ownerStep h hu | cases hu

theorem lateExhaust (h : Kept s t) {i : Nat} {u : State} (hu : lateExhaust t i = some u) : Kept s u := by
  unfold Machine.lateExhaust at hu
  repeat' split at hu
  all_goals first | (cases hu; simp (maxDischargeDepth := 30) [h]) | cases hu

theorem finishOrPromote (h : Kept s t) {i : Nat} {u : State} (hu : finishOrPromote t i = some u) : Kept s u := by
  unfold Machine.finishOrPromote at hu
  dsimp only at hu
  repeat' split at hu
  all_goals first | (cases hu; simp (maxDischargeDepth := 30) [h]) | cases hu

theorem svcStep (h : Kept s t) {i : Nat} {u : State} (hu : svcStep t i = some u) : Kept s u := by
  unfold Machine.svcStep at hu
  simp only [Option.or_eq_some_iff] at hu
  rcases hu with hu | ⟨-, hu | ⟨-, hu | ⟨-, hu | ⟨-, hu | ⟨-, hu | ⟨-, hu⟩⟩⟩⟩⟩⟩
  · exact serveWaiting h hu
  · exact clipEndStep h hu
  · exact lateExhaust h hu
  · exact finishOrPromote h hu
  · split at hu
    · cases hu; simp (maxDischargeDepth := 30) [h]
    · cases hu
  · exact fillHead h hu
  · exact choose h hu

theorem anyStep (h : Kept s t) {l : List Nat} {u : State} (hu : anyStep t l = some u) : Kept s u := by
  induction l with
  | nil => cases hu
  | cons i r ih =>
    unfold Machine.anyStep at hu
    split at hu
    · next hs => cases hu; exact svcStep h hs
    · exact ih hu

@[simp] theorem settleLoop (h : Kept s t) (f : Nat) : Kept s (settleLoop f t) := by
  induction f generalizing t with
  | zero => exact h
  | succ f ih =>
    unfold Machine.settleLoop
    split
    · next hu => exact ih (anyStep h hu)
    · exact h

@[simp] theorem settle (h : Kept s t) : Kept s (settle t) := h.settleLoop _

/-! ### The arbiter -/

@[simp] theorem removeClip (h : Kept s t) (r : ClipRec) (l : List Nat) (j : Option Nat) : Kept s (t.removeClip r l j) := by
  refine (h.setClip r.clip none).flashRec _ ?_
  simp

@[simp] theorem clearIngest (h : Kept s t) (p : PortId) : Kept s (clearIngest t p) := by simp (maxDischargeDepth := 30) [Machine.clearIngest, h]

@[simp] theorem endIngest (h : Kept s t) (p : PortId) (b : Option Nat) : Kept s (endIngest t p b) := by
  unfold Machine.endIngest
  split <;> simp (maxDischargeDepth := 30) [h]

@[simp] theorem ingestFailed (h : Kept s t) (p : PortId) (b : Nat) (x : Bool) : Kept s (ingestFailed t p b x) := by
  unfold Machine.ingestFailed
  dsimp only
  repeat' split
  all_goals simp (maxDischargeDepth := 30) [h]

@[simp] theorem retestHeld (h : Kept s t) (p : PortId) : Kept s (retestHeld t p) := by
  unfold Machine.retestHeld
  dsimp only
  repeat' split
  all_goals simp (maxDischargeDepth := 30) [h]

@[simp] theorem sealDone (h : Kept s t) (p : PortId) (v : Seal) : Kept s (sealDone t p v) := by
  unfold Machine.sealDone
  dsimp only
  split <;> simp (maxDischargeDepth := 30) [h]

@[simp] theorem ingestPassed (h : Kept s t) (p : PortId) (k : ProgKind) : Kept s (ingestPassed t p k) := by
  unfold Machine.ingestPassed
  dsimp only
  repeat' split
  all_goals simp (maxDischargeDepth := 30) [h]

@[simp] theorem markerDone (h : Kept s t) (o : FlashOp) (e : OpEnd) : Kept s (markerDone t o e) := by
  unfold Machine.markerDone
  repeat' split
  all_goals simp (maxDischargeDepth := 30) [h]

@[simp] theorem protectionDone (h : Kept s t) (i e : Bool) (r : OpEnd) : Kept s (protectionDone t i e r) := by
  unfold Machine.protectionDone
  refine push (fresh (h.withFlash _ ?_)) _ _
  refine (flashKept_iff _ _).mpr ⟨rfl, rfl, rfl, rfl, rfl, rfl, rfl, ?_, ?_⟩
  all_goals
    intro hl
    dsimp only
    split <;> simp [hl]

@[simp] theorem programEnded (h : Kept s t) (o : FlashOp) (k : ProgKind) (e : OpEnd) (b : Bool) :
    Kept s (programEnded t o k e b) := by
  unfold Machine.programEnded
  dsimp only
  repeat' split
  all_goals simp (maxDischargeDepth := 30) [h]

@[simp] theorem consumeRequest (h : Kept s t) (q : Requester) : Kept s (consumeRequest t q) := by
  unfold Machine.consumeRequest
  split <;> simp (maxDischargeDepth := 30) [h]

@[simp] theorem start (f : Flash) (o : FlashOp) (k : ProgKind) : FlashKept f (f.start o k) := by
  cases k <;> simp [Flash.start, Flash.noteMade, Flash.setMarks]

@[simp] theorem grant (h : Kept s t) (c j : Nat) (o : FlashOp) : Kept s (grant t c j o).1 := by
  unfold Machine.grant
  dsimp only
  repeat' split
  · exact modFlash (by simp (maxDischargeDepth := 30) [h]) _ (fun x => start x _ _)
  all_goals simp (maxDischargeDepth := 30) [h]

@[simp] theorem arbLoop (h : Kept s t) (k : Option Nat) (f : Nat) : Kept s (arbLoop k f t) := by
  induction f generalizing t with
  | zero => exact h
  | succ f ih =>
    unfold Machine.arbLoop
    split
    · exact h
    · split
      · exact h
      · dsimp only
        split
        · exact ih (by simp (maxDischargeDepth := 30) [h])
        · simp (maxDischargeDepth := 30) [h]

/-- The frame of `rest`: everything that Kept lists is as it was. -/
@[simp] theorem rest (h : Kept s t) : Kept s (rest t) := h.settle.arbLoop _ _

@[simp] theorem restAfter (h : Kept s t) (o : FlashOp) : Kept s (restAfter o t) := by
  unfold Machine.restAfter
  split
  · exact (h.settle.arbLoop _ _).arbLoop _ _
  · exact h.rest

end Kept

end Sys2Proof.Machine
end

