-- ==== Sys2Proof/Laws/Splice.lean ====
section
/-! SUPPORT. What the shared operations of the splice engine do: a condition raised, an instance discarded, promoted or created,
the end of a pod reported, and a clip's end handed as the return point. -/

namespace Sys2Proof.Machine

variable (s : State) (i : Nat)

/-! ### Conditions (R105) -/

theorem offerCondition_frame (c : Cond) (p : PortId) :
    offerCondition s i c p = { s with boxes := (offerCondition s i c p).boxes } := by
  unfold offerCondition
  split <;> rfl

theorem raise_services (c : Cond) : (raise s i c).services =
    (s.modSvc i (fun v => { v with cond := { v.cond with flags := v.cond.flags ||| condBit c } })).services := by
  unfold raise
  dsimp only
  split
  · rfl
  · rw [offerCondition_frame _ _ _ .ap, offerCondition_frame _ _ _ .pp, offerCondition_frame _ _ _ .tp]

/-- Raising a condition changes the flags of its service and the event queues, and nothing else. -/
theorem raise_frame (c : Cond) : raise s i c = { s with services := (raise s i c).services, boxes := (raise s i c).boxes } := by
  unfold raise
  dsimp only
  split
  · rfl
  · rw [offerCondition_frame _ _ _ .ap, offerCondition_frame _ _ _ .pp, offerCondition_frame _ _ _ .tp]
    rfl

theorem raise_svc (c : Cond) (j : Nat) : (raise s i c).svc j = if j = i then
    { s.svc i with cond := { (s.svc i).cond with flags := (s.svc i).cond.flags ||| condBit c } } else s.svc j := by
  unfold State.svc
  rw [raise_services]
  exact State.svc_modSvc s i j _

@[simp] theorem raise_sp (c : Cond) (j : Nat) : (raise s i c).sp j = s.sp j := by
  unfold State.sp
  rw [raise_svc]
  split <;> simp_all

@[simp] theorem raise_lanes (c : Cond) : (raise s i c).lanes = s.lanes := by rw [raise_frame]
@[simp] theorem raise_entries (c : Cond) : (raise s i c).entries = s.entries := by rw [raise_frame]
@[simp] theorem raise_alerts (c : Cond) : (raise s i c).alerts = s.alerts := by rw [raise_frame]
@[simp] theorem raise_dir (c : Cond) : (raise s i c).dir = s.dir := by rw [raise_frame]
@[simp] theorem raise_localCount (c : Cond) : (raise s i c).localCount = s.localCount := by rw [raise_frame]

/-- The raised flag is set. -/
@[simp] theorem raise_flag (c : Cond) : ((raise s i c).svc i).cond.flags.getLsbD c.pos = true := by
  rw [raise_svc, if_pos rfl]
  cases c <;> simp [condBit, Cond.pos]

/-! ### Instances (R76, R77, R86) -/

/-- The test of `finished`, said in full. -/
theorem finished_iff (p : SpliceRec) (r : Role) (n : Inst) (h : p.inst r = some n) : finished p r = true ↔
    n.phase ≠ .seeking
    ∧ (((∃ c, c < n.map.length ∧ n.mapped c ≠ none) ∧ ∀ c, c < n.map.length → n.mapped c ≠ none → n.isStopped c = true)
      ∨ n.k = n.sealVals.k)
    ∧ ∀ x, p.head = some x → x.role ≠ r := by
  unfold finished
  rw [h]
  simp only [Bool.and_eq_true, Bool.or_eq_true, Inst.allStopped, Inst.spent, List.any_eq_true, List.all_eq_true,
    List.mem_range, bne_iff_ne, beq_iff_eq, and_assoc]
  refine and_congr Iff.rfl (and_congr (or_congr (and_congr ?_ ?_) Iff.rfl) ?_)
  · simp [Option.isSome_iff_ne_none]
  · refine forall_congr' fun c => forall_congr' fun _ => ?_
    cases n.mapped c <;> simp
  · cases p.head <;> simp

/-- Discarding an instance changes its service's splice record and the operation in flight, and nothing else. -/
theorem discardRole_frame (r : Role) : discardRole s i r =
    { s with services := (discardRole s i r).services, flash := (discardRole s i r).flash } := rfl

theorem discardRole_svc (r : Role) (j : Nat) : (discardRole s i r).svc j = if j = i then
    { s.svc i with sp := { (s.sp i).setInst r none with
        head := if (s.sp i).head.map (·.role) = some r then none else (s.sp i).head
        raReq := if (s.sp i).raReq.map (·.role) = some r then none else (s.sp i).raReq } } else s.svc j :=
  State.svc_setSvc s i _ j

theorem discardRole_flash (r : Role) : (discardRole s i r).flash = { s.flash with
    op := s.flash.op.map (fun o => if o.req = .readAhead i r then { o with orphan := true } else o) } := by
  simp [discardRole, Flash.orphan, State.modFlash, State.withFlash]

/-- An instance created in a free next role: what it is, and what changes with it. -/
theorem placeInst_spec (q : InstReq) {r : ClipRec} {v : Seal} (hr : s.clip q.clip = some r) (hv : r.sealVals = some v) :
    let t := placeInst s i q
    let n := newInst s i q r v
    t = { s with services := t.services, boxes := t.boxes } ∧ (∀ j, j ≠ i → t.svc j = s.svc j)
    ∧ t.sp i = { s.sp i with nxt := some n }
    ∧ (n.map.any (·.isNone) = true → (t.svc i).cond.flags.getLsbD Cond.unmap.pos = true) := by
  intro t n
  have ht : t = raiseIf (n.map.any (·.isNone)) (s.modSp i (fun p => { p with nxt := some n })) i .unmap := by
    simp only [t, placeInst, hr, hv]
    rfl
  rw [ht]
  unfold raiseIf
  split
  · next h =>
    refine ⟨?_, fun j hj => ?_, ?_, fun _ => raise_flag _ _ _⟩
    · exact raise_frame _ _ _
    · rw [raise_svc, if_neg hj]
      exact (State.svc_setSvc s i _ j).trans (if_neg hj)
    · rw [raise_sp, State.sp_modSp, if_pos rfl]
  · next h =>
    refine ⟨rfl, fun j hj => (State.svc_setSvc s i _ j).trans (if_neg hj), ?_, fun h' => absurd h' h⟩
    rw [State.sp_modSp, if_pos rfl]

/-! ### The end of a pod (R70, R94) -/

/-- The end of a pod reported: it is noted on the entry, a CUE entry without E takes the clip's end, and no other entry changes. -/
theorem podEnd_spec {n delta : Nat} {v : Seal} {e : Entry} (he : s.entry n = some e) :
    (podEnd s n delta v).entry n = some { e with
      podEnded := true, e := if e.retMode = .cue ∧ e.e = none then some (endOf v delta) else e.e }
    ∧ ∀ m, m ≠ n → (podEnd s n delta v).entry m = s.entry m := by
  unfold podEnd
  simp only [he]
  split
  · next h =>
    have hand : ∀ (u : State) (i x m : Nat), (handE u i x).entry m = u.entry m := by
      intro u i x m; unfold handE; split <;> rfl
    simp only [keepAwaiting, setE, State.entry_setEntry_self]
    refine ⟨?_, fun m hm => ?_⟩
    · exact (hand _ _ _ n).trans (State.entry_setEntry_self _ n _)
    · refine (hand _ _ _ m).trans ?_
      rw [State.entry_setEntry, if_neg hm, State.entry_setEntry, if_neg hm]
  · exact ⟨State.entry_setEntry_self s n _, fun m hm => (State.entry_setEntry s n _ m).trans (if_neg hm)⟩

/-! ### The end of a level-3 hold's clip (R178) -/

/-- A clip's end handed where no return point has been: the return goes toward it, the record's target holds it, and one awaited
from the next lead PES start stays awaited. -/
theorem handClipEnd_spec (r : Nat) (c : Inst) (h : (s.sp i).ret = .idle) (hb : (s.sp i).retBegun = false) :
    let fin := endOf c.sealVals (c.delta.getD 0)
    let t := handClipEnd s r i c
    t = { s with services := t.services, alerts := t.alerts } ∧ (∀ j, j ≠ i → t.svc j = s.svc j)
    ∧ t.svc i = { s.svc i with sp := { s.sp i with
        ret := .returning fin, retOverdue := false, retTimer := openTimer s i, retSeek := (s.cfgOf i).seekLimit } }
    ∧ t.alert r = (s.alert r).modTarget i (fun x => { x with e := some fin }) ∧ ∀ q, q ≠ r → t.alert q = s.alert q := by
  intro fin t
  let s1 := s.modAlert r (fun a => a.modTarget i (fun x => { x with e := some fin }))
  let f := fun (p : SpliceRec) => { p with
    ret := .returning fin, retOverdue := false, retTimer := openTimer s i, retSeek := (s.cfgOf i).seekLimit, fixE := false }
  have hn : ¬((s1.sp i).retBegun = true ∨ (s1.sp i).ret = .emergency) := by
    show ¬((s.sp i).retBegun = true ∨ (s.sp i).ret = .emergency)
    simp [h, hb]
  have ht : t = (s1.modSp i f).modSp i (fun p => { p with fixE := (s.sp i).fixE && !p.retBegun }) := by
    simp only [t, handClipEnd, keepAwaiting, alertE, handE]
    rw [if_neg hn]
    rfl
  rw [ht]
  refine ⟨rfl, fun j hj => ?_, ?_, State.alert_setAlert_self s r _, fun q hq => ?_⟩
  · exact (State.svc_setSvc _ i _ j).trans ((if_neg hj).trans ((State.svc_setSvc s1 i _ j).trans (if_neg hj)))
  · refine (State.svc_setSvc_self _ i _).trans ?_
    have e : (s1.modSp i f).svc i = { s.svc i with sp := f (s.sp i) } := State.svc_setSvc_self s1 i _
    rw [e]
    simp [f, hb]
  · exact (State.alert_setAlert s r _ q).trans (if_neg hq)

/-- What `repeatEnd` does: it hands the clip's end, or nothing. -/
theorem repeatEnd_cases : repeatEnd s i = s ∨ ∃ o nx r, (s.sp i).cur = some o ∧ (s.sp i).nxt = some nx ∧ o.owner = .alert r
    ∧ nx.owner = .alert r ∧ o.spent = true ∧ (s.sp i).ret = .idle ∧ lastPass s r = true ∧ repeatEnd s i = handClipEnd s r i o := by
  unfold repeatEnd
  split
  · next o nx hc hn =>
    split
    · next r ho =>
      split
      · next h => exact .inr ⟨o, nx, r, hc, hn, ho, h.2.1, h.1, h.2.2.1, h.2.2.2, rfl⟩
      · exact .inl rfl
    · exact .inl rfl
  · exact .inl rfl

end Sys2Proof.Machine
end

