-- ==== Sys2Proof/Laws/Merger.lean ====
section
/-! SUPPORT. What the merger's operations do: the late tests of a slot, a packet sent from a head or from the FIFO, and a PID handed
back (R14 to R18). -/

namespace Sys2Proof.Machine

variable (s : State) (k i t : Nat)

/-- Moving the count forward changes the count only (log 2). -/
theorem advanceTo_eq : advanceTo s t =
    { s with localCount := if atOrAfter nClk s.localCount t = true then s.localCount else t % nClk } := by
  unfold advanceTo
  split <;> rfl

/-- The packet considered at a slot: at the head, due, with its PID open (R14, R16). -/
theorem considered_iff (h : HeadPkt) : considered s k i t = some h ↔ (s.sp i).head = some h ∧ atOrAfter nClk t h.due = true
    ∧ ((s.lane k).pid h.pid).owner = .clip i ∧ ((s.lane k).pid h.pid).tail = 0 := by
  unfold considered
  cases hh : (s.sp i).head with
  | none => simp
  | some g =>
    simp only [dueAt, pidOpen, Option.ite_none_right_eq_some, Bool.and_eq_true, beq_iff_eq, Option.some.injEq]
    constructor
    · rintro ⟨⟨a, b, c⟩, rfl⟩; exact ⟨rfl, a, b, c⟩
    · rintro ⟨rfl, a, b, c⟩; exact ⟨⟨a, b, c⟩, rfl⟩

/-- A packet that passes the late test, or none, stays where it stands (R15). -/
theorem lateTests_of_none_late (h : ∀ g, considered s k i t = some g → tooLate s k t g = false) (n : Nat) :
    lateTests n s k i t = s := by
  cases n with
  | zero => rfl
  | succ n =>
    unfold lateTests
    split
    · next g hg => simp [h g hg]
    · rfl

/-- One that fails it is dropped, and the head that the engine fills next is tested (R15). -/
theorem lateTests_of_late (g : HeadPkt) (h : considered s k i t = some g) (hl : tooLate s k t g = true) (n : Nat) :
    lateTests (n + 1) s k i t = lateTests n (settle (dropHead s i)) k i t := by
  conv => lhs; unfold lateTests
  simp [h, hl]

/-- The late tests of a list of services leave a state in which no packet considered is too late. -/
theorem lateTests_foldl (n : Nat) (l : List Nat) (h : ∀ i ∈ l, ∀ g, considered s k i t = some g → tooLate s k t g = false) :
    l.foldl (fun s i => lateTests n s k i t) s = s := by
  induction l with
  | nil => rfl
  | cons j r ih =>
    simp only [List.foldl_cons]
    rw [lateTests_of_none_late s k j t (h j (by simp)) n]
    exact ih (fun i hi => h i (by simp [hi]))

/-- The clip packet at a head is sent: it becomes the lane's output with its counter, and leaves its head (R14, R17, R91). -/
theorem sendClip_eq (h : HeadPkt) (hh : (s.sp i).head = some h) : sendClip s k i =
    (s.setLane k ({ s.lane k with out := some (setCC h.pkt (clipCC ((s.lane k).pid h.pid) h.pkt).1) }.setPid h.pid
      (clipCC ((s.lane k).pid h.pid) h.pkt).2)).modSp i (fun p => { p with head := none }) := by
  unfold sendClip
  rw [hh]

/-- The hand-back of a PID of component `j` of service `i`: its marked packet is sent, it is marked as handed back, and a clip
packet of the PID at the head is dropped with DROP (R16, R99). -/
theorem handBack_eq (pid j : Nat) (hi : serviceOfPid s k pid = some i) (hj : compIndex (s.svc i) pid = some j) :
    let d := s.modSp i (fun p => { p with comps := p.comps.modify j (fun x => { x with unsent := false, handedBack := true }) })
    handBack s k pid = (match (s.sp i).head with
      | some h => if h.pid = pid then dropHead d i else d
      | none => d) := by
  intro d
  unfold handBack
  simp only [hi, hj]
  have : (d.sp i).head = (s.sp i).head := by rw [State.sp_modSp, if_pos rfl]
  show (match (d.sp i).head with
      | some h => if h.pid = pid then dropHead d i else d
      | none => d) = _
  rw [this]

/-- A PID that no service of the lane names as a component is handed back without any effect on a splice. -/
theorem handBack_of_none (pid : Nat) (h : ∀ i, serviceOfPid s k pid = some i → compIndex (s.svc i) pid = none) :
    handBack s k pid = s := by
  unfold handBack
  split
  · rfl
  · next i hi => simp [h i hi]

end Sys2Proof.Machine
end

