-- ==== Sys2Proof/Laws/PerInstr.lean ====
section
/-! SUPPORT. What holds of every constructor of Instr: a command's body has the length that R201 gives its code. -/

namespace Sys2Proof.Machine

theorem leBytes_length (n v : Nat) : (leBytes n v).length = n := by
  induction n generalizing v with
  | zero => rfl
  | succ n ih => simp [leBytes, ih]

end Sys2Proof.Machine

namespace Sys2Proof.Laws

open Sys2Proof.Machine

/-- A field that may be absent takes its bytes either way (R200). -/
theorem optBytes_length (n : Nat) (v : Option Nat) : (optBytes n v).length = n := by
  cases v <;> simp [optBytes, leBytes_length]

/-- Eight positions take 24 bytes (R201). -/
theorem positionBytes_length (l : List CompPos) : (positionBytes l).length = 3 * l.length := by
  induction l with
  | nil => rfl
  | cons c r ih => simp_all [positionBytes, leBytes_length]; omega

/-- The body of a well-formed command has a length that its code admits. -/
def Body.Statement (c : Instr) : Prop :=
  commandPort c ≠ none → c.wf = true → lengthOk ((encodeBody c).headD 0).toNat (encodeBody c).length = true

theorem Body.resetnAssert : Body.Statement .resetnAssert := fun h => absurd rfl h

theorem Body.resetnRelease : Body.Statement .resetnRelease := fun h => absurd rfl h

theorem Body.lowsupplyAssert : Body.Statement .lowsupplyAssert := fun h => absurd rfl h

theorem Body.lowsupplyRelease : Body.Statement .lowsupplyRelease := fun h => absurd rfl h

theorem Body.refLost : Body.Statement .refLost := fun h => absurd rfl h

theorem Body.refRestored : Body.Statement .refRestored := fun h => absurd rfl h

theorem Body.restoreCountGap : Body.Statement .restoreCountGap := fun h => absurd rfl h

theorem Body.packetArrival (lane : Fin 4) (bytes : Pkt) : Body.Statement (.packetArrival lane bytes) := fun h => absurd rfl h

theorem Body.inputLost (lane : Fin 4) : Body.Statement (.inputLost lane) := fun h => absurd rfl h

theorem Body.pcrLossTimeout (svc : Fin 48) : Body.Statement (.pcrLossTimeout svc) := fun h => absurd rfl h

theorem Body.slot (lane : Fin 4) : Body.Statement (.slot lane) := fun h => absurd rfl h

theorem Body.timeTrigger (entry : Fin 256) : Body.Statement (.timeTrigger entry) := fun h => absurd rfl h

theorem Body.searchOverdue (svc : Fin 48) : Body.Statement (.searchOverdue svc) := fun h => absurd rfl h

theorem Body.seekTimerExpiry (svc : Fin 48) : Body.Statement (.seekTimerExpiry svc) := fun h => absurd rfl h

theorem Body.returnOverdue (svc : Fin 48) : Body.Statement (.returnOverdue svc) := fun h => absurd rfl h

theorem Body.alertExpiry (record : Fin 4) : Body.Statement (.alertExpiry record) := fun h => absurd rfl h

theorem Body.pageReadComplete (outcome : ReadOutcome) (marker : Byte) : Body.Statement (.pageReadComplete outcome marker) := fun h => absurd rfl h

theorem Body.programComplete (pass : Bool) : Body.Statement (.programComplete pass) := fun h => absurd rfl h

theorem Body.eraseComplete (pass : Bool) : Body.Statement (.eraseComplete pass) := fun h => absurd rfl h

theorem Body.block0EraseComplete (pass : Bool) : Body.Statement (.block0EraseComplete pass) := fun h => absurd rfl h

theorem Body.flashOpTimeout : Body.Statement .flashOpTimeout := fun h => absurd rfl h

theorem Body.frameRefused (p : PortId) (body : List Byte) (chk : Byte) : Body.Statement (.frameRefused p body chk) := fun h => absurd rfl h

theorem Body.frameGap (p : PortId) : Body.Statement (.frameGap p) := fun h => absurd rfl h

theorem Body.framingError (p : PortId) : Body.Statement (.framingError p) := fun h => absurd rfl h

theorem Body.replySent (p : PortId) : Body.Statement (.replySent p) := fun h => absurd rfl h

theorem Body.identify (p : PortId) (res : Nat) : Body.Statement (.identify p res) := by
  intro _ _
  simp [encodeBody, lengthOk, leBytes_length]

theorem Body.readStatus (p : PortId) (res : Nat) : Body.Statement (.readStatus p res) := by
  intro _ _
  simp [encodeBody, lengthOk, leBytes_length]

theorem Body.portRate (p : PortId) (rate res : Nat) : Body.Statement (.portRate p rate res) := by
  intro _ _
  simp [encodeBody, lengthOk, leBytes_length]

theorem Body.readEvents (p : PortId) (count res : Nat) : Body.Statement (.readEvents p count res) := by
  intro _ _
  simp [encodeBody, lengthOk, leBytes_length]

theorem Body.watch (p : PortId) (members : BitVec 48) (res : Nat) : Body.Statement (.watch p members res) := by
  intro _ _
  simp [encodeBody, lengthOk, leBytes_length]

theorem Body.configureLane (p : PortId) (a : LaneArgs) : Body.Statement (.configureLane p a) := by
  intro _ _
  simp [encodeBody, lengthOk, leBytes_length, optBytes_length]

theorem Body.configureService (p : PortId) (a : ServiceArgs) : Body.Statement (.configureService p a) := by
  intro _ h
  have h8 : a.positions.length = 8 := by simp [Instr.wf, ServiceArgs.wf, positionsOk] at h; exact h.2.1
  simp [encodeBody, lengthOk, leBytes_length, optBytes_length, positionBytes_length, h8]

theorem Body.setMasks (p : PortId) (svc : Nat) (masks : BitVec 16) (res : Nat) : Body.Statement (.setMasks p svc masks res) := by
  intro _ _
  simp [encodeBody, lengthOk, leBytes_length]

theorem Body.clearConditions (p : PortId) (svc : Nat) (conds : BitVec 16) (res : Nat) : Body.Statement (.clearConditions p svc conds res) := by
  intro _ _
  simp [encodeBody, lengthOk, leBytes_length]

theorem Body.readService (p : PortId) (svc res : Nat) : Body.Statement (.readService p svc res) := by
  intro _ _
  simp [encodeBody, lengthOk, leBytes_length]

theorem Body.clearService (p : PortId) (svc form res : Nat) : Body.Statement (.clearService p svc form res) := by
  intro _ _
  simp [encodeBody, lengthOk, leBytes_length]

theorem Body.addEntry (p : PortId) (a : EntryArgs) : Body.Statement (.addEntry p a) := by
  intro _ h
  have h4 : a.pod.length = 4 := by simp [Instr.wf, EntryArgs.wf] at h; exact h.1.1.2
  simp [encodeBody, lengthOk, leBytes_length, h4]

theorem Body.cancelEntry (p : PortId) (entry res : Nat) : Body.Statement (.cancelEntry p entry res) := by
  intro _ _
  simp [encodeBody, lengthOk, leBytes_length]

theorem Body.readEntry (p : PortId) (entry res : Nat) : Body.Statement (.readEntry p entry res) := by
  intro _ _
  simp [encodeBody, lengthOk, leBytes_length]

theorem Body.ingestOpen (p : PortId) (a : IngestArgs) : Body.Statement (.ingestOpen p a) := by
  intro _ h
  have h8 : a.positions.length = 8 := by simp [Instr.wf, IngestArgs.wf, positionsOk] at h; exact h.2.1
  simp [encodeBody, lengthOk, leBytes_length, positionBytes_length, h8]

theorem Body.ingestData (p : PortId) (data : List Byte) : Body.Statement (.ingestData p data) := by
  intro _ h
  simp [Instr.wf] at h
  simp [encodeBody, lengthOk]
  omega

theorem Body.ingestClose (p : PortId) (checksum duration res : Nat) : Body.Statement (.ingestClose p checksum duration res) := by
  intro _ _
  simp [encodeBody, lengthOk, leBytes_length]

theorem Body.ingestAbort (p : PortId) (res : Nat) : Body.Statement (.ingestAbort p res) := by
  intro _ _
  simp [encodeBody, lengthOk, leBytes_length]

theorem Body.clipErase (p : PortId) (clip res : Nat) : Body.Statement (.clipErase p clip res) := by
  intro _ _
  simp [encodeBody, lengthOk, leBytes_length]

theorem Body.clipChecksum (p : PortId) (clip res : Nat) : Body.Statement (.clipChecksum p clip res) := by
  intro _ _
  simp [encodeBody, lengthOk, leBytes_length]

theorem Body.listDirectory (p : PortId) (start res : Nat) : Body.Statement (.listDirectory p start res) := by
  intro _ _
  simp [encodeBody, lengthOk, leBytes_length]

theorem Body.readClip (p : PortId) (clip res : Nat) : Body.Statement (.readClip p clip res) := by
  intro _ _
  simp [encodeBody, lengthOk, leBytes_length]

theorem Body.alertPreload (p : PortId) (slot named clip res : Nat) : Body.Statement (.alertPreload p slot named clip res) := by
  intro _ _
  simp [encodeBody, lengthOk, leBytes_length]

theorem Body.alertActivate (p : PortId) (a : AlertArgs) : Body.Statement (.alertActivate p a) := by
  intro _ h
  have h48 : a.targets.length = 48 := by simp [Instr.wf, AlertArgs.wf] at h; exact h.1.2
  simp [encodeBody, lengthOk, leBytes_length, h48]

theorem Body.alertCancel (p : PortId) (alert res : Nat) : Body.Statement (.alertCancel p alert res) := by
  intro _ _
  simp [encodeBody, lengthOk, leBytes_length]

theorem Body.protectionSet (p : PortId) (locks : BitVec 8) (res : Nat) : Body.Statement (.protectionSet p locks res) := by
  intro _ _
  simp [encodeBody, lengthOk, leBytes_length]

theorem Body.protectionRelease (p : PortId) (res : Nat) : Body.Statement (.protectionRelease p res) := by
  intro _ _
  simp [encodeBody, lengthOk, leBytes_length]

theorem Body.readProtection (p : PortId) (res : Nat) : Body.Statement (.readProtection p res) := by
  intro _ _
  simp [encodeBody, lengthOk, leBytes_length]

theorem Body.receiveByte (p : PortId) (b : Byte) : Body.Statement (.receiveByte p b) := fun h => absurd rfl h

end Sys2Proof.Laws
end

