-- ==== Sys2Proof/Laws/Ports.lean ====
section
/-! SUPPORT. What taking and answering a command does: the cases of `command`, and what `openExchange` and `answer` leave. -/

namespace Sys2Proof.Machine

variable (s : State) (p : PortId) (code : Nat)

/-! ### Opening an exchange -/

/-- The link of the port that opens an exchange. -/
theorem openExchange_eq : openExchange s p code =
    s.setLink p { s.link p with rx := Rx.hunt, out := some { code := byte1 code, reply := none } } := by
  simp [openExchange, toHunt]

/-- Opening an exchange changes the port's link and nothing else. -/
theorem openExchange_frame : openExchange s p code = { s with links := (openExchange s p code).links } := by
  rw [openExchange_eq]
  rfl

theorem openExchange_link (q : PortId) : (openExchange s p code).link q =
    if q = p then { s.link p with rx := Rx.hunt, out := some { code := byte1 code, reply := none } } else s.link q := by
  rw [openExchange_eq, State.link_setLink]

@[simp] theorem openExchange_lanes : (openExchange s p code).lanes = s.lanes := by rw [openExchange_eq]; rfl
@[simp] theorem openExchange_services : (openExchange s p code).services = s.services := by rw [openExchange_eq]; rfl
@[simp] theorem openExchange_entries : (openExchange s p code).entries = s.entries := by rw [openExchange_eq]; rfl
@[simp] theorem openExchange_alerts : (openExchange s p code).alerts = s.alerts := by rw [openExchange_eq]; rfl
@[simp] theorem openExchange_preloads : (openExchange s p code).preloads = s.preloads := by rw [openExchange_eq]; rfl
@[simp] theorem openExchange_dir : (openExchange s p code).dir = s.dir := by rw [openExchange_eq]; rfl
@[simp] theorem openExchange_flash : (openExchange s p code).flash = s.flash := by rw [openExchange_eq]; rfl
@[simp] theorem openExchange_ingests : (openExchange s p code).ingests = s.ingests := by rw [openExchange_eq]; rfl
@[simp] theorem openExchange_checks : (openExchange s p code).checks = s.checks := by rw [openExchange_eq]; rfl
@[simp] theorem openExchange_boxes : (openExchange s p code).boxes = s.boxes := by rw [openExchange_eq]; rfl
@[simp] theorem openExchange_localCount : (openExchange s p code).localCount = s.localCount := by rw [openExchange_eq]; rfl
@[simp] theorem openExchange_part : (openExchange s p code).part = s.part := by rw [openExchange_eq]; rfl
@[simp] theorem openExchange_monitor : (openExchange s p code).monitor = s.monitor := by rw [openExchange_eq]; rfl
@[simp] theorem openExchange_freeCtr : (openExchange s p code).freeCtr = s.freeCtr := by rw [openExchange_eq]; rfl

@[simp] theorem openExchange_lane (k : Nat) : (openExchange s p code).lane k = s.lane k := by simp [State.lane]
@[simp] theorem openExchange_svc (i : Nat) : (openExchange s p code).svc i = s.svc i := by simp [State.svc]
@[simp] theorem openExchange_sp (i : Nat) : (openExchange s p code).sp i = s.sp i := by simp [State.sp]
@[simp] theorem openExchange_entry (n : Nat) : (openExchange s p code).entry n = s.entry n := by simp [State.entry]
@[simp] theorem openExchange_alert (r : Nat) : (openExchange s p code).alert r = s.alert r := by simp [State.alert]
@[simp] theorem openExchange_preload (j : Nat) : (openExchange s p code).preload j = s.preload j := by simp [State.preload]
@[simp] theorem openExchange_clip (c : Nat) : (openExchange s p code).clip c = s.clip c := by simp [State.clip]
@[simp] theorem openExchange_ingest (q : PortId) : (openExchange s p code).ingest q = s.ingest q := by simp [State.ingest]
@[simp] theorem openExchange_check (q : PortId) : (openExchange s p code).check q = s.check q := by simp [State.check]
@[simp] theorem openExchange_box (q : PortId) : (openExchange s p code).box q = s.box q := by simp [State.box]

/-! ### Answering -/

/-- An answer changes the port's link and nothing else. -/
theorem answer_frame (st : Status) (l : List Byte) : answer s p st l = { s with links := (answer s p st l).links } := rfl

theorem answer_link (st : Status) (l : List Byte) (q : PortId) : (answer s p st l).link q =
    if q = p then (s.link p).form st l else s.link q := State.link_setLink s p _ q

/-- The answer of an open exchange stands in it. -/
theorem answer_replied (st : Status) (l : List Byte) (c : Byte) (h : (s.link p).out.map (·.code) = some c) :
    (answer s p st l).replied p c st l := by
  obtain ⟨o, ho, rfl⟩ := Option.map_eq_some_iff.mp h
  simp [State.replied, answer_link, Link.form, ho]

/-- A command answered at once on the state `u`, which differs from the opened exchange only beside the links. -/
theorem answer_onlyAnswers (u v : State) (st : Status) (l : List Byte) (hl : v.links = (openExchange u p code).links)
    (hv : v = { u with links := v.links }) : u.onlyAnswers (answer v p st l) p (byte1 code) st l := by
  have hq : ∀ q, v.link q = (openExchange u p code).link q := fun q => by simp [State.link, hl]
  constructor
  · rw [answer_frame]
    generalize (answer v p st l).links = x
    rw [hv]
  · intro q hne
    rw [answer_link, if_neg hne, hq, openExchange_link, if_neg hne]
  · exact answer_replied v p st l _ (by rw [hq, openExchange_link]; simp)
  · simp [answer_link, hq, openExchange_link]
  · simp [answer_link, hq, openExchange_link]

/-! ### The cases of a command's arrival -/

/-- All that the arrival of a command's frame can do: nothing under RESETN, a refusal, or the command taken. -/
theorem command_cases (run : State → Ans) :
    (s.resetAsserted = true ∧ command p code s run = s) ∨
    (s.resetAsserted = false ∧ ∃ st, judgeCommand s p code = some st ∧
      command p code s run = refuseFrame s p (byte1 code) st) ∨
    (s.resetAsserted = false ∧ judgeCommand s p code = none ∧
      command p code s run = (run (openExchange s p code)).done p) := by
  unfold command
  split
  · next h => exact .inl ⟨h, rfl⟩
  · next h =>
    refine .inr ?_
    split
    · next st hj => exact .inl ⟨by simpa using h, st, hj, rfl⟩
    · next hj => exact .inr ⟨by simpa using h, hj, rfl⟩

/-- A command that a free port of a RUNNING part is admitted is taken. -/
theorem command_taken (run : State → Ans) (h : s.takes p) (ha : admitted p code = true) :
    command p code s run = (run (openExchange s p code)).done p := by
  obtain ⟨⟨hr, ho, hs⟩, hp⟩ := h
  simp [command, judgeCommand, hr, ho, hs, hp, ha]

/-- The four commands taken during the scan are taken by every free port. -/
theorem command_taken_always (run : State → Ans) (h : s.free p) (ha : admitted p code = true)
    (hc : takenInScan code = true) : command p code s run = (run (openExchange s p code)).done p := by
  obtain ⟨hr, ho, hs⟩ := h
  simp [command, judgeCommand, hr, ho, hs, ha, hc]

end Sys2Proof.Machine
end

