-- ==== Sys2Proof/Laws/Tick.lean ====
section
/-! SUPPORT. What a tick can do: the cycle of the clock, then rows of passing time, each with its effect as a command. -/

namespace Sys2Proof.Machine

variable (s : State) (c : Instr)

/-- Every row takes a next state: the one that `runRow` gives. -/
theorem exec_eq_runRow : exec c s = .next (runRow s c) := by cases c <;> rfl

/-- A row of passing time at its turn: it is not due and nothing happens, or it has its effect as a command. -/
theorem runDue_cases : (rowDue s c = false ∧ runDue s c = s) ∨ (rowDue s c = true ∧ exec c s = .next (runDue s c)) := by
  unfold runDue
  split
  · next h => exact .inr ⟨h, exec_eq_runRow s c⟩
  · next h => exact .inl ⟨Bool.eq_false_iff.mpr h, rfl⟩

/-- What every row keeps, a list of rows keeps, be they taken outright or at their turn only. -/
theorem foldl_rows_keep {P : State → Prop} (h : ∀ u d v, P u → exec d u = .next v → P v) :
    ∀ (l : List Instr) (u : State), P u → P (l.foldl runRow u) ∧ P (l.foldl runDue u)
  | [], _, hu => ⟨hu, hu⟩
  | d :: r, u, hu => by
    have hd : P (runDue u d) := by
      rcases runDue_cases u d with ⟨-, e⟩ | ⟨-, e⟩
      · rw [e]; exact hu
      · exact h u d _ hu e
    exact ⟨(foldl_rows_keep h r _ (h u d _ hu (exec_eq_runRow u d))).1, (foldl_rows_keep h r _ hd).2⟩

/-- What the cycle of the clock and every row keep, a tick keeps. -/
theorem tick_keeps {P : State → Prop} (hc : P (clockCycle s)) (h : ∀ u d v, P u → exec d u = .next v → P v) (hs : P s) :
    P (tick s) := by
  unfold tick
  split
  · exact hs
  · exact (foldl_rows_keep h _ _ (foldl_rows_keep h _ _ hc).1).2

/-- A step is a command on the queue's rest, or a tick. -/
theorem step_cases {t : State} (h : step s = .next t) :
    (∃ d r, s.pending = d :: r ∧ exec d { s with pending := r } = .next t) ∨ (s.pending = [] ∧ t = tick s) := by
  unfold step at h
  split at h
  · next d r hp => exact .inl ⟨d, r, hp, h⟩
  · next hp => injection h with h; exact .inr ⟨hp, h.symm⟩

end Sys2Proof.Machine
end

