-- ==== Sys2Proof/Tests/Slice0.lean ====
section
/-! SUPPORT. Tests: ill-formed commands refused, bodies written out from R201, worked examples of the manual on one
row each, and for every obligation with hypotheses a state that meets them. -/

namespace Sys2Proof.Tests

open Sys2Proof.Machine

/- The kernel evaluates most of these theorems: one after another they need few threads. -/
set_option Elab.async false

/-! ### Well-formedness: one ill-formed term for each check -/

def noLane : LaneArgs := ⟨0, none, none, none, none, none, none, none, none, none, 0⟩
def eight : List CompPos := List.replicate 8 ⟨0, 0⟩
def service0 : ServiceArgs := ⟨0, 0, 1, 0, 100, 0, none, 0, eight⟩
def entry0 : EntryArgs := ⟨0, 0, 0, 1, 0, 0, 0, [1, 0, 0, 0], 0⟩
def ingest0 : IngestArgs := ⟨1, 100, 1, 1, 0, 0, eight⟩
def alert0 : AlertArgs := ⟨1, 1, 1, 0, 1, 0, List.replicate 48 0⟩

theorem test_wf_accepts : (Instr.configureLane .tp noLane).wf = true ∧ (Instr.configureService .tp service0).wf = true
    ∧ (Instr.addEntry .tp entry0).wf = true ∧ (Instr.ingestOpen .tp ingest0).wf = true
    ∧ (Instr.alertActivate .ap alert0).wf = true := by decide

theorem test_wf_lane : ([{ noLane with lane := 256 }, { noLane with rOut := some 65535 }, { noLane with delay := some 255 },
    { noLane with pool := some 65535 }, { noLane with lateLimit := some 255 }, { noLane with preroll := some 65535 },
    { noLane with seekLimit := some 65535 }, { noLane with rounding := some 255 },
    { noLane with lockWindow := some 4294967295 }, { noLane with lossTimeout := some 65535 },
    { noLane with res := 65536 }].map LaneArgs.wf).all (· == false) = true := by decide

theorem test_wf_service : ([{ service0 with svc := 256 }, { service0 with lane := 256 }, { service0 with count := 256 },
    { service0 with handling := 256 }, { service0 with ceiling := 65536 }, { service0 with pcrPid := 65536 },
    { service0 with cuePid := some 65535 }, { service0 with res := 65536 }, { service0 with positions := [] },
    { service0 with positions := List.replicate 8 ⟨65536, 0⟩ }].map ServiceArgs.wf).all (· == false) = true := by decide

theorem test_wf_entry : ([{ entry0 with svc := 256 }, { entry0 with trigKind := 256 }, { entry0 with retKind := 256 },
    { entry0 with podCount := 256 }, { entry0 with trigValue := 281474976710656 }, { entry0 with duration := 4294967296 },
    { entry0 with window := 4294967296 }, { entry0 with pod := [] }, { entry0 with pod := [65536, 0, 0, 0] },
    { entry0 with res := 65536 }].map EntryArgs.wf).all (· == false) = true := by decide

theorem test_wf_ingest : ([{ ingest0 with clip := 65536 }, { ingest0 with rate := 65536 }, { ingest0 with kDecl := 4294967296 },
    { ingest0 with count := 256 }, { ingest0 with pcrIndex := 256 }, { ingest0 with res := 65536 },
    { ingest0 with positions := List.replicate 8 ⟨0, 256⟩ }].map IngestArgs.wf).all (· == false) = true := by decide

theorem test_wf_alert : ([{ alert0 with alert := 65536 }, { alert0 with clip := 65536 }, { alert0 with duration := 65536 },
    { alert0 with loop := 256 }, { alert0 with count := 256 }, { alert0 with res := 256 }, { alert0 with targets := [] },
    { alert0 with targets := List.replicate 48 256 }].map AlertArgs.wf).all (· == false) = true := by decide

theorem test_wf_short_bodies : ([.identify .tp 256, .readStatus .tp 256, .portRate .tp 256 0, .portRate .tp 0 256,
    .readEvents .tp 256 0, .watch .tp 0 65536, .setMasks .tp 256 0 0, .clearConditions .tp 0 0 256, .readService .tp 256 0,
    .clearService .tp 0 256 0, .cancelEntry .tp 65536 0, .readEntry .tp 0 256, .ingestData .tp [],
    .ingestClose .tp 65536 0 0, .ingestClose .tp 0 4294967296 0, .ingestAbort .tp 256, .clipErase .tp 65536 0,
    .clipChecksum .tp 0 256, .listDirectory .tp 65536 0, .readClip .tp 65536 0, .alertPreload .ap 256 0 0 0,
    .alertPreload .ap 0 256 0 0, .alertCancel .ap 65536 0, .protectionSet .ap 0 256, .protectionRelease .ap 256,
    .readProtection .ap 256].map Instr.wf).all (· == false) = true := by decide

theorem test_wf_link_and_packet_rows : (Instr.packetArrival 0 [0x47#8]).wf = false
    ∧ (Instr.frameRefused .tp [] 0).wf = false ∧ (Instr.pageReadComplete (.good []) 0xFF#8).wf = false := by decide

/-! ### Bodies written out from R201 -/

theorem test_body_identify : decodeBody .tp [0x01#8, 0x00#8] = some (.identify .tp 0) := by decide

theorem test_body_configure_lane : decodeBody .tp
    [0x10#8, 0x02#8, 0x70#8, 0x94#8, 0x64#8, 0x70#8, 0x17#8, 0xFF#8, 0xFF#8, 0xFF#8, 0x90#8, 0x01#8, 0x01#8,
     0x8C#8, 0x0A#8, 0x00#8, 0x00#8, 0xFF#8, 0xFF#8, 0x00#8, 0x00#8] =
    some (.configureLane .tp ⟨2, some 38000, some 100, some 6000, none, none, some 400, some 1, some 2700, none, 0⟩) := by
  decide

theorem test_body_set_masks : decodeBody .pp [0x12#8, 0x0E#8, 0xBF#8, 0x03#8, 0x00#8] =
    some (.setMasks .pp 14 0x3BF#16 0) := by decide

theorem test_body_add_entry : decodeBody .tp
    [0x20#8, 0x0E#8, 0x01#8, 0x02#8, 0x02#8, 0x40#8, 0x42#8, 0x0F#8, 0x00#8, 0x00#8, 0x00#8, 0x00#8, 0x00#8, 0x00#8,
     0x00#8, 0x90#8, 0x5F#8, 0x01#8, 0x00#8, 0x2D#8, 0x01#8, 0x2E#8, 0x01#8, 0x00#8, 0x00#8, 0x00#8, 0x00#8, 0x00#8,
     0x00#8] = some (.addEntry .tp ⟨14, 1, 2, 2, 1000000, 0, 90000, [301, 302, 0, 0], 0⟩) := by decide

theorem test_body_ingest_close : decodeBody .pp [0x32#8, 0x34#8, 0x12#8, 0xE0#8, 0x32#8, 0x29#8, 0x00#8, 0x00#8, 0x00#8] =
    some (.ingestClose .pp 0x1234 2700000 0) := by decide

theorem test_body_clip_erase : decodeBody .tp [0x34#8, 0x2D#8, 0x01#8, 0x00#8] = some (.clipErase .tp 301 0) := by decide

theorem test_body_alert_preload : decodeBody .ap [0x40#8, 0x01#8, 0x01#8, 0x84#8, 0x03#8, 0x00#8] =
    some (.alertPreload .ap 1 1 900 0) := by decide

theorem test_body_protection_set : decodeBody .ap [0x43#8, 0x03#8, 0x00#8] = some (.protectionSet .ap 0x03#8 0) := by decide

theorem test_body_of_wrong_length_is_none : decodeBody .tp [0x34#8, 0x2D#8, 0x01#8] = none
    ∧ decodeBody .tp [0x16#8, 0x00#8] = none := by decide

/-! ### Fixtures -/

/-- The part after the scan of an empty array, but for its block lists. -/
def base : State := { State.reset with part := .running, flash := { State.reset.flash with op := none } }

def d0 : ServiceDef :=
  { lane := 0, comps := [⟨0x101, .video⟩, ⟨0x102, .audio⟩], pcrPid := 0x101, cuePid := some 0x1F0, strip := true, ceiling := 4000 }

/-- Lane 0: R_out 38,000, D 100 ms, Q 6,000, the other settings at R2's defaults. -/
def l0 : Lane :=
  { Lane.reset with
    mode := .running, cfg := { LaneSettings.reset with rOut := 38000, delay := 100, pool := 6000 }
    inputPresent := true, inputTimer := some 0, slotTime := 1001, base := 1001 }

/-- Service 0, LOCKED with σ = 5,000,000 and one lead sample of 27,000. -/
def v0 : Service :=
  { Service.reset with
    defn := some d0, clk := { ClockRec.reset with st := .locked, sigma := 5000000, lossTimer := some 0, leads := [27000] }
    sp := SpliceRec.reset 2 }

def on : State := { base with lanes := [(0, l0)], services := [(0, v0)], localCount := 1000 }

def withLane (f : Lane → Lane) : State := { on with lanes := [(0, f l0)] }
def withSvc (f : Service → Service) : State := { on with services := [(0, f v0)] }
def withSp (f : SpliceRec → SpliceRec) : State := withSvc (fun v => { v with sp := f v.sp })

def pad (l : List Byte) : Pkt := l ++ List.replicate (188 - l.length) 0xFF#8
/-- Header of R207: PID, payload-unit start, adaptation field control, continuity counter. -/
def hdr (pid : Nat) (pusi : Bool) (afc cc : Nat) : List Byte :=
  [0x47#8, byte1 (pid / 256 + (if pusi then 64 else 0)), byte1 pid, byte1 (afc * 16 + cc)]
def data (pid cc : Nat) : Pkt := pad (hdr pid false 1 cc)
def stamp (v m : Nat) : List Byte :=
  [byte1 (m * 16 + v / 1073741824 % 8 * 2 + 1), byte1 (v / 4194304), byte1 (v / 32768 % 128 * 2 + 1), byte1 (v / 128),
   byte1 (v % 128 * 2 + 1)]
def pes (pid cc pts : Nat) : Pkt :=
  pad (hdr pid true 1 cc ++ [0, 0, 1, 0xE0#8, 0, 0, 0x80#8, 0x80#8, 5] ++ stamp pts 2)
/-- A packet without payload that carries a PCR; `disc` is the discontinuity indicator. -/
def pcr (pid cc bs ext : Nat) (disc : Bool) : Pkt :=
  pad (hdr pid false 2 cc ++ [183, if disc then 0x90#8 else 0x10#8, byte1 (bs / 33554432), byte1 (bs / 131072),
    byte1 (bs / 512), byte1 (bs / 2), byte1 (bs % 2 * 128 + 0x7E + ext / 256), byte1 ext])

def go (s : State) (c : Instr) : State := match exec c s with | .next t => t | _ => s

/-! ### Worked examples of the manual -/

/-- 1.9: after slot 2 the accumulator holds remainder 22,000, and slot 3 falls 710 ticks later. -/
theorem test_slot_accumulator :
    let l := (go (withLane (fun l =>
      { l with base := 0, slotNo := 2, slotTime := 1421, slotRem := 2000 })) (.slot 0)).lane 0
    (l.slotNo, l.slotTime, l.slotRem) = (3, 2131, 22000) := by decide +kernel

/-- 1.10, step 3: the resume packet with input CC 3 after an output CC 12 leaves with CC 13, and the offset is 10. -/
theorem test_resume_counter :
    let l := (go (withLane (fun l => { l with
      fifo := [{ pkt := data 0x101 3, stamp := 0, resume := true }], slotTime := 2700000
      pids := [(0x101, { lastCC := some 12, prevIn := none, offset := 0, owner := .clip 0, tail := 0 })] })) (.slot 0)).lane 0
    l.out = some (data 0x101 13) ∧ l.pids = [(0x101, ⟨some 13, some 3, 10, .network, 0⟩)] := by decide +kernel

/-- 1.10, step 4: a duplicate of the network leaves with the counter of the packet it repeats. -/
theorem test_duplicate_counter : ((go (withLane (fun l => { l with
      fifo := [{ pkt := data 0x101 4, stamp := 0, resume := false }], slotTime := 2700000
      pids := [(0x101, { lastCC := some 14, prevIn := some 4, offset := 10, owner := .network, tail := 0 })] }))
      (.slot 0)).lane 0).out = some (data 0x101 14) := by decide +kernel

/-- 5.11: rebasing across the wrap by Δ = 8,589,929,000. -/
theorem test_rebase_wraps : rebase (pes 0x201 0 10000) 8589929000 = pes 0x201 0 4408
    ∧ wraps (pes 0x201 0 10000) 8589929000 = true ∧ wraps (pes 0x201 0 4000) 8589929000 = false
    ∧ rebase (pcr 0x201 0 6666 200 false) 8589929000 = pcr 0x201 0 1074 200 false := by decide +kernel

/-- 9.9: 80,000 declared packets reserve 30 blocks, and the first frame of 1,024 bytes leaves 84 in the assembler. -/
theorem test_ingest_sizes : blocksOf 80000 = 30 ∧ blocksOf 79808 = 29 ∧ 1024 % 188 = 84 := by decide

/-- R33, R34: a half is rounded to the even quotient, down, up, and toward zero. -/
theorem test_rounding : ([Rounding.nearestEven, .down, .up, .towardZero].map (fun m =>
    (roundDiv m 450, roundDiv m 150, roundDiv m (-450)))) =
    [(2, 0, -2), (1, 0, -2), (2, 1, -1), (1, 0, -1)] := by decide

/-- R32: the signed difference lies in −n/2 … n/2 − 1. -/
theorem test_signed_difference : sdiff nPts 0 4294967296 = -4294967296 ∧ sdiff nPts 4294967295 0 = 4294967295
    ∧ sdiff nPts 5 8589934590 = 7 := by decide

/-- R116: the positions that read 0, and a page as read of the wrong length. -/
theorem test_erased_page : zeroBits [0x00#8, 0xFF#8] = 8 ∧ zeroBits [0x00#8, 0xFE#8] = 9 ∧ (ReadOutcome.page (List.replicate 8191 0) (List.replicate 432 0)).wf = false := by
  decide +kernel

/-- 2.6: the five conversions under NEAREST-EVEN, and the one across the wrap, with λ = 27,000. -/
theorem test_conversion :
    let s := fun σ => ({ on with
      localCount := 0
      services := [(0, { v0 with clk := { v0.clk with sigma := σ } })] } : State)
    ([999999850, 1000000450, 999999550, 1000000100, 999999900].map (convert (s 1000000000) 0))
      = [some 3360333, some 3360335, some 3360331, some 3360333, some 3360333]
    ∧ convert (s 2576980377000) 0 900 = some 27003 := by decide +kernel

/-- 2.7: the clock record through PCRs 1 to 5. -/
theorem test_clock_jump :
    let at_ := fun (s : State) (l v : Nat) =>
      go { s with localCount := l } (.packetArrival 0 (pcr 0x101 0 (v / 300) (v % 300) false))
    let s0 := { on with services := [(0, { v0 with clk := { v0.clk with sigma := 1000000 } })] }
    let s1 := at_ s0 5000000 6000900
    let s2 := at_ s1 6080000 7500000
    let s3 := at_ s2 7160000 8161100
    let s4 := at_ s3 8240000 20000000
    let s5 := at_ s4 9320000 21081500
    ([s1, s2, s3, s4, s5].map (fun s => ((s.svc 0).clk.sigma, (s.svc 0).clk.cand, (s.svc 0).clk.leads.length))) =
      [(1000900, none, 1), (1000900, some 1420000, 1), (1001100, none, 1), (1001100, some 11760000, 1),
       (11761500, none, 0)] := by decide +kernel

/-- 5.12: the cut gives S_eff, Δ, W and the pacing offset, and hands PID 0x101 to the clip. -/
theorem test_network_cut :
    let n : Inst :=
      { clip := 101, owner := .entry 3, phase := .seeking, s := some 1999000, sEff := none, delta := none, w := none
        k := 0, accQ := 0, accR := 0, map := [some 0, some 1], stopped := [false, false], wrapRaised := false
        seekLimit := 400, seekTimer := none, overdue := false, fetch := 4, pages := []
        sealVals := ⟨2600, 78000, 29, [⟨0x201, .video⟩, ⟨0x202, .audio⟩], 0, 60000, 2760000, 9000000, 0, .tp⟩
        chain := [300] }
    let s := go { withSp (fun p => { p with nxt := some n }) with localCount := 586900000 }
      (.packetArrival 0 (pes 0x101 4 2000000))
    (s.sp 0).cur.map (fun x => (x.phase, x.sEff, x.delta, x.w)) = some (.playing, some 2000000, some 1940000, some 589600000)
    ∧ (s.sp 0).sigmaP = some 5000000 ∧ (s.lane 0).fifo = [] ∧ ((s.lane 0).pid 0x101).owner = .clip 0
    ∧ (s.sp 0).comps.map (fun c => (c.replaced, c.search)) = [(true, false), (false, true)] := by decide +kernel

/-- 11.9, steps 1 and 2: with a reply outstanding Read Events is answered BUSY and removes nothing. -/
theorem test_busy_takes_nothing :
    let s : State := { on with
      links := [(0, { Link.reset with out := some ⟨0x31#8, none⟩, rate := 3 })]
      boxes := [(0, { Box.reset with queue := [.refLost, .refRestored] })] }
    let t := go s (.readEvents .tp 16 0)
    (t.box .tp).queue.length = 2 ∧ (t.link .tp).out = some ⟨0x31#8, none⟩
    ∧ (t.link .tp).tx = some ⟨false, [0x4B#8, 0x02#8, 0x00#8, 0x04#8, 0x04#8, 0xF6#8]⟩ := by decide +kernel

/-- R200: the reply frame's check byte makes the sum of the bytes from LEN a multiple of 256. -/
theorem test_reply_frame : Reply.frame ⟨0x03#8, .ok, [0x01#8]⟩ = [0x4B#8, 0x03#8, 0x00#8, 0x03#8, 0x00#8, 0x01#8, 0xF9#8] := by
  decide

/-- Reset's tables are in canonical form. -/
theorem test_reset_canonical : Canonical State.reset where
  lanes := rfl
  pids _ := rfl
  services := rfl
  entries := rfl
  alerts := rfl
  preloads := rfl
  dir := rfl
  ingests := rfl
  checks := rfl
  links := rfl
  boxes := rfl
  rr := by decide
  nextPage := rfl
  made := rfl

/-! ### Witnesses: a state that meets the hypotheses of each statement, clause by clause -/

/-- Two ticks before a slot whose accumulator is the one of 1.9; the count stands at the end of its range. -/
def atEnd : State := { withLane (fun l => { l with base := 0, slotTime := 0 }) with localCount := nClk - 1 }

theorem test_witness_StepRunsFrontCommandOrOneTick :
    ({ base with pending := [.slot 0, .identify .tp 0] } : State).pending = .slot 0 :: [.identify .tp 0] ∧ atEnd.pending = [] ∧ atEnd.resetAsserted = false ∧ atEnd.refclk = true
    ∧ (atEnd.lane 0).mode = .running ∧ (atEnd.lane 0).slotTime = (atEnd.localCount + 1) % nClk := by decide

/-- The state that a step answers. -/
def after (s : State) : State := match step s with | .next t => t | _ => s

/-- R13, R19: the tick that brings the count from the end of its range to 0 sends the slot that falls there. -/
theorem test_tick_sends_slot : let t := after atEnd
    t.localCount = 0 ∧ (t.lane 0).slotNo = 1 ∧ (t.lane 0).slotTime = 710 ∧ t.pending = [] := by decide +kernel

/-- Lane 0 with a full FIFO. -/
def fullFifo : State := withLane (fun l => { l with
  fifo := List.replicate 16384 { pkt := [], stamp := 0, resume := false } })

theorem laneOfOne (s : State) (l : Lane) (h : s.lanes = [(0, l)]) (k : Nat) :
    s.lane k = if 0 = k then l else Lane.reset := by simp only [State.lane, h, Table.get]

theorem svcOfOne (s : State) (v : Service) (h : s.services = [(0, v)]) (i : Nat) :
    s.svc i = if 0 = i then v else Service.reset := by simp only [State.svc, h, Table.get]

theorem test_witness_CapacitiesKeptByEveryStep :
    Capacities { fullFifo with pending := [.packetArrival 0 (data 0x55 1)] } where
  fifo k := by
    rw [laneOfOne _ _ rfl]
    split
    · exact Nat.le_of_eq List.length_replicate
    · exact Nat.zero_le _
  leads i := by rw [svcOfOne _ _ rfl]; split <;> decide
  cues i := by rw [svcOfOne _ _ rfl]; split <;> decide
  queues p := by cases p <;> decide

/-- Lane 0 before slot 2 of 1.9. -/
def slot2 : State :=
  { withLane (fun l => { l with base := 5000, slotNo := 2, slotTime := 6421, slotRem := 2000 }) with localCount := 6421 }

theorem test_witness_SlotTimesStayExact : SlotTimes { slot2 with pending := [.slot 0] } where
  count := by decide
  time k := by rw [laneOfOne _ _ rfl]; split <;> decide
  rem k := by rw [laneOfOne _ _ rfl]; split <;> decide

/-! #### Fixtures of the schedule and the array -/

def seal0 : Seal :=
  { rate := 2600, k := 300, blocks := 1, comps := [⟨0x201, .video⟩, ⟨0x202, .audio⟩], pcrIndex := 0, c0 := 60000,
    endPts := 78000, pcr0 := 9000000, checksum := 0, origin := .tp }
def clip101 : ClipRec :=
  { clip := 101, region := .main, chain := [300], st := .good, decl := none, sealVals := some seal0, marker := .none, refs := 1 }
def clip900 : ClipRec := { clip101 with clip := 900, region := .alert, chain := [5], refs := 0 }
def timeEntry : Entry :=
  { num := 3, origin := .tp, svc := 0, trigger := .time 1000000000, pod := [101], retMode := .clipEnd, window := 90000,
    st := .pending, a := none, binding := none, s := none, sEff := none, e := none, commitment := 0, podIdx := 0,
    cancelled := false, xEnd := none, podEnded := false }

/-- A SEEKING instance of clip 101 toward S = 100,000. -/
def seeking (t : Option Nat) : Inst :=
  { clip := 101, owner := .entry 3, phase := .seeking, s := some 100000, sEff := none, delta := none, w := none, k := 0,
    accQ := 0, accR := 0, map := [some 0, some 1], stopped := [false, false], wrapRaised := false, seekLimit := 400,
    seekTimer := t, overdue := false, fetch := 0, pages := [], sealVals := seal0, chain := [300] }
def seek (t : Option Nat) (n : Nat) : State :=
  { withSp (fun p => { p with nxt := some (seeking t) }) with localCount := n }

def target (st : TStatus) (cut : Bool) : Target := { svc := 0, status := st, s := some 1, e := none, cut := cut, byEmergency := false }
/-- Record 3 ON with one target. -/
def alertOn (st : TStatus) (cut : Bool) : State :=
  { on with alerts := [(3, { st := .on, id := 4410, targets := [target st cut], clip := 900, duration := 1, loop := true,
                             timer := some 0, remTicks := 27000000, cause := .none })]
            dir := [(900, some { clip900 with refs := 1 })] }

/-! #### The invariants -/

/-- The tables of a state whose entries stand under their own numbers. -/
theorem numsOf {t : Table (Option Entry)} (h : t.all (fun x => (x.2.map (·.num)).getD x.1 == x.1) = true) (n : Nat) (e : Entry)
    (he : Table.get none t n = some e) : e.num = n := by
  induction t with
  | nil => simp [Table.get] at he
  | cons x r ih =>
    obtain ⟨j, v⟩ := x
    simp only [List.all_cons, Bool.and_eq_true, beq_iff_eq] at h
    simp only [Table.get] at he
    split at he
    · subst he; simpa [‹j = n›] using h.1
    · exact ih h.2 he

/-- Page 63 of block 266 in flight, the block's index 63. -/
def lastPage : State :=
  { on with
    flash := { on.flash with nextPage := [(266, 63)], op := some ⟨.ingest .pp, .program (.data 0 0 []), 266, 63, 301, 0, false, []⟩ }
    pending := [.programComplete true] }

theorem test_witness_PagesAreProgrammedInOrder : PageOrder lastPage ∧ ∀ c r, lastPage.pending = c :: r →
    c ≠ .resetnRelease ∧ c ≠ .flashOpTimeout ∧ (∀ p, c ≠ .eraseComplete p) ∧ ∀ o m, c ≠ .pageReadComplete o m := by
  refine ⟨⟨fun b => ?_, ?_⟩, fun c r h => ?_⟩
  · simp only [Flash.index, lastPage, Table.get]; split <;> omega
  · intro o ci first pkts h _; obtain rfl := (Option.some.inj h).symm; exact ⟨by decide, by decide⟩
  · obtain ⟨rfl, -⟩ : Instr.programComplete true = c ∧ _ := List.cons.inj h
    exact ⟨nofun, nofun, nofun, nofun⟩

/-- The same program in flight over a tick. -/
theorem test_witness_PagesAreProgrammedInOrder_tick : PageOrder { lastPage with pending := [] }
    ∧ lastPage.flash.op.any (fun o => o.kind != .erase && o.req != .scan) = true :=
  ⟨⟨test_witness_PagesAreProgrammedInOrder.1.1, test_witness_PagesAreProgrammedInOrder.1.2⟩, by decide⟩

def entry3 (st : EntryState) (c : Nat) : Entry := { timeEntry with st := st, s := some 100000, commitment := c }
/-- An ACTIVE entry of level 1 and an ARMED one of level 2 that fill the pool of 6,000 together. -/
def fullPool : State :=
  { on with
    entries := [(3, some (entry3 .active 2600)), (4, some { entry3 .armed 3400 with num := 4, origin := .pp })]
    pending := [.slot 0] }

theorem fullPool_entry (n : Nat) (e : Entry) (h : fullPool.entry n = some e) :
    n = 3 ∧ e = entry3 .active 2600 ∨ n = 4 ∧ e = { entry3 .armed 3400 with num := 4, origin := .pp } := by
  simp only [State.entry, fullPool, Table.get] at h
  split at h
  · exact .inl ⟨by omega, by simpa using h.symm⟩
  · split at h
    · exact .inr ⟨by omega, by simpa using h.symm⟩
    · cases h

theorem test_witness_ScheduleLawsKeptByEveryStep : SchedulerLaws fullPool where
  table := by decide
  num n e h := by rcases fullPool_entry n e h with ⟨rfl, rfl⟩ | ⟨rfl, rfl⟩ <;> rfl
  charged n e h := by rcases fullPool_entry n e h with ⟨rfl, rfl⟩ | ⟨rfl, rfl⟩ <;> decide
  oneActive n m e f h g := by
    rcases fullPool_entry n e h with ⟨rfl, rfl⟩ | ⟨rfl, rfl⟩ <;> rcases fullPool_entry m f g with ⟨rfl, rfl⟩ | ⟨rfl, rfl⟩ <;> decide
  oneArmed n m e f h g := by
    rcases fullPool_entry n e h with ⟨rfl, rfl⟩ | ⟨rfl, rfl⟩ <;> rcases fullPool_entry m f g with ⟨rfl, rfl⟩ | ⟨rfl, rfl⟩ <;> decide
  levels n m e f h g := by
    rcases fullPool_entry n e h with ⟨rfl, rfl⟩ | ⟨rfl, rfl⟩ <;> rcases fullPool_entry m f g with ⟨rfl, rfl⟩ | ⟨rfl, rfl⟩ <;> decide
  held r n e _ h := by rw [show fullPool.alert r = AlertRec.idle from rfl] at h; cases h
  cut r n e t _ h := absurd (show (fullPool.alert r).st = .idle from rfl) h
  targets r _ := by rw [show fullPool.alert r = AlertRec.idle from rfl]; decide
  pool k := by
    by_cases h : 0 = k
    · subst h; decide +kernel
    · have e : fullPool.schedule.filter (fun e => fullPool.laneOf e.svc == some k && (e.st == .armed || e.st == .active)) = [] := by
        rw [List.filter_eq_nil_iff]
        intro e he
        rw [(by decide : ∀ e ∈ fullPool.schedule, e.svc = 0) e he, show fullPool.laneOf 0 = some 0 from rfl]
        simp [h]
      rw [committed, e]
      exact Nat.zero_le _
  instances i r x n h := by
    rw [State.sp, svcOfOne fullPool v0 rfl] at h
    split at h <;> cases r <;> simp [SpliceRec.inst, v0, Service.reset, SpliceRec.reset] at h
  waits i q n h := by
    rw [State.sp, svcOfOne fullPool v0 rfl] at h
    split at h <;> simp [v0, Service.reset, SpliceRec.reset] at h

/-- Clip 101 with one holder of each kind: the pod of entry 3, a record, a slot and a checksum. -/
def held101 : State :=
  { on with
    entries := [(3, some (entry3 .pending 0))]
    dir := [(101, some { clip101 with refs := 4 })]
    alerts := [(0, { AlertRec.idle with st := .on, clip := 101 })], preloads := [(2, ⟨.filling, 101, []⟩)]
    checks := [(1, some ⟨101, 3, 0⟩)], pending := [.identify .tp 0] }

theorem clipOfOne (s : State) (c : Nat) (r : ClipRec) (h : s.dir = [(c, some r)]) (k : Nat) :
    s.clip k = if c = k then some r else none := by simp only [State.clip, h, Table.get]

theorem noUnits (s : State) (h : s.ingests = []) : IngestUnits s := by
  have e : ∀ p, (s.ingest p).st = .none := fun p => by simp only [State.ingest, h, Table.get, Ingest.reset]
  exact ⟨fun p hp => absurd (e p) hp, fun p _ _ hp => absurd (e p) hp⟩

theorem test_witness_ReferenceCountsEqualHolders : ClipReferences held101 where
  entries := by decide
  alerts := by decide
  preloads := by decide
  checks := by decide
  num := numsOf (by decide)
  key c r h := by
    rw [clipOfOne held101 101 _ rfl] at h
    split at h
    · obtain rfl := Option.some.inj h; assumption
    · cases h
  count c := by
    rw [refsOf, clipOfOne held101 101 _ rfl]
    by_cases h : 101 = c
    · subst h; decide
    · have h' : c ≠ 101 := fun e => h e.symm
      simp [holders, State.schedule, Table.vals, held101, entry3, timeEntry, h]
  ingesting c r h := by
    rw [clipOfOne held101 101 _ rfl] at h
    split at h
    · obtain rfl := Option.some.inj h; nofun
    · cases h
  units := noUnits _ rfl
  fills := nofun
  scan := nofun
  scanOp := nofun

/-- Block 256 is clip 101's, block 4095 is bad, the others but block 0 are free. -/
def placed : State :=
  { on with
    part := .running, dir := [(101, some { clip101 with chain := [256] })]
    flash := { on.flash with freeA := List.range' 1 255, freeM := List.range' 257 3838, bad := [4095] }
    pending := [.clipErase .tp 101 0] }

theorem perm_places (f : Flash) (c a b : List Nat) (x y : Nat) (ha : f.freeA = a) (hb : f.freeM = b) (hd : f.dirtyA = [])
    (hm : f.dirtyM = []) (hy : f.bad = [y]) (hx : c = [x]) :
    (f.freeA ++ f.freeM ++ f.dirtyA.map (·.block) ++ f.dirtyM.map (·.block) ++ f.bad ++ c).Perm (a ++ x :: (b ++ [y])) := by
  rw [ha, hb, hd, hm, hy, hx]
  simpa using (List.perm_append_singleton x (b ++ [y])).append_left a

theorem range_split : List.range' 1 4095 = List.range' 1 255 ++ 256 :: (List.range' 257 3838 ++ [4095]) := by
  rw [show [4095] = List.range' (257 + 3838) 1 from rfl, List.range'_append_1,
    show 256 :: List.range' 257 (3838 + 1) = List.range' (1 + 255) 3840 from (List.range'_succ (s := 256) (n := 3839) (step := 1)).symm,
    List.range'_append_1]

theorem test_witness_EachBlockIsInOnePlace : placed.part = .running ∧ BlockPlaces placed := by
  have op : placed.flash.op = none := by simp only [placed, on, base]
  refine ⟨rfl, ?_⟩
  constructor
  · rw [range_split]
    exact perm_places placed.flash _ _ _ 256 4095 (by simp only [placed]) (by simp only [placed]) (by decide) (by decide)
      (by decide) (by decide)
  · intro r b h
    cases r <;> simp only [placed, Flash.free, List.mem_range'_1] at h <;> simp only [blockRegion] <;> split <;> first | rfl | omega
  · intro r x h; cases r <;> simp [placed, Flash.dirty, on, base, State.reset, Flash.reset] at h
  · intro c r h b hb
    rw [clipOfOne placed 101 _ rfl] at h
    split at h
    · obtain rfl := Option.some.inj h; simp only [List.mem_singleton] at hb; subst hb; rfl
    · cases h
  · decide
  · intro c r h
    rw [clipOfOne placed 101 _ rfl] at h
    split at h
    · obtain rfl := Option.some.inj h; assumption
    · cases h
  · exact noUnits _ rfl
  · intro o k p h; rw [op] at h; cases h
  · intro o r h; rw [op] at h; cases h
  · intro o h; rw [op] at h; cases h

/-! #### The step and the whole machine -/

theorem test_witness_BodyOfWellFormedCommandDecodes : (Instr.configureLane .ap { noLane with rOut := some 65534 }).wf = true
    ∧ commandPort (.configureLane .ap { noLane with rOut := some 65534 }) = some .ap := by decide

theorem test_witness_FrameBytesActAsCommand : (Instr.clipErase .pp 65535 255).wf = true
    ∧ commandPort (.clipErase .pp 65535 255) = some .pp ∧ on.resetAsserted = false ∧ (on.link .pp).rx = Rx.hunt := by decide

/-- A part whose two locks are set. -/
def locked : State := { on with flash := { on.flash with prot := ⟨true, true, 1⟩ } }

theorem test_witness_LaneSettingsAndLocksChangeOnlyByTheirCommands : (∀ p a, Instr.slot 0 ≠ .configureLane p a)
    ∧ (∀ p b, Instr.slot 0 ≠ .receiveByte p b) ∧ Instr.slot 0 ≠ .resetnRelease ∧ (∃ t, exec (.slot 0) on = .next t)
    ∧ (∀ b, Instr.eraseComplete true ≠ .block0EraseComplete b) ∧ (∀ o m, Instr.eraseComplete true ≠ .pageReadComplete o m)
    ∧ (∃ t, exec (.eraseComplete true) locked = .next t)
    ∧ locked.flash.prot.ingestLock = true ∧ locked.flash.prot.eraseLock = true
    ∧ on.flash.prot.ingestLock = false ∧ on.flash.prot.eraseLock = false :=
  ⟨nofun, nofun, nofun, ⟨_, rfl⟩, nofun, nofun, ⟨_, rfl⟩, rfl, rfl, rfl, rfl⟩

theorem test_witness_ResetSilencesThePartAndRestoresResetState : on.lowsupply = false
    ∧ ({ on with lowsupply := true } : State).lowsupply = true := by decide

/-- A program in flight, and a box one event short of full. -/
def programming : State :=
  { on with boxes := [(0, { Box.reset with queue := List.replicate 31 .refLost })]
            flash := { on.flash with op := some ⟨.marker, .program .badBlock, 7, 0, 0, 0, false, []⟩ } }

theorem test_witness_SupplyAndReferenceFollowTheirPins : programming.resetAsserted = false ∧ programming.lowsupply = false
    ∧ (programming.box .tp).queue.length < 32
    ∧ State.reset.resetAsserted = false ∧ State.reset.lowsupply = false
    ∧ State.reset.flash.op.map (·.kind) = some .read
    ∧ ({ on with lowsupply := true } : State).resetAsserted = false
    ∧ on.resetAsserted = false ∧ on.monitor = .reference ∧ (on.box .ap).queue.length < 32 ∧ (on.svc 0).clk.st = .locked
    ∧ ({ on with monitor := .backup } : State).monitor = .backup ∧ on.pending = [] := by decide

theorem test_witness_ArrivingPacketIsSentOrQueued : (data 0x55 1).headD 0 = 0x47#8 ∧ on.resetAsserted = false
    ∧ (on.lane 3).mode = .bypass ∧ (on.lane 3).inputPresent = false ∧ ([0x46#8] : Pkt).headD 0 ≠ 0x47#8
    ∧ ((withLane (fun l => { l with mode := .bypass })).lane 0).inputPresent = true
    ∧ (on.lane 0).mode = .running ∧ (on.lane 0).inputPresent = true ∧ pktPid (data 0x1FFF 0) = 0x1FFF
    ∧ pktPid (data 0x55 1) ≠ 0x1FFF ∧ serviceOfPid on 0 (pktPid (data 0x55 1)) = none ∧ (on.box .pp).queue.length < 31 := by
  decide +kernel

theorem test_witness_ArrivingPacketIsSentOrQueued_overrun : fullFifo.resetAsserted = false
    ∧ 16384 ≤ (fullFifo.lane 0).fifo.length ∧ (fullFifo.lane 0).overrun = false
    ∧ serviceOfPid fullFifo 0 (pktPid (data 0x55 1)) = none :=
  ⟨rfl, Nat.le_of_eq List.length_replicate.symm, rfl, by decide +kernel⟩

/-- The premises of PcrObservationFollowsClockTable for a packet. -/
def pcrCase (s : State) (b : Pkt) (base ext : Nat) : Prop :=
  s.resetAsserted = false ∧ b.headD 0 = 0x47#8 ∧ (s.lane 0).mode = .running ∧ pktPid b ≠ 0x1FFF
  ∧ serviceOfPid s 0 (pktPid b) = some 0 ∧ compIndex (s.svc 0) (pktPid b) = some 0 ∧ excluded b = false ∧ pktPes b = none
  ∧ (s.svc 0).defn.map (·.pcrPid) = some (pktPid b) ∧ pktPcr b = some (base, ext)

def atClock (f : ClockRec → ClockRec) : State := withSvc (fun v => { v with clk := f v.clk })

/-- Extension 300; state UNLOCKED; a discontinuity; BACKUP; inside the window; outside it with no candidate, with a
candidate that agrees, and with one that does not. -/
theorem test_witness_PcrObservationFollowsClockTable :
    pcrCase on (pcr 0x101 0 1000 300 false) 1000 300
    ∧ pcrCase (atClock (fun _ => ClockRec.reset)) (pcr 0x101 0 1000 299 false) 1000 299
    ∧ pcrCase on (pcr 0x101 0 1000 0 true) 1000 0
    ∧ pcrCase { on with monitor := .backup } (pcr 0x101 0 1000 0 false) 1000 0
    ∧ pcrCase on (pcr 0x101 0 16679 0 false) 16679 0
    ∧ (sdiff nClk (16679 * 300) (addMod nClk 1000 5000000)).natAbs = 2700
    ∧ pcrCase (atClock (fun c => { c with cand := some 0 })) (pcr 0x101 0 9 0 false) 9 0
    ∧ (sdiff nClk (subMod nClk (9 * 300) 1000) 0).natAbs = 1700
    ∧ pcrCase (atClock (fun c => { c with cand := some 0 })) (pcr 0x101 0 1000 0 false) 1000 0 := by
  unfold pcrCase; and_intros <;> decide +kernel

/-- TIME entries at the first lock, whose PCR is 300,000,000: past the target by the window exactly and by one tick more; the firing
time reached exactly and one tick short. -/
def firstLocked (st : ClipState) : State :=
  let e := fun (n t : Nat) => (n, some { timeEntry with num := n, trigger := .time t })
  { atClock (fun _ => ClockRec.reset) with
    entries := [e 3 273000000, e 4 272999999, e 5 313500000, e 6 313500001], dir := [(101, some { clip101 with st := st, refs := 4 })] }

/-- The premises of the statements about a packet of component `j` of service 0. -/
theorem arrivesOf {s : State} {j : Nat} {b : Pkt} (h : s.resetAsserted = false ∧ b.headD 0 = 0x47#8
    ∧ (s.lane (0 : Fin 4).val).mode = .running ∧ pktPid b ≠ 0x1FFF ∧ serviceOfPid s (0 : Fin 4).val (pktPid b) = some 0
    ∧ compIndex (s.svc 0) (pktPid b) = some j) : s.arrives 0 0 j b :=
  ⟨⟨h.1, h.2.1, h.2.2.1, h.2.2.2.1⟩, h.2.2.2.2.1, h.2.2.2.2.2⟩

theorem examinesOf {s : State} {j : Nat} {b : Pkt} (h : s.resetAsserted = false ∧ b.headD 0 = 0x47#8
    ∧ (s.lane (0 : Fin 4).val).mode = .running ∧ pktPid b ≠ 0x1FFF ∧ serviceOfPid s (0 : Fin 4).val (pktPid b) = some 0
    ∧ compIndex (s.svc 0) (pktPid b) = some j ∧ excluded b = false) : s.examines 0 0 j b :=
  ⟨arrivesOf ⟨h.1, h.2.1, h.2.2.1, h.2.2.2.1, h.2.2.2.2.1, h.2.2.2.2.2.1⟩, h.2.2.2.2.2.2⟩

theorem test_witness_PcrObservationFollowsClockTable_firstLock (st : ClipState) : let s := firstLocked st
    let b := pcr 0x101 0 1000000 0 false
    s.examines 0 0 0 b ∧ pktPcr b = some (1000000, 0) ∧ pktPes b = none ∧ (s.svc 0).clk = ClockRec.reset
    ∧ (∀ n e, s.entry n = some e → e.num = n) ∧ (s.sp 0).comps[0]? = some CompState.reset ∧ (s.sp 0).nxt = none
    ∧ (s.sp 0).cutX = none ∧ (s.lane 0).fifo = [] ∧ (s.observed 0 0 0 b).entries.map (fun x => (x.1, x.2.map (·.st)))
        = (if st = .damaged then [] else [(3, some (.waiting .clock)), (5, some (.waiting .clock))]) ++ [(6, some .pending)] := by
  cases st <;> exact ⟨examinesOf (by and_intros <;> decide +kernel), by decide +kernel, by decide +kernel, rfl,
    numsOf (by decide), rfl, rfl, rfl, rfl, by decide +kernel⟩

/-- A PES start that also carries a PCR. -/
def pcrPes (cc base ext pts : Nat) : Pkt :=
  pad (hdr 0x101 true 3 cc ++ [7, 0x10#8, byte1 (base / 33554432), byte1 (base / 131072), byte1 (base / 512),
    byte1 (base / 2), byte1 (base % 2 * 128 + 0x7E + ext / 256), byte1 ext]
    ++ [0, 0, 1, 0xE0#8, 0, 0, 0x80#8, 0x80#8, 5] ++ stamp pts 2)

/-- The window full, without a PCR; a PCR that realigns after a discontinuity; the first lock by the packet's own PCR; and a
clock that stays UNLOCKED, the PCR's extension being 300. -/
theorem test_witness_LeadPesStartJoinsLeadWindow :
    (atClock (fun c => { c with leads := List.replicate 32 5 })).examines 0 0 0 (pes 0x101 1 9000)
    ∧ ((atClock (fun c => { c with leads := List.replicate 32 5 })).svc 0).clk.leads.length ≤ 32
    ∧ leadIdx (on.svc 0).defComps = some 0 ∧ pktPes (pes 0x101 1 9000) = some ⟨9000, none⟩ ∧ (on.svc 0).clk.st ≠ .unlocked
    ∧ (atClock (fun c => { c with cand := some (1000000 * 300 + 7 - 1000) })).examines 0 0 0 (pcrPes 1 1000000 7 9000)
    ∧ pktPes (pcrPes 1 1000000 7 9000) = some ⟨9000, none⟩ ∧ pktPcr (pcrPes 1 1000000 7 9000) = some (1000000, 7)
    ∧ (pcrEffect (atClock (fun c => { c with cand := some (1000000 * 300 + 7 - 1000) })) 0 300000007 false).1.leads = []
    ∧ (atClock (fun _ => ClockRec.reset)).examines 0 0 0 (pcrPes 1 1000000 7 9000)
    ∧ (pcrEffect (atClock (fun _ => ClockRec.reset)) 0 300000007 false).1.st = .locked
    ∧ (atClock (fun _ => ClockRec.reset)).examines 0 0 0 (pcrPes 1 1000000 300 9000)
    ∧ pktPcr (pcrPes 1 1000000 300 9000) = some (1000000, 300) ∧ ((atClock (fun _ => ClockRec.reset)).svc 0).clk.st = .unlocked := by
  and_intros <;> first | exact examinesOf (by and_intros <;> decide +kernel) | decide +kernel

/-- Two entries WAITING(CLOCK) of a service whose lead becomes present, the higher level second. -/
def leadless : State := { atClock (fun c => { c with leads := [] }) with
  dir := [(101, some { clip101 with refs := 2 })]
  entries := [(3, some { timeEntry with st := .waiting .clock }), (4, some { timeEntry with num := 4, origin := .pp, st := .waiting .clock })] }

theorem test_witness_LeadPesStartJoinsLeadWindow_present : let b := pes 0x101 1 9000
    let s1 := leadless.observed 0 0 0 b
    leadless.examines 0 0 0 b ∧ on.examines 0 0 0 b ∧ pktPcr b = none ∧ (leadless.svc 0).clk.leads = [] ∧ (on.svc 0).clk.leads ≠ []
    ∧ s1.entries.map (fun x => x.2.map (·.st)) = [some (.waiting .held), some .armed]
    ∧ (∃ n y, (s1.sp 0).nxt = some n ∧ n.s = some y ∧ atOrAfter nPts 9000 y = false ∧ n.overdue = false)
    ∧ (s1.sp 0).fixE = false ∧ (s1.sp 0).cutX = none ∧ (s1.sp 0).comps[0]? = some CompState.reset := by
  refine ⟨examinesOf ?_, examinesOf ?_, ?_, ?_, ?_, ?_, ⟨((leadless.observed 0 0 0 (pes 0x101 1 9000)).sp 0).nxt.get (by decide +kernel),
    3325663, ?_⟩, ?_⟩ <;> decide +kernel

/-- A cue packet of R203: an OUT of id 7 for tag 3 with a splice time. -/
def cueBody (id tag : Nat) : List Byte :=
  let b : List Byte := [0x4C#8, 0x01#8, 0, 0, 0, byte1 id, 1, 0x80#8, 0, 0, 0, 0x10#8, 0, 0, byte1 tag]
  b ++ [byte1 (byteSum b / 256), byte1 (byteSum b)]
def cuePkt (id tag : Nat) : Pkt := pad (hdr 0x1F0 true 1 0 ++ cueBody id tag)
def cueRec (id tag : Nat) : CueRec := { id := id, kind := .out, content := ⟨some 4096, none, false, tag⟩ }

def cueCase (s : State) (b : Pkt) : Prop :=
  s.resetAsserted = false ∧ b.headD 0 = 0x47#8 ∧ (s.lane 0).mode = .running ∧ pktPid b ≠ 0x1FFF
  ∧ serviceOfPid s 0 (pktPid b) = some 0 ∧ compIndex (s.svc 0) (pktPid b) = none ∧ (s.svc 0).defn = some d0
  ∧ excluded b = false ∧ (pktPusi b && hasPayload b) = true ∧ (s.lane 0).fifo.length < 16384

def withCues (l : List CueRec) : State := withSvc (fun v => { v with cues := l })

/-- A section that fails the tests, a repeat, an update, a ninth cue. -/
theorem test_witness_CueSectionUpdatesCueMemory :
    cueCase on (pad (hdr 0x1F0 true 1 0)) ∧ parseCue ((pad (hdr 0x1F0 true 1 0)).drop 4) = none
    ∧ cueCase (withCues [cueRec 7 3]) (cuePkt 7 3) ∧ parseCue ((cuePkt 7 3).drop 4) = some (cueRec 7 3, 0x80#8)
    ∧ cueCase (withCues [cueRec 7 4]) (cuePkt 7 3)
    ∧ cueCase (withCues ((List.range 8).map (fun j => cueRec (j + 10) 3))) (cuePkt 7 3)
    ∧ cueRec 7 3 ∉ (List.range 8).map (fun j => cueRec (j + 10) 3) := by unfold cueCase; and_intros <;> decide +kernel

/-- A cue section of `kind` (R203) with its parsed form: id 7, tag 3 when it is an OUT. -/
def actPkt (kind : Nat) : Pkt :=
  let b : List Byte := [0x4C#8, 0x01#8, 0, 0, 0, 7, byte1 kind, 0, 0, byte1 (if kind = 1 then 3 else 0)]
  pad (hdr 0x1F0 true 1 0 ++ b ++ [byte1 (byteSum b / 256), byte1 (byteSum b)])
def bound7 : Binding := { cueId := 7, flags := 0, splice := none, duration := none, auto := false }
/-- Two PENDING entries of service 0 on tag 3, the higher level second, without a lead. -/
def cueWaiting : State :=
  { atClock (fun c => { c with leads := [] }) with
    entries := [(3, some { entry3 .pending 0 with trigger := .cue 3 }),
                (4, some { entry3 .pending 0 with num := 4, origin := .pp, trigger := .cue 3 })] }
/-- An ACTIVE CUE entry bound to cue 7. -/
def cueActive (leads : List Int) : State :=
  { atClock (fun c => { c with leads := leads }) with
    entries := [(3, some { entry3 .active 2600 with trigger := .cue 3, retMode := .cue, binding := some bound7 })] }
/-- A WAITING and an ARMED entry bound to cue 7. -/
def cueBound : State :=
  { on with entries := [(3, some { entry3 (.waiting .clock) 0 with binding := some bound7 }),
                        (4, some { entry3 .armed 2600 with num := 4, origin := .pp, binding := some bound7 })] }

def actCase (s : State) (k : Nat) (c : CueRec) : Prop :=
  cueCase s (actPkt k) ∧ parseCue ((actPkt k).drop (payloadAt (actPkt k))) = some (c, 0) ∧ c ∉ (s.svc 0).cues
  ∧ Table.wf none s.entries = true

/-- An OUT with a winner and a loser, one whose id stands cancelled, one with no entry; an IN with and without an estimate; a
CANCEL of an ARMED entry. -/
theorem test_witness_CueActsOnSchedule :
    let out : CueRec := { id := 7, kind := .out, content := ⟨none, none, false, 3⟩ }
    let into : CueRec := { id := 7, kind := .into, content := ⟨none, none, false, 0⟩ }
    let cancel : CueRec := { id := 7, kind := .cancel, content := ⟨none, none, false, 0⟩ }
    (actCase cueWaiting 1 out
      ∧ byLevel ((entriesOf cueWaiting 0).filter (fun e => e.st == .pending && e.trigger == .cue 3)) = [4, 3]
      ∧ (cueWaiting.entry 4).isSome = true ∧ lead cueWaiting 0 = none ∧ cueWaiting.clipDamaged 101 = false)
    ∧ actCase (withCues [cancel]) 1 out ∧ actCase on 1 out ∧ entriesOf on 0 = []
    ∧ (actCase (cueActive [27000]) 2 into ∧ (activeEntry (cueActive [27000]) 0).isSome = true
      ∧ (estimate (cueActive [27000]) 0).isSome = true ∧ returnBegun (cueActive [27000]) 0 = false)
    ∧ actCase (cueActive []) 2 into ∧ estimate (cueActive []) 0 = none
    ∧ (actCase cueBound 3 cancel ∧ ((entriesOf cueBound 0).filter (fun e => e.boundTo 7 && e.waitsOrArmed)).map (·.num) = [3, 4]) := by
  unfold actCase cueCase; and_intros <;> decide +kernel

theorem test_witness_CueActsOnSchedule_numbers : ∀ s ∈ [cueWaiting, cueActive [], cueActive [27000], cueBound],
    ∀ n x, s.entry n = some x → x.num = n := by
  intro s h
  simp only [List.mem_cons, List.not_mem_nil, or_false] at h
  rcases h with rfl | rfl | rfl | rfl <;> exact numsOf (by decide)

/-- Clip 101's instance seeking the network toward `x`, for the ARMED entry 3. -/
def toNetwork (x : Option Nat) (late : Bool) : State :=
  { withSp (fun p => { p with nxt := some { seeking none with s := x, overdue := late } }) with
    localCount := 586900000, entries := [(3, some (entry3 .armed 2600))] }
/-- The audio's search open toward the cut that the video has taken. -/
def audioSearch (x : Nat) : State := withSp (fun p => { p with
  cutX := some x, cutSeek := 400, comps := [{ CompState.reset with replaced := true }, { CompState.reset with search := true }] })

/-- Packets that R6 excludes: a PES start with the transport error indicator, and one of adaptation field control 00. -/
def damagedPes : Pkt := (pes 0x101 4 2000000).set 1 0xC1#8
def withheld : List Pkt := [damagedPes, pad (hdr 0x101 true 0 4)]

/-- The lead PES start exactly at S; one tick before S; with S passed by the overdue search; without S; a packet that R6 excludes, the
search overdue or not. The audio exactly at the cut, and late. -/
theorem test_witness_NetworkPacketCutsToClip :
    (∀ y ∈ [some 2000000, some 2000001, none], ∀ l, ∀ b ∈ pes 0x101 4 2000000 :: withheld, (toNetwork y l).arrives 0 0 0 b)
    ∧ (∀ b ∈ withheld, excluded b = true ∧ (((toNetwork (some 2000001) true).observed 0 0 0 b).sp 0).nxt.map (·.overdue) = some true)
    ∧ (pktPes damagedPes).map (·.pts) = some 2000000
    ∧ (let s := (toNetwork (some 2000000) false).observed 0 0 0 (pes 0x101 4 2000000)
       leadIdx (s.svc 0).defComps = some 0 ∧ (s.sp 0).comps[0]? = some CompState.reset
       ∧ (s.sp 0).nxt.map (·.phase) = some .seeking ∧ (s.sp 0).cur = none ∧ (s.sp 0).ret = .idle ∧ (s.sp 0).retBegun = false
       ∧ (s.sp 0).fixE = false ∧ (s.sp 0).nxt.map (·.overdue) = some false
       ∧ s.entry 3 = some (entry3 .armed 2600) ∧ activeEntry s 0 = none)
    ∧ atOrAfter nPts 2000000 2000001 = false
    ∧ (let s := (toNetwork (some 2000001) true).observed 0 0 0 (pes 0x101 4 2000000)
       (s.sp 0).nxt.map (·.overdue) = some true)
    ∧ (audioSearch 2000000).arrives 0 0 1 (pes 0x102 4 2000000)
    ∧ (let s := (audioSearch 2000000).observed 0 0 1 (pes 0x102 4 2000000)
       (s.sp 0).comps[1]? = some { CompState.reset with search := true } ∧ (s.sp 0).cutX = some 2000000
       ∧ leadIdx (s.svc 0).defComps ≠ some 1) := by
  refine ⟨fun y hy l b hb => arrivesOf ?_, by decide +kernel, by decide +kernel, by and_intros <;> decide +kernel, by decide,
    by decide +kernel, arrivesOf (by and_intros <;> decide +kernel), by and_intros <;> decide +kernel⟩
  revert y l b; decide +kernel

/-- The video REPLACED under a return toward 200,000, under an emergency return, and under one found overdue. -/
def replacedUnder (r : Ret) (late : Bool) : State := withSp (fun p => { p with
  ret := r, retOverdue := late, retSeek := 400, retTimer := some 1000,
  comps := [{ CompState.reset with replaced := true }, CompState.reset] })

/-- A PES start exactly at E; a tick before E; a packet without one, and one that R6 excludes, the return overdue; an emergency
return. -/
theorem test_witness_ReplacedComponentResumes :
    ∀ s ∈ [replacedUnder (.returning 200000) false, replacedUnder (.returning 200001) false, replacedUnder (.returning 200001) true,
      replacedUnder .emergency false], ∀ b ∈ [pes 0x101 4 200000, data 0x101 4, damagedPes], s.arrives 0 0 0 b
      ∧ ((s.observed 0 0 0 b).sp 0).comps[0]? = some { CompState.reset with replaced := true }
      ∧ ((s.observed 0 0 0 b).sp 0).fixE = false ∧ ((s.observed 0 0 0 b).sp 0).ret = (s.sp 0).ret
      ∧ ((s.observed 0 0 0 b).sp 0).retOverdue = (s.sp 0).retOverdue ∧ (s.lane 0).fifo.length < 16384 := by
  intro s hs b hb
  refine ⟨arrivesOf ?_, ?_⟩ <;> revert s b <;> decide +kernel

/-- The return point awaited, of the ACTIVE entry 3 and of alert record 3 that has cut. -/
def awaiting : State := withSp (fun p => { p with fixE := true, comps := [{ CompState.reset with replaced := true }, CompState.reset] })
def entryAwaits : State := { awaiting with entries := [(3, some (entry3 .active 2600))] }
def alertAwaits : State := { awaiting with alerts := (alertOn .held true).alerts }

theorem test_witness_ReplacedComponentResumes_awaited : (∀ s ∈ [entryAwaits, alertAwaits], s.arrives 0 0 0 (pes 0x101 4 200000)
      ∧ leadIdx (s.svc 0).defComps = some 0
      ∧ (let s1 := s.observed 0 0 0 (pes 0x101 4 200000)
         (s1.sp 0).comps[0]? = some { CompState.reset with replaced := true } ∧ (s1.sp 0).fixE = true ∧ (s1.sp 0).retBegun = false
         ∧ (s1.sp 0).ret ≠ .emergency ∧ s1.entry 3 = s.entry 3 ∧ (activeEntry s1 0).map (·.num) = (activeEntry s 0).map (·.num)
         ∧ holdingAlert s1 0 = holdingAlert s 0 ∧ (s1.alert 3).target 0 = (s.alert 3).target 0))
    ∧ activeEntry entryAwaits 0 = some (entry3 .active 2600) ∧ holdingAlert entryAwaits 0 = none
    ∧ holdingAlert alertAwaits 0 = some 3 ∧ (alertAwaits.alert 3).target 0 = some (target .held true) := by
  refine ⟨fun s hs => ⟨arrivesOf ?_, ?_⟩, ?_⟩
  · revert s; decide +kernel
  · revert s; decide +kernel
  · decide +kernel

theorem test_witness_InputLossAndPcrLossTakeEffect : on.resetAsserted = false ∧ (on.lane 0).inputPresent = true
    ∧ (on.lane 0).inputTimer = some 0 ∧ (on.svc 0).clk.st = .locked ∧ (on.svc 0).clk.lossTimer = some 0 := by decide

theorem test_witness_SlotSendsOnePacketAndAdvances : on.resetAsserted = false ∧ (on.lane 0).mode = .running
    ∧ (on.lane 0).fifo = [] ∧ ∀ i ∈ on.servicesOf 0, (on.sp i).head = none := by decide +kernel

/-- A resume packet at the FIFO's head, due exactly at the slot. -/
def dueNow : State := withLane (fun l => { l with
  fifo := [{ pkt := data 0x101 3, stamp := 0, resume := true }], slotTime := 2700000
  pids := [(0x101, { lastCC := some 12, prevIn := none, offset := 0, owner := .clip 0, tail := 0 })] })

/-- The same with a clip packet of the PID at the head, due one tick after the slot. -/
def handingBack : State := { dueNow with
  services := [(0, { v0 with sp := { v0.sp with head := some ⟨data 0x101 9, 0, 0x101, 2700001, 0, .current⟩ } })] }

theorem test_witness_SlotSendsNetworkPacketWithItsCounter : (∀ s ∈ [dueNow, handingBack], s.resetAsserted = false
      ∧ (s.lane 0).mode = .running ∧ (s.lane 0).fifo = ⟨data 0x101 3, 0, true⟩ :: []
      ∧ (∀ i ∈ s.servicesOf 0, considered s 0 i (s.lane 0).slotTime = none)
      ∧ atOrAfter nClk (s.lane 0).slotTime ((0 + (s.lane 0).cfg.delay * 27000) % nClk) = true
      ∧ ((s.lane 0).pid 0x101).tail = 0 ∧ serviceOfPid s 0 0x101 = some 0 ∧ compIndex (s.svc 0) 0x101 = some 0)
    ∧ (dueNow.sp 0).head = none ∧ (handingBack.sp 0).head.map (·.pid) = some 0x101 := by decide +kernel

/-- R16, R99: the marked packet of the component is sent, and the clip packet of its PID leaves the head with DROP. -/
theorem test_hand_back : (let t := sendNetwork handingBack 0
    (t.sp 0).head = none ∧ (t.sp 0).comps[0]? = some { CompState.reset with handedBack := true }
    ∧ (t.svc 0).cond.flags.getLsbD Cond.drop.pos = true ∧ ((t.lane 0).pid 0x101).owner = .network) := by decide +kernel

/-- A clip packet at service 0's head, due `d` ticks before the slot; its switch moment is `w`. -/
def clipHead (d w : Nat) : State :=
  { withSp (fun p => { p with head := some ⟨data 0x101 9, 0, 0x101, 1000000, w, .current⟩ }) with
    lanes := [(0, { l0 with slotTime := 1000000 + d
                            pids := [(0x101, { lastCC := some 6, prevIn := none, offset := 0, owner := .clip 0, tail := 0 })] })] }

def clipCase (s : State) : Prop :=
  s.resetAsserted = false ∧ (s.lane 0).mode = .running ∧ (s.lane 0).fifo = [] ∧ 0 ∈ s.servicesOf 0
  ∧ (∀ j ∈ s.servicesOf 0, j ≠ 0 → (s.sp j).head = none) ∧ (s.sp 0).head.map (fun h => (h.due, h.pid)) = some (1000000, 0x101)
  ∧ Table.wf Service.reset s.services = true
  ∧ atOrAfter nClk (s.lane 0).slotTime 1000000 = true ∧ ((s.lane 0).pid 0x101).owner = .clip 0
  ∧ ((s.lane 0).pid 0x101).tail = 0

/-- Exactly at the late limit; one tick past it; past it in catch-up, due before the switch moment. -/
theorem test_witness_SlotSendsClipPacketWithNextCounter :
    clipCase (clipHead 540000 999999) ∧ sdiff nClk 1540000 1000000 ≤ 20 * 27000
    ∧ clipCase (clipHead 540001 999999) ∧ atOrAfter nClk 1000000 999999 = true ∧ 20 * 27000 < sdiff nClk 1540001 1000000
    ∧ clipCase (clipHead 540001 1000001) ∧ atOrAfter nClk 1000000 1000001 = false := by unfold clipCase; and_intros <;> decide +kernel

/-! #### The splice engine and passing time -/

/-- A PENDING TIME entry of a clip in the directory. -/
def timed (leads : List Int) (pool : Nat) : State :=
  { on with entries := [(3, some timeEntry)], dir := [(101, some clip101)]
            services := [(0, { v0 with clk := { v0.clk with leads := leads } })]
            lanes := [(0, { l0 with cfg := { l0.cfg with pool := pool } })] }

/-- An ARMED entry's search past its deadline, and at the same tick the TIME trigger of an entry of the higher level. -/
def overtaken : State :=
  { withSp (fun p => { p with nxt := some { seeking none with s := some 7670 } }) with
    entries := [(3, some { entry3 .armed 2600 with s := some 7670 }),
                (4, some { timeEntry with num := 4, origin := .pp, trigger := .time 18501000 })]
    dir := [(101, some { clip101 with refs := 2 })] }

/-- R19, R61: the demotion discards the searching instance; the newcomer's search is not overdue, and the count goes on by one. -/
theorem test_demotion_calls_off_overdue_search : triggerDue overtaken 4 = true ∧ searchDue overtaken 0 = true ∧ (let t := after overtaken
    t.localCount = 1001 ∧ (t.entry 4).map (·.st) = some .armed ∧ (t.entry 3).map (·.st) = some (.waiting .held)
    ∧ (t.sp 0).nxt.map (fun n => (n.owner, n.overdue)) = some (.entry 4, false)) := by decide +kernel

/-- Page 0 of a clip: packet 1 starts a video PES of PTS 70,000, the even packets are audio. -/
def page0 : Page :=
  { no := 0, pkts := (List.range 43).map (fun j => if j = 1 then pes 0x201 1 70000 else data (if j % 2 = 0 then 0x202 else 0x201) 0) }
/-- Clip 101 of `n` packets at packet `k`, playing from 100,000 by Δ = 40,000. -/
def playAt (k n : Nat) : Inst :=
  { seeking none with phase := .playing, sEff := some 100000, delta := some 40000, w := some 777, fetch := 1, pages := [page0],
                      k := k, accQ := 11, accR := 2599, sealVals := { seal0 with k := n } }
def emitting (k n : Nat) (f : SpliceRec → SpliceRec) : State :=
  withSp (fun p => f { p with cur := some (playAt k n), sigmaP := some 1234567 })

/-- The mapped video; the audio gone back to the network; an unmapped component; a PTS at the modulus with Δ added. -/
theorem test_witness_EmissionHeadTakesRebasedPacket :
    (∃ l r, (emitting 1 300 id).listed = l ++ 0 :: r ∧ (∀ j ∈ l, svcStep (emitting 1 300 id) j = none))
    ∧ (svcStep (emitting 1 300 id) 0).isSome = true
    ∧ (∀ s ∈ [emitting 1 300 id, emitting 0 300 (fun p => { p with comps := [{ CompState.reset with replaced := true },
          { CompState.reset with handedBack := true }] }),
        emitting 1 300 (fun p => { p with cur := some { playAt 1 300 with map := [none, some 1] } })],
      (s.sp 0).nxt = none ∧ (s.sp 0).waiting = none ∧ (s.sp 0).ret = .idle ∧ (s.sp 0).head = none ∧ (s.sp 0).sigmaP = some 1234567
      ∧ (s.sp 0).cur.any (fun n => n.packet.isSome && n.packet.any (fun b => (n.compOf b).any (fun c => !n.isStopped c))) = true
      ∧ clipEndStep s 0 = none ∧ finishOrPromote s 0 = none)
    ∧ pktPcr (pes 0x201 1 70000) = none ∧ 7 ≤ pktAfLen (pcr 0x201 0 5 0 false) ∧ (pes 0x201 1 70000).length = 188
    ∧ nPts ≤ 70000 + (nPts - 70000) ∧ ¬(nPts ≤ 69999 + (nPts - 70000)) :=
  ⟨⟨[], [], by decide +kernel, nofun⟩, by decide +kernel⟩

/-- Clip 102 seeking the clip that plays, toward `x`. -/
def nextToward (x : Nat) (late : Bool) : Inst := { seeking none with clip := 102, s := some x, owner := .entry 3, overdue := late }
def podEntry : Entry := { entry3 .active 2600 with pod := [101, 102] }
def clipCut (k n x : Nat) (late : Bool) : State :=
  { emitting k n (fun p => { p with nxt := some (nextToward x late) }) with entries := [(3, some podEntry)] }
/-- The incoming instance is the ARMED entry 4's, of the higher level. -/
def armedCut : State :=
  { emitting 1 300 (fun p => { p with nxt := some { nextToward 110000 false with owner := .entry 4 } }) with
    entries := [(3, some (entry3 .active 2600)), (4, some { entry3 .armed 2600 with num := 4, origin := .pp })] }

/-- The rebased PTS of 110,000 exactly at S; S passed by the overdue search; the last packet, one tick before S, at exhaustion; the
cut of an ARMED entry. -/
theorem test_witness_ClipCutOrExhaustionHandsOver :
    (∀ s ∈ [clipCut 1 300 110000 false, clipCut 1 300 110001 true, clipCut 1 2 110001 false, armedCut],
      (s.sp 0).head = none ∧ (s.sp 0).ret = .idle ∧ (s.sp 0).retBegun = false
      ∧ (s.sp 0).nxt.map (·.phase) = some .seeking ∧ (s.sp 0).cur.bind (·.packet) = some (pes 0x201 1 70000)
      ∧ (s.sp 0).cur.bind (·.leadComp) = some 0 ∧ (s.sp 0).cur.bind (fun o => o.compOf (pes 0x201 1 70000)) = some 0
      ∧ (s.sp 0).cur.any (fun o => o.isStopped 0) = false ∧ Table.wf none s.entries = true)
    ∧ seekOverdue (clipCut 1 300 110000 false) 0 (nextToward 110000 false) = false
    ∧ seekOverdue (clipCut 1 300 110001 true) 0 (nextToward 110001 true) = true
    ∧ seekOverdue (clipCut 1 2 110001 false) 0 (nextToward 110001 false) = false
    ∧ (70000 + 40000) % nPts = 110000 ∧ atOrAfter nPts 110000 110001 = false ∧ (playAt 1 2).k + 1 = (playAt 1 2).sealVals.k
    ∧ (clipCut 1 2 110001 false).entry 3 = some podEntry ∧ podEntry.podIdx + 2 = podEntry.pod.length
    ∧ (activeEntry armedCut 0).map (·.num) = some 3 ∧ (armedCut.entry 4).map (·.st) = some .armed := by
  decide +kernel

/-- Record 0's clip 102 at the last packet with its repeat behind it, SEEKING; the clip in the state `c`. -/
def repeating (x : Nat) (c : ClipState) : State :=
  { emitting 1 2 (fun p => { p with cur := some { playAt 1 2 with owner := .alert 0 }
                                    nxt := some { nextToward x false with owner := .alert 0 } }) with
    alerts := [(0, { AlertRec.idle with st := .on, id := 5, clip := 102, loop := true, targets := [target .held true] })]
    dir := [(102, some { clip101 with clip := 102, st := c })] }

/-- The last packet of the clip as the repeat's cut and at exhaustion, the clip DAMAGED and not. -/
theorem test_witness_ClipCutOrExhaustionHandsOver_repeat : ∀ x ∈ [110000, 110001], ∀ c ∈ [ClipState.good, .damaged], let s := repeating x c
    (s.sp 0).head = none ∧ (s.sp 0).cur.bind (·.packet) = some (pes 0x201 1 70000) ∧ (s.sp 0).ret = .idle ∧ (s.sp 0).retBegun = false
    ∧ (s.sp 0).cur.any (fun o => o.owner == .alert 0 && o.k + 1 == o.sealVals.k) = true
    ∧ (s.sp 0).nxt.any (fun n => n.owner == .alert 0 && n.phase == .seeking && !seekOverdue s 0 n) = true
    ∧ (s.alert 0).target 0 = some (target .held true) ∧ (s.alert 0).loop = true
    ∧ s.clipDamaged (s.alert 0).clip = (c == .damaged) := by decide +kernel

/-- R178 with R85: the repeat of a DAMAGED clip is cut at exhaustion, and the end of the clip, the seal's end PTS plus 40,000, is
handed as the return point; that of a good clip is not. -/
theorem test_damaged_loop_hands_its_end : ([ClipState.damaged, .good].map (fun c =>
    (fillHead (repeating 110001 c) 0).map (fun t => ((t.sp 0).ret, (t.sp 0).nxt.map (·.phase))))) =
    [some (.returning ((seal0.endPts + 40000) % nPts), some .playing), some (.idle, some .playing)] := by decide +kernel

/-- A clip that has run out; one all of whose mapped components have stopped; an incoming one that has run out behind one that plays. -/
def ranOut : State := emitting 300 300 id
def allStopped : State := emitting 1 300 (fun p => { p with cur := some { playAt 1 300 with phase := .ending, stopped := [true, true] } })
def nextRanOut : State := emitting 1 300 (fun p => { p with nxt := some (playAt 300 300) })
def promoting : State := withSp (fun p => { p with nxt := some (playAt 1 300) })
def requesting : State :=
  { withSp (fun p => { p with waiting := some { clip := 102, s := some 110000, owner := .entry 4 } }) with
    dir := [(102, some { clip101 with clip := 102 })] }

theorem test_witness_ClipCutOrExhaustionHandsOver_acts :
    (∀ s ∈ [ranOut, allStopped, nextRanOut], (s.sp 0).waiting = none ∧ clipEndStep s 0 = none ∧ lateExhaust s 0 = none
      ∧ (s.sp 0).head = none)
    ∧ (ranOut.sp 0).cur = some (playAt 300 300) ∧ (playAt 300 300).phase ≠ .seeking
    ∧ (playAt 300 300).k = (playAt 300 300).sealVals.k
    ∧ (allStopped.sp 0).cur.any (fun n => n.mapped 0 == some 0 && n.map.length == 2 && n.isStopped 0 && n.isStopped 1) = true
    ∧ (nextRanOut.sp 0).cur = some (playAt 1 300) ∧ finished (nextRanOut.sp 0) .current = false
    ∧ (nextRanOut.sp 0).nxt = some (playAt 300 300)
    ∧ (promoting.sp 0).cur = none ∧ (promoting.sp 0).nxt = some (playAt 1 300) ∧ (playAt 1 300).phase ≠ .seeking
    ∧ (requesting.sp 0).waiting.map (·.clip) = some 102 ∧ (requesting.sp 0).nxt = none
    ∧ (requesting.clip 102).bind (·.sealVals) = some seal0 := by decide +kernel

theorem test_witness_ClipCutOrExhaustionHandsOver_numbers : ∀ n x, armedCut.entry n = some x → x.num = n := numsOf (by decide)

/-- The cut of record 3's instance from the clip of the ACTIVE entry 3, the target cut already or not; and from the network. -/
def holdCut (cut : Bool) : State :=
  { clipCut 1 300 110000 false with
    alerts := (alertOn .held cut).alerts
    services := [(0, { v0 with sp := { v0.sp with cur := some (playAt 1 300), sigmaP := some 7, nxt := some { nextToward 110000 false with owner := .alert 3 } } })] }
def holdNetwork : State :=
  { withSp (fun p => { p with nxt := some { seeking none with s := some 2000000, owner := .alert 3 } }) with
    localCount := 586900000, alerts := (alertOn .held false).alerts }
/-- The end of the return of record 3, in the state `st`; record 1 claims the service or not; its clip 901 in the state `c`. -/
def holdEnds (st : AlertState) (claim : Bool) (c : ClipState) : State :=
  let a := (alertOn .held true).alert 3
  { withSp (fun p => { p with ret := .returning 5, retBegun := true }) with
    dir := [(900, some { clip900 with refs := 1 }), (901, some { clip900 with clip := 901, st := c, refs := 1 })]
    alerts := [(1, { a with clip := 901, id := 9, targets := [target (if claim then .deferred else .otherAlert) false] }), (3, { a with st := st })] }

theorem test_witness_AlertHoldCutsAndPassesOn :
    (∀ b, let s := holdCut b
      (s.sp 0).head = none ∧ (s.sp 0).ret = .idle ∧ (s.sp 0).retBegun = false ∧ (s.sp 0).nxt.map (·.phase) = some .seeking
      ∧ (s.sp 0).cur.bind (·.packet) = some (pes 0x201 1 70000) ∧ (s.sp 0).cur.bind (·.leadComp) = some 0
      ∧ (s.sp 0).cur.bind (fun o => o.compOf (pes 0x201 1 70000)) = some 0 ∧ (s.sp 0).cur.any (fun o => o.isStopped 0) = false
      ∧ (s.sp 0).nxt.map (fun n => seekOverdue s 0 n) = some false ∧ (s.alert 3).target 0 = some (target .held b)
      ∧ activeEntry s 0 = some podEntry ∧ Table.wf none s.entries = true ∧ (s.box .tp).queue.length < 30)
    ∧ holdNetwork.examines 0 0 0 (pes 0x101 4 2000000)
    ∧ (let s := holdNetwork.observed 0 0 0 (pes 0x101 4 2000000)
       (s.sp 0).comps[0]? = some CompState.reset ∧ (s.sp 0).fixE = false ∧ (s.sp 0).nxt.map (·.phase) = some .seeking
       ∧ (s.sp 0).cur = none ∧ (s.sp 0).ret = .idle ∧ (s.sp 0).nxt.map (·.overdue) = some false
       ∧ (s.alert 3).target 0 = some (target .held false) ∧ activeEntry s 0 = none)
    ∧ (∀ st ∈ [AlertState.on, .ending], ∀ b, ∀ c ∈ [ClipState.good, .damaged], let s := holdEnds st b c
       (s.sp 0).cur = none ∧ (s.sp 0).nxt = none ∧ (s.sp 0).waiting = none ∧ (s.sp 0).ret ≠ .idle ∧ (s.sp 0).retBegun = true
       ∧ (∀ x ∈ (s.sp 0).comps, x.replaced = false ∧ x.unsent = false) ∧ holdingAlert s 0 = some 3
       ∧ (s.alert 3).target 0 = some (target .held true) ∧ armedEntry s 0 = none ∧ (s.alert 1).st = .on
       ∧ ((s.alert 1).targets.map (·.status) = [.deferred] ↔ b = true) ∧ s.clipDamaged 901 = (c == .damaged)) := by
  and_intros <;> first | exact examinesOf (by and_intros <;> decide +kernel) | decide +kernel

theorem test_witness_AlertHoldCutsAndPassesOn_numbers (b : Bool) : ∀ n x, (holdCut b).entry n = some x → x.num = n :=
  numsOf (by cases b <;> decide)

def dir102 (st : ClipState) : Table (Option ClipRec) := [(102, some { clip101 with clip := 102, st := st })]
/-- An ACTIVE entry whose clip of 300 packets stands at packet `k`. -/
def clipEnds (k : Nat) (e : Entry) (st : ClipState) : State :=
  { emitting k 300 id with entries := [(3, some e)], dir := dir102 st }
/-- The same clip played by alert record 0. -/
def alertEnds (k : Nat) (loop : Bool) : State :=
  { emitting k 300 (fun p => { p with cur := some { playAt k 300 with owner := .alert 0 } }) with
    alerts := [(0, { AlertRec.idle with st := .on, id := 5, clip := 102, loop := loop, targets := [target .held true] })]
    dir := dir102 .good }

/-- Exactly four pages before the end, and five: the clip's seven pages at packets 129 and 128. The next clip GOOD and DAMAGED, a
CUE entry's last clip at its end, a loop, and a single pass at its end. -/
theorem test_witness_EndOfClipAsksForNextOrReturns :
    (300 + 42) / 43 - 129 / 43 = 4 ∧ ¬((300 + 42) / 43 - 128 / 43 ≤ 4)
    ∧ (∀ s ∈ [clipEnds 129 podEntry .good, clipEnds 129 podEntry .damaged, clipEnds 300 { entry3 .active 2600 with retMode := .cue } .good,
        alertEnds 129 true, alertEnds 300 false],
      (s.sp 0).cur.isSome = true ∧ (s.sp 0).nxt = none ∧ (s.sp 0).waiting = none ∧ (s.sp 0).cur.bind (·.delta) = some 40000
      ∧ (s.sp 0).retBegun = false ∧ (s.sp 0).ret = .idle ∧ (s.sp 0).fixE = false)
    ∧ podEntry.pod[podEntry.podIdx + 1]? = some 102 ∧ (clipEnds 129 podEntry .good).clipDamaged 102 = false
    ∧ (clipEnds 129 podEntry .damaged).clipDamaged 102 = true
    ∧ (entry3 .active 2600).pod[(entry3 .active 2600).podIdx + 1]? = none ∧ (entry3 .active 2600).podEnded = false
    ∧ (entry3 .active 2600).retMode ≠ .cue ∧ ((alertEnds 129 true).alert 0).st = .on ∧ (alertEnds 129 true).clipDamaged 102 = false := by decide +kernel

/-- A CUE entry whose pod has ended, the clip's last packet at the head, and no lead. -/
def podOver : State :=
  { withSvc (fun v => { v with
      clk := { v.clk with leads := [] }
      sp := { v.sp with cur := some (playAt 300 300), ret := .returning 118000
                        head := some ⟨data 0x101 9, 0, 0x101, 1000000, 777, .current⟩ } }) with
    entries := [(3, some { entry3 .active 2600 with retMode := .cue, e := some 118000, podEnded := true })], dir := dir102 .good }

/-- R74: a Cancel Entry without an estimate makes E absent until the next lead PES start, after the end of the pod too. -/
theorem test_cancel_after_pod_end : let t := after { podOver with pending := [.cancelEntry .tp 3 0] }
    (t.entry 3).map (fun e => (e.e, e.cancelled)) = some (none, true) ∧ (t.sp 0).ret = .idle ∧ (t.sp 0).fixE = true := by
  decide +kernel

/-- Both components stopped already or stopping at 110,000, the input present or lost. -/
def stopping (e : Nat) (late there : Bool) : State :=
  { emitting 1 300 (fun p => { p with ret := .returning e, retOverdue := late }) with lanes := [(0, { l0 with inputPresent := there })] }
/-- Every component back on the network, the return about to end. -/
def ended (r : Ret) (e : Entry) : State := { withSp (fun p => { p with ret := r, retBegun := true }) with entries := [(3, some e)] }
/-- The same with a preempted entry's instance left that has not finished. -/
def leftover : Inst := { playAt 1 300 with owner := .ended, phase := .ending }
def withLeftover : State :=
  { withSp (fun p => { p with ret := .emergency, retBegun := true, cur := some leftover }) with entries := [(3, some (entry3 .active 2600))] }

/-- The rebased PTS exactly at E, a tick before it, the return overdue, the input lost; and a return that ends with E before, at and
after the end of the clip. -/
theorem test_witness_ReturnStopsClipAndEndsEntry :
    (∀ s ∈ [stopping 110000 false true, stopping 110001 false true, stopping 110001 true true, stopping 110000 false false],
      (s.sp 0).head = none ∧ (s.sp 0).nxt = none ∧ (s.sp 0).cur.bind (·.packet) = some (pes 0x201 1 70000)
      ∧ (s.sp 0).cur.bind (fun o => o.compOf (pes 0x201 1 70000)) = some 0 ∧ (s.sp 0).cur.any (fun o => o.isStopped 0) = false)
    ∧ inputThere (stopping 110000 false true) 0 = true ∧ inputThere (stopping 110000 false false) 0 = false
    ∧ (∀ s ∈ [ended (.returning 5) { entry3 .active 2600 with xEnd := some 6 }, ended (.returning 5) { entry3 .active 2600 with xEnd := some 5 },
        ended (.returning 5) { entry3 .active 2600 with xEnd := some 4 }, ended (.returning 5) (entry3 .active 2600),
        ended (.returning 5) { entry3 .active 2600 with cancelled := true }, ended .emergency (entry3 .active 2600)],
      (s.sp 0).cur = none ∧ (s.sp 0).nxt = none ∧ (s.sp 0).waiting = none ∧ (s.sp 0).ret ≠ .idle ∧ (s.sp 0).retBegun = true
      ∧ (∀ x ∈ (s.sp 0).comps, x.replaced = false ∧ x.unsent = false) ∧ (activeEntry s 0).isSome = true ∧ holdingAlert s 0 = none
      ∧ Table.wf none s.entries = true)
    ∧ sdiff nPts 5 6 < 0 ∧ sdiff nPts 5 5 = 0 ∧ 0 < sdiff nPts 5 4
    ∧ ((withLeftover.sp 0).cur = some leftover ∧ leftover.owner = .ended ∧ leftover.allStopped = false ∧ leftover.spent = false
       ∧ (withLeftover.sp 0).nxt = none ∧ (withLeftover.sp 0).retBegun = true ∧ activeEntry withLeftover 0 = some (entry3 .active 2600)
       ∧ Table.wf none withLeftover.entries = true) := by decide +kernel

theorem test_witness_ReturnStopsClipAndEndsEntry_numbers : ∀ n x, (ended .emergency (entry3 .active 2600)).entry n = some x → x.num = n :=
  numsOf (by decide)

def timeCase (s : State) (w : Nat) : Prop :=
  s.resetAsserted = false ∧ s.laneOf 0 = some 0 ∧ (s.lane 0).mode = .running ∧ (s.svc 0).clk.st ≠ .unlocked
  ∧ s.entry 3 = some { timeEntry with window := w }

/-- A PENDING TIME entry with window `w` of a clip in the state `st`; the count at the trigger, 1,000,000,000 less the pre-roll of
500 ms, or 2,000,000 later. -/
def firing (leads : List Int) (pool w late : Nat) (st : ClipState) : State :=
  { on with entries := [(3, some { timeEntry with window := w })], dir := [(101, some { clip101 with st := st })]
            services := [(0, { v0 with clk := { v0.clk with leads := leads } })], localCount := 981500000 + late
            lanes := [(0, { l0 with cfg := { l0.cfg with pool := pool } })] }

/-- FAULTED; without a lead; the lateness at its window and one tick past it; held; the pool one short; the pool exactly filled. -/
theorem test_witness_TimeTriggerRunsArming :
    timeCase (firing [] 6000 0 0 .damaged) 0 ∧ (firing [] 6000 0 0 .damaged).clipDamaged 101 = true
    ∧ timeCase (firing [] 6000 0 0 .good) 0 ∧ lead (firing [] 6000 0 0 .good) 0 = none
    ∧ (let s := fun w => firing [27000] 2600 w 20000000 .good
       timeCase (s 66666) 66666 ∧ timeCase (s 66667) 66667 ∧ convert (s 0) 0 1000000000 = some 3360333
       ∧ later (some 3360333) (earliest (s 0) 0) = some 3427000 ∧ lateness 3427000 (some 3360333) = 66667)
    ∧ (let s := firing [27000] 2600 90000 0 .good
       timeCase s 90000 ∧ convert s 0 1000000000 = some 3360333 ∧ later (convert s 0 1000000000) (earliest s 0) = some 3360333
       ∧ lateness 3360333 (some 3360333) = 0 ∧ heldLevel s 0 = 0 ∧ levelOf .tp = 1 ∧ armedEntry s 0 = none ∧ committed s 0 = 0
       ∧ podRate s [101] = 2600)
    ∧ timeCase (firing [27000] 2599 90000 0 .good) 90000
    ∧ (let s : State := { firing [27000] 2600 90000 0 .good with alerts := (alertOn .held true).alerts }
       timeCase s 90000 ∧ levelOf .tp ≤ heldLevel s 0) := by
  unfold timeCase; and_intros <;> decide +kernel

/-- The entry at level 2, its service with an ARMED entry of level 1 whose commitment of 3,400 makes room: the pool one short and
exactly filled. -/
def demoting (pool : Nat) : State :=
  { firing [27000] pool 90000 0 .good with
    entries := [(3, some { timeEntry with origin := .pp }), (5, some { entry3 .armed 3400 with num := 5, pod := [101] })] }

theorem test_witness_TimeTriggerRunsArming_demotion : ∀ pool ∈ [2599, 2600], let s := demoting pool
    s.entry 3 = some { timeEntry with origin := .pp } ∧ armedEntry s 0 = some { entry3 .armed 3400 with num := 5, pod := [101] }
    ∧ s.entry 5 = armedEntry s 0 ∧ committed s 0 - 3400 + podRate s [101] = 2600 ∧ heldLevel s 0 < levelOf .pp
    ∧ (armRun s 3).2 = (pool == 2600) := by decide +kernel

/-- Service 1 of lane 0, with two entries that wait for `c`, and an ARMED one of commitment `held`: the higher level needs `rate`. -/
def waiting2 (c : WaitCause) (rate : Nat) : State :=
  let v1 := { v0 with defn := some { d0 with comps := [⟨0x111, .video⟩, ⟨0x112, .audio⟩], pcrPid := 0x111, cuePid := none } }
  { on with
    services := [(0, v0), (1, v1)]
    dir := [(101, some { clip101 with refs := 2 }), (102, some { clip101 with clip := 102, sealVals := some { seal0 with rate := rate } })]
    entries := [(3, some { timeEntry with st := .waiting c, svc := 1 }),
                (4, some { timeEntry with num := 4, origin := .pp, st := .waiting c, svc := 1, pod := [102] }),
                (5, some { entry3 .armed 2600 with num := 5, svc := 1 })] }

theorem waiting2_order (c : WaitCause) (rate : Nat) (P : Entry → Prop) (hw : ∀ e, P e → e.st = .waiting c)
    (hs : ∀ e, e.svc = 1 → e.st = .waiting c → P e) : (waiting2 c rate).inOrder P [4, 3] where
  mem n := by
    simp only [List.mem_cons, List.not_mem_nil, or_false]
    refine ⟨fun h => by rcases h with rfl | rfl <;> exact ⟨_, rfl, hs _ rfl rfl⟩, fun ⟨e, h, w⟩ => ?_⟩
    replace w := hw e w
    simp only [State.entry, waiting2, Table.get] at h
    split at h
    · omega
    · split at h
      · omega
      · split at h
        · cases h; cases w
        · cases h
  sorted := by
    refine List.pairwise_cons.mpr ⟨fun b hb x y hx hy => ?_, List.pairwise_singleton _ _⟩
    cases List.mem_singleton.mp hb
    cases hx; cases hy; exact .inl (show (1 : Nat) < 2 by decide)

/-- The order of R66 and R67, and the arbiter: the first of the queue takes the whole pool and demotes, or is one too many and holds the
second back; an empty queue; a re-evaluation of both causes. -/
theorem test_witness_ReleasesRunWaitingEntries : (∀ c rate, Table.wf none (waiting2 c rate).entries = true)
    ∧ (∀ c rate n e, (waiting2 c rate).entry n = some e → e.num = n) ∧ (∀ c rate, (waiting2 c rate).laneOf 1 = some 0)
    ∧ (∀ c rate, (waiting2 c rate).inOrder (fun e => e.svc = 1 ∧ e.st = .waiting c) [4, 3])
    ∧ (∀ rate, let s := waiting2 .pool rate; s.inOrder (fun e => s.laneOf e.svc = some 0 ∧ e.st = .waiting .pool) [4, 3])
    ∧ (armRun (waiting2 .pool 6000) 4).2 = true ∧ inState (armRun (waiting2 .pool 6000) 4).1 4 .armed = true
    ∧ inState (armRun (armRun (waiting2 .pool 6000) 4).1 3).1 3 (.waiting .held) = true
    ∧ inState (armRun (waiting2 .pool 6001) 4).1 4 (.waiting .pool) = true := by
  refine ⟨fun _ _ => rfl, fun c rate => numsOf rfl, fun _ _ => rfl, fun c rate => waiting2_order c rate _ (fun _ h => h.2) (fun _ h w => ⟨h, w⟩),
    fun rate => waiting2_order .pool rate _ (fun _ h => h.2) (fun e h w => ⟨by rw [h]; rfl, w⟩), ?_⟩
  decide +kernel

def seekCase (s : State) (t : Option Nat) : Prop :=
  s.resetAsserted = false ∧ (s.sp 0).nxt = some (seeking t) ∧ (seeking t).phase = .seeking ∧ (seeking t).overdue = false
  ∧ (s.sp 0).cutX = none ∧ (s.sp 0).cutTimer = none ∧ (s.sp 0).ret = .idle

/-- A return toward 200,000 with the video still REPLACED. -/
def returning : State := withSp (fun p => { p with
  ret := .returning 200000, retSeek := 400, comps := [{ CompState.reset with replaced := true }, CompState.reset] })
/-- An emergency return whose timer started at 1,000, at the count `n`. -/
def emergency (n : Nat) : State := { withSp (fun p => { p with
  ret := .emergency, retBegun := true, retSeek := 400, retTimer := some 1000
  comps := [{ CompState.reset with replaced := true }, CompState.reset] }) with localCount := n }

/-- By the service time; by the timer, at its start and at its last tick; for a search, a return and an emergency return. -/
theorem test_witness_SearchesAndReturnsBecomeOverdue : seekCase (seek none 1000) none
    ∧ (seeking none).s = some 100000 ∧ ((seek none 1000).svc 0).clk.st ≠ .unlocked ∧ (lead (seek none 1000) 0).isSome = true
    ∧ seekCase (seek (some 1000) 1000) (some 1000) ∧ sdiff nClk 1000 1000 = 0
    ∧ seekCase (seek (some 1000) 10801000) (some 1000) ∧ sdiff nClk 10801000 1000 = 400 * 27000
    ∧ returning.resetAsserted = false
    ∧ (returning.sp 0).ret = .returning 200000 ∧ (returning.sp 0).retOverdue = false
    ∧ (returning.svc 0).clk.st ≠ .unlocked ∧ (lead returning 0).isSome = true ∧ (returning.sp 0).retForced = false
    ∧ (∀ n ∈ [1000, 10801000], ((emergency n).sp 0).ret = .emergency ∧ ((emergency n).sp 0).retTimer = some 1000
        ∧ ((emergency n).sp 0).nxt = none ∧ ((emergency n).sp 0).cutX = none ∧ ((emergency n).sp 0).cutTimer = none
        ∧ ((emergency n).sp 0).retSeek ≤ 2000 ∧ ((emergency n).sp 0).retOverdue = false) := by
  unfold seekCase; and_intros <;> decide +kernel

/-- A packet that arrives with the timer at its last tick and one tick before it; with the estimate at the deadline and one tick
before it; the audio's search with its timer run out and not. -/
theorem test_witness_SearchesAndReturnsBecomeOverdue_packet :
    (∀ s ∈ [seek (some 1000) 10801000, audioSearch 7670], ∀ b ∈ [data 0x101 4, damagedPes], s.arrives 0 0 0 b)
    ∧ ([10801000, 10800999].map (fun n => (((seek (some 1000) n).observed 0 0 0 damagedPes).sp 0).nxt.map (·.overdue)))
        = [some true, some false]
    ∧ estimate on 0 = some 43670
    ∧ ([7670, 7671].map (fun x => (((audioSearch x).observed 0 0 0 damagedPes).sp 0).cutOverdue)) = [true, false] := by
  refine ⟨fun s hs b hb => arrivesOf ?_, by decide +kernel, by decide +kernel, by decide +kernel⟩
  revert s b; decide +kernel

/-! #### The flash channel -/

def withOp (s : State) (q : Requester) (k : OpKind) (b pg c : Nat) : State :=
  { s with flash := { s.flash with op := some ⟨q, k, b, pg, c, 0, false, []⟩ } }

def opIs (s : State) (q : Requester) (k : OpKind) (b : Nat) : Prop :=
  s.flash.op.map (fun o => (o.req, o.block, o.orphan)) = some (q, b, false) ∧ s.flash.op.map (·.kind) = some k

/-- A good data area that carries the trailer of R206: kind, clip, chain index, page index. -/
def area (kind clip ci pi : Nat) : List Byte :=
  List.replicate 8084 0 ++ [byte1 kind] ++ leBytes 2 clip ++ [byte1 ci, byte1 pi] ++ List.replicate 103 0xFF#8

/-- Block 0; block 4094 goes on; block 4095 ends the scan, with clip 101 of one block among the notes. A page judged ERASED, one
judged uncorrectable, and the upper bound of a sound trailer's chain index. -/
theorem test_witness_ScanReadClassifiesBlock : opIs (withOp State.reset .scan .read 0 0 0) .scan .read 0
    ∧ opIs (withOp State.reset .scan .read 4094 0 0) .scan .read 4094
    ∧ opIs (withOp State.reset .scan .read 4095 0 0) .scan .read 4095
    ∧ judge .erased = .erased ∧ judge .uncorrectable = .uncorrectable
    ∧ ([(300, ScanClass.head 101 (some seal0) false)].map (·.1)).Nodup ∧ (1 ≤ seal0.blocks ∧ seal0.blocks = 1)
    ∧ (∀ a, judge (.good a) = .good a)
    ∧ leField (area 2 65534 118 0) 8084 1 = 2 ∧ leField (area 2 65534 118 0) 8087 1 = 118 := by
  unfold opIs; and_intros <;> first | exact fun _ => rfl | decide +kernel

def playing : Inst :=
  { seeking none with phase := .playing, sEff := some 100000, delta := some 40000, w := some 0, fetch := 6 }
/-- A data area whose trailer is the one of clip 101's page 6. -/
def page6 : List Byte := List.replicate 8084 0 ++ trailerBytes 101 0 6 42 258 ++ List.replicate 96 0xFF#8
def reading : State := withOp (withSp (fun p => { p with cur := some playing })) (.readAhead 0 .current) .read 300 6 101

/-- A data area of clip 900, whose head block is 5, with the trailer of page `pg`. -/
def area900 (pg : Nat) : List Byte := List.replicate 8084 0 ++ trailerBytes 900 0 pg 43 1 ++ List.replicate 96 0xFF#8
/-- The same read for the next role, of the ARMED entry 3 or of alert record 3, and of an entry that plays in the current role; of a clip
in the state `st`. -/
def readFor (role : Role) (n : Inst) (e : EntryState) (st : ClipState) : State :=
  { withOp (withSp (fun p => p.setInst role (some n))) (.readAhead 0 role) .read 300 6 101 with
    dir := [(101, some { clip101 with st := st })], entries := [(3, some (entry3 e 2600))] }
def alertRead : State := { readFor .next { seeking none with owner := .alert 3 } .pending .good with alerts := (alertOn .held false).alerts }
def orphan (s : State) : State := { s with flash := { s.flash with op := s.flash.op.map (fun o => { o with orphan := true }) } }

/-- A page for either role. Lost: for an entry that plays, for an ARMED one, for a DAMAGED clip, for a level-3 target not yet cut.
Without a requester: the clip there and gone. -/
theorem test_witness_PageReadEndsForItsRequester : opIs reading (.readAhead 0 .current) .read 300
    ∧ (reading.sp 0).inst .current = some playing ∧ trailerMatches page6 101 (playing.chain.idxOf 300) 6 = true
    ∧ (∀ a, judge (.good a) = .good a) ∧ judge .uncorrectable = .uncorrectable
    ∧ opIs (readFor .next (seeking none) .armed .good) (.readAhead 0 .next) .read 300
    ∧ (let s := readFor .current playing .active .good
       (s.sp 0).inst .current = some playing ∧ s.clip 101 = some clip101 ∧ activeEntry s 0 = some (entry3 .active 2600)
       ∧ playing.owner = .entry 3 ∧ holdingAlert s 0 = none ∧ (∀ e ∈ s.schedule, ¬(e.st = .armed ∧ e.pod.head? = some 101)))
    ∧ (∀ st ∈ [ClipState.good, .damaged], let s := readFor .next (seeking none) .armed st
       (s.sp 0).inst .next = some (seeking none) ∧ s.entry 3 = some (entry3 .armed 2600) ∧ (entry3 .armed 2600).pod.head? = some 101
       ∧ Table.wf none s.entries = true)
    ∧ (holdingAlert alertRead 0 = some 3 ∧ (alertRead.alert 3).target 0 = some (target .held false)
       ∧ ∀ e ∈ alertRead.schedule, ¬(e.st = .armed ∧ e.pod.head? = some 101))
    ∧ ((orphan reading).flash.op.map (fun o => (o.orphan, o.clip)) = some (true, 101) ∧ (orphan reading).clip 101 = none
       ∧ (orphan (readFor .next (seeking none) .armed .good)).clip 101 = some clip101) := by
  unfold opIs; and_intros <;> first | exact fun _ => rfl | decide +kernel

theorem test_witness_PageReadEndsForItsRequester_numbers (st : ClipState) :
    ∀ n x, (readFor .next (seeking none) .armed st).entry n = some x → x.num = n := numsOf (by simp only [readFor]; decide)

/-- Slot 3 filling with clip 900 of `k` packets, `n` pages held; and a checksum of the same clip at page `n`. -/
def reading900 (q : Requester) (k n : Nat) : State :=
  { withOp on q .read 5 n 900 with
    dir := [(900, some { clip900 with refs := 1, sealVals := some { seal0 with k := k } })]
    preloads := [(3, ⟨.filling, 900, List.replicate n ⟨0, []⟩⟩)], checks := [(0, some ⟨900, n, 65535⟩)] }

/-- The seven pages of 300 packets: page 5 and the last; the sixteenth page of 17. -/
theorem test_witness_PageReadEndsForItsRequester_slots : (300 + 42) / 43 = 7 ∧ (731 + 42) / 43 = 17
    ∧ (∀ x ∈ [(300, 5), (300, 6), (731, 15)], ∀ q ∈ [Requester.preload 3, .checksum .tp],
      let s := reading900 q x.1 x.2
      opIs s q .read 5 ∧ (s.preload 3).st = .filling ∧ (s.preload 3).clip = 900 ∧ (s.preload 3).pages.length = x.2
      ∧ s.check .tp = some ⟨900, x.2, 65535⟩ ∧ (s.clip 900).bind (·.sealVals) = some { seal0 with k := x.1 }
      ∧ (∀ e ∈ s.schedule, ¬(e.st = .armed ∧ e.pod.head? = some 900)))
    ∧ (∀ n ∈ [5, 6, 15], trailerMatches (area900 n) 900 (clip900.chain.idxOf 5) n = true) := by
  unfold opIs; decide +kernel

/-! #### The arbiter -/

/-- Requests: a damage marker and a protection program with `c` programs spent (class 2, places 55 and 56), an eraser (class 4,
place 62); the position of class 2 at `pos`. -/
def asking (pos c : Nat) : State :=
  { on with flash := { on.flash with
      rr := [(2, pos)], markerQ := [⟨false, 7, 0⟩], bad := [7], protReq := some (true, false), prot := ⟨false, false, c⟩
      dirtyM := [⟨300, none⟩] } }
/-- A service that is short: its current instance holds no page and has one to fetch. -/
def short : State := { asking 0 0 with services := [(0, { v0 with sp := { v0.sp with cur := some playing } })] }

/-- A checksum and an eraser, as in 8.7. -/
def betweenReads : State :=
  { on with dir := [(101, some clip101)], checks := [(0, some ⟨101, 1, 0⟩)], flash := { on.flash with dirtyM := [⟨400, none⟩] } }

/-- The class 2 requests in the ring from 0, from 56 exactly and from past it; four protection programs spent; a short service with
LOWSUPPLY's classes held back; and an operation in flight. -/
theorem test_witness_ArbiterGrantsAndReadAheadChooses :
    (∀ pos ∈ [0, 56, 57], (List.range 64).filter (fun j => (requestAt (asking pos 0) j).isSome) = [55, 56, 62]
      ∧ (asking pos 0).flash.op = none ∧ (asking pos 0).flash.supply = .normal ∧ anyShort (asking pos 0) = false
      ∧ allAmple (asking pos 0) = true)
    ∧ ([0, 56, 57].map (fun pos => (arbChoice none (asking pos 0)).map (fun x => (x.1, x.2.1)))) = [some (2, 55), some (2, 56), some (2, 55)]
    ∧ programAllowed (asking 56 4) (mkOp on .protection (.program (.protection true false)) 0 0 0 []) (.protection true false) = false
    ∧ (let s := betweenReads; requestAt s 62 ≠ none ∧ requestAt s 57 ≠ none ∧ (arbChoice none s).map (·.2.1) = some 57
       ∧ (arbChoice (some 57) s).map (·.2.1) = some 62)
    ∧ anyShort short = true ∧ (List.range 64).filter (fun j => (requestAt short j).isSome) = [55, 56, 62]
    ∧ programming.flash.op.isSome = true := by decide +kernel

/-- The next instance beside a current one whose pages are all fetched. -/
def chooseNext (n : Inst) (slots : Table Preload) : State :=
  { withSp (fun p => { p with cur := some { playing with fetch := 7 }, nxt := some n }) with preloads := slots }
def level3 (fetch : Nat) : Inst := { seeking none with clip := 900, owner := .alert 3, fetch := fetch }

/-- For the current instance; for the next; a copy from slot 2, slot 1 lacking the page; page 16, which no slot gives; a standing
request; eight pages held. -/
theorem test_witness_ArbiterGrantsAndReadAheadChooses_pages :
    (∀ s ∈ [{ reading with flash := on.flash }, chooseNext (seeking none) [], chooseNext (level3 3) [(1, ⟨.ready, 900, []⟩), (2, ⟨.filling, 900, [⟨3, []⟩]⟩)],
        chooseNext (level3 16) [], chooseNext { seeking none with fetch := 7 } []],
      serveWaiting s 0 = none ∧ clipEndStep s 0 = none ∧ lateExhaust s 0 = none ∧ finishOrPromote s 0 = none
      ∧ returnDone s 0 = false ∧ fillHead s 0 = none ∧ (s.sp 0).raReq = none ∧ s.flash.op = none)
    ∧ playing.fetch < (300 + 42) / 43 ∧ playing.pages.length < 4 := by decide +kernel

def erasing : State := withOp { on with flash := { on.flash with dirtyM := [⟨300, none⟩, ⟨301, none⟩] } } (.eraser .main) .erase 300 0 0
def releasing : State := withOp { on with flash := { on.flash with
  dirtyA := [⟨1, none⟩], release := some ⟨none, 0, 0⟩, prot := ⟨true, false, 1⟩ } } .releaseEraser .erase 0 0 0

/-- The last block of a Clip Erase, with another job beside it, and one before the last. -/
def jobErase (n : Nat) : State := withOp { on with flash := { on.flash with
  dirtyM := (List.range n).map (fun j => ⟨300 + j, some 7⟩), jobs := [⟨7, .pp, 101, 2, 1⟩, ⟨8, .tp, 102, 0, 0⟩] } } (.eraser .main) .erase 300 0 0
/-- The last erase of a release: of an alert block, and of block 0. -/
def lastRelease (q : Requester) (b : Nat) (d : List Dirty) (z : Option Bool) : State := withOp { on with flash := { on.flash with
  dirtyA := d, release := some ⟨z, 3, 0⟩, prot := ⟨true, false, 2⟩ } } q .erase b 0 0

theorem test_witness_EraseFreesBlockOrRetiresIt : opIs erasing (.eraser .main) .erase 300
    ∧ erasing.flash.release = none ∧ (∀ x ∈ erasing.flash.dirty .main, x.job = none)
    ∧ opIs releasing .releaseEraser .erase 0 ∧ releasing.flash.release = some ⟨none, 0, 0⟩ ∧ releasing.flash.dirtyA ≠ []
    ∧ (∀ n ∈ [1, 2], opIs (jobErase n) (.eraser .main) .erase 300 ∧ (jobErase n).flash.release = none
        ∧ ((jobErase n).flash.dirty .main).find? (fun x => x.block == 300) = some ⟨300, some 7⟩
        ∧ (jobErase n).flash.jobs.find? (fun x => x.id == 7) = some ⟨7, .pp, 101, 2, 1⟩)
    ∧ (∀ x ∈ (jobErase 1).flash.dirty .main, x.job = some 7 → x.block = 300) ∧ (jobErase 1).flash.dirty .alert = []
    ∧ (∃ x ∈ (jobErase 2).flash.dirty .main, x.job = some 7 ∧ x.block ≠ 300)
    ∧ opIs (lastRelease (.eraser .alert) 1 [⟨1, none⟩] (some true)) (.eraser .alert) .erase 1
    ∧ opIs (lastRelease .releaseEraser 0 [] none) .releaseEraser .erase 0 := by
  unfold opIs; and_intros <;> decide

/-- A read of the scan and one of a checksum, a program, and the two kinds of erase. -/
theorem test_witness_FlashTimeLimitEndsOperationAsFailed : State.reset.flash.op.isSome = true
    ∧ opIs (withOp on (.checksum .tp) .read 300 0 101) (.checksum .tp) .read 300
    ∧ opIs programming .marker (.program .badBlock) 7 ∧ opIs erasing (.eraser .main) .erase 300
    ∧ opIs releasing .releaseEraser .erase 0 := by unfold opIs; and_intros <;> decide

/-! #### The links -/

def withLink (f : Link → Link) : State := { on with links := [(0, f Link.reset)] }
def rx (st : RxState) (len : Nat) (got : List Byte) : State :=
  withLink (fun l => { l with rx := { st := st, len := len, got := got, lastByte := 7, stale := false } })

/-- The four states; the largest body length and one beyond it; and a frame broken in LENGTH. -/
theorem test_witness_LinkReceivesBytesAndChangesRate : on.resetAsserted = false ∧ (on.link .tp).rx.st = .hunt
    ∧ ((rx .length 0 []).link .tp).rx.st = .length ∧ ((rx .length 0 []).link .tp).rx.got = []
    ∧ ((rx .length 0 [0x10#8]).link .tp).rx.got = [0x10#8] ∧ (0x10#8).toNat + 256 * (0x04#8).toNat = 1040
    ∧ (0x11#8).toNat + 256 * (0x04#8).toNat = 1041 ∧ ((rx .body 2 [0x01#8]).link .tp).rx.st = .body
    ∧ ((rx .body 2 [0x01#8]).link .tp).rx.got.length + 1 = 2 ∧ (rx .length 0 []).resetAsserted = false
    ∧ ((rx .length 0 []).link .tp).rx.st ≠ .hunt := by decide

/-- An exchange whose reply is being sent. -/
def replying (next : Option Nat) : State := withLink (fun l => { l with
  out := some ⟨0x03#8, some ⟨0x03#8, .ok, [1]⟩⟩, tx := some ⟨true, [0x4B#8]⟩, nextRate := next })

/-- A body of one byte with the check byte one off, the port free, and its transmitter at work; and a command BUSY, DENIED and
SCANNING. -/
theorem test_witness_RefusedFrameChangesOnlyItsRefusal : on.resetAsserted = false ∧ ([0x01#8] : List Byte).length = 1
    ∧ byteSum (leBytes 2 1 ++ [0x01#8] ++ [0xFF#8]) % 256 ≠ 0 ∧ (on.link .tp).out = none
    ∧ ((replying none).link .tp).out.isSome = true ∧ ((replying none).link .tp).tx.isSome = true
    ∧ commandPort (.protectionRelease .tp 0) = some .tp ∧ on.free .tp
    ∧ admitted .tp ((encodeBody (.protectionRelease .tp 0)).headD 0).toNat = false
    ∧ State.reset.free .pp ∧ admitted .pp ((encodeBody (.watch .pp 0 0)).headD 0).toNat = true
    ∧ State.reset.part = .scanning ∧ 4 < ((encodeBody (.watch .pp 0 0)).headD 0).toNat := by
  unfold State.free; and_intros <;> decide

def sound (body : List Byte) (chk : Byte) : Prop :=
  1 ≤ body.length ∧ body.length ≤ 1040 ∧ byteSum (leBytes 2 body.length ++ body ++ [chk]) % 256 = 0

/-- Frames of a right sum: a code of no command, a body one byte short and one byte long, the smallest and the largest body; and a
port whose frame began before a rate change. -/
theorem test_witness_RefusedFrameChangesOnlyItsRefusal_bodies : sound [0x16#8] 0xE9#8 ∧ sound [0x01#8] 0xFE#8
    ∧ sound [0x01#8, 0, 0] 0xFC#8 ∧ sound (0x31#8 :: List.replicate 1039 0) 0xBB#8
    ∧ admitted .tp 0x01 = true ∧ isCommand 0x16 = false ∧ lengthOk 0x01 1 = false ∧ lengthOk 0x01 3 = false ∧ lengthOk 0x31 1040 = false
    ∧ ((withLink (fun l => { l with rx := { l.rx with stale := true } })).link .tp).rx.stale = true := by
  unfold sound; and_intros <;> decide +kernel

theorem test_witness_LinkReceivesBytesAndChangesRate_rate : (replying none).resetAsserted = false
    ∧ ((replying none).link .tp).tx = some ⟨true, [0x4B#8]⟩ ∧ ((replying none).link .tp).refusal = none
    ∧ ((replying (some 3)).link .tp).nextRate = some 3 ∧ on.free .tp ∧ 3 ≤ 3 ∧ 3 < 4 := by unfold State.free; decide

/-! #### Commands -/

/-- With every link at rest, a released and RUNNING part takes commands at every port. -/
theorem takesOf {s : State} (h : (s.resetAsserted, s.links, s.part) = (false, [], .running)) (p : PortId) : s.takes p := by
  obtain ⟨h1, h2, h3⟩ := by simpa only [Prod.mk.injEq] using h
  refine ⟨⟨h1, ?_, ?_⟩, h3⟩ <;> simp [State.link, h2, Table.get, Link.reset, Rx.hunt]
theorem onTakes (p : PortId) : on.takes p := takesOf rfl p

theorem test_witness_IdentifyAndReadStatusReport : State.reset.free .tp ∧ on.free .ap ∧ (0 : Nat) = 0 ∧ (255 : Nat) ≠ 0
    ∧ (withLane (fun l => { l with overrun := true })).free .pp
    ∧ ((withLane (fun l => { l with overrun := true })).lane 0).overrun = true := by unfold State.free; decide
theorem test_witness_NonZeroReservedFieldIsRefusedBadparam : on.takes .ap
    ∧ commandPort (.clearService .ap 0 1 255) = some .ap
    ∧ admitted .ap ((encodeBody (.clearService .ap 0 1 255)).headD 0).toNat = true
    ∧ reservedField (.clearService .ap 0 1 255) ≠ 0 ∧ on.takes .tp ∧ commandPort (.addEntry .tp { entry0 with res := 1 }) = some .tp
    ∧ admitted .tp ((encodeBody (.addEntry .tp { entry0 with res := 1 })).headD 0).toNat = true
    ∧ reservedField (.addEntry .tp { entry0 with res := 1 }) ≠ 0 := by
  and_intros <;> first | exact onTakes _ | decide

theorem test_witness_ReadEventsAndWatchAct : programming.free .tp ∧ (1 ≤ 1 ∧ 1 ≤ 16 ∧ 0 = 0) ∧ (1 ≤ 16 ∧ 16 ≤ 16 ∧ 0 = 0)
    ∧ ¬(1 ≤ 0 ∧ 0 ≤ 16 ∧ 0 = 0) ∧ ¬(1 ≤ 17 ∧ 17 ≤ 16 ∧ 0 = 0) ∧ ¬(1 ≤ 16 ∧ 16 ≤ 16 ∧ 1 = 0)
    ∧ on.takes .pp ∧ (0 : Nat) = 0 ∧ (1 : Nat) ≠ 0 :=
  ⟨by unfold State.free; decide, by decide, by decide, by decide, by decide, by decide, onTakes _, by decide⟩

/-- Every setting at the lower end of its range, and at the upper end. -/
def lowest : LaneArgs := ⟨3, some 2000, some 20, some 0, some 1, some 100, some 40, some 0, some 270, some 40, 0⟩
def highest : LaneArgs := ⟨3, some 53000, some 250, some 53000, some 100, some 5000, some 2000, some 3, some 270000, some 700, 0⟩

theorem test_witness_ConfigureLaneStartsLane : on.takes .tp ∧ laneArgsOk lowest = true ∧ laneArgsOk highest = true
    ∧ (on.lane 3).mode = .bypass ∧ (on.servicesOf 3).any (engaged on) = false
    ∧ ((withLane (fun l => { l with mode := .bypass })).servicesOf 0).any
        (engaged (withLane (fun l => { l with mode := .bypass }))) = false := ⟨onTakes _, by decide +kernel⟩

theorem test_witness_ConfigureLaneStartsLane_ranges : (∀ v, lowest.lateLimit = some v → 1 ≤ v ∧ v ≤ 100)
    ∧ (∀ v, lowest.preroll = some v → 100 ≤ v ∧ v ≤ 5000) ∧ (∀ v, lowest.seekLimit = some v → 40 ≤ v ∧ v ≤ 2000)
    ∧ (∀ v, lowest.rounding = some v → v ≤ 3) ∧ (∀ v, lowest.lockWindow = some v → 270 ≤ v ∧ v ≤ 270000)
    ∧ (∀ v, lowest.lossTimeout = some v → 40 ≤ v ∧ v ≤ 700) ∧ (∀ v, highest.lossTimeout = some v → 40 ≤ v ∧ v ≤ 700)
    ∧ (∀ v, noLane.preroll = some v → 100 ≤ v ∧ v ≤ 5000) := by
  and_intros <;> simp [lowest, highest, noLane]

/-- Lane 0 of `on` stopped, and at its own settings with R_out `r`. -/
def stop0 : LaneArgs := { noLane with rOut := some 0 }
def adjust0 (r : Nat) : LaneArgs := { noLane with rOut := some r, delay := some 100, pool := some 6000 }

/-- A record that fails check 1; INUSE; R_out 0 on a BYPASS lane and on a RUNNING one with an entry of its service; a change of
nothing and a change of R_out, the slots exact. -/
theorem test_witness_RunningLaneIsStoppedAdjustedOrInUse : on.takes .tp ∧ (alertOn .held true).takes .tp ∧ (timed [] 6000).takes .tp
    ∧ lowest.delay = some 20 ∧ laneArgsOk { lowest with delay := some 19 } = false ∧ laneArgsOk lowest = true
    ∧ laneArgsOk highest = true ∧ laneArgsOk stop0 = true ∧ laneArgsOk (adjust0 53000) = true
    ∧ (on.servicesOf 0).any (engaged on) = false ∧ (on.lane 3).mode = .bypass ∧ (on.lane 0).mode = .running
    ∧ (∃ i ∈ (alertOn .held true).servicesOf 0, engaged (alertOn .held true) i = true)
    ∧ ((timed [] 6000).servicesOf 0).any (engaged (timed [] 6000)) = false ∧ Table.wf none (timed [] 6000).entries = true
    ∧ settingsOf (adjust0 38000) = (on.lane 0).cfg ∧ (settingsOf (adjust0 53000)).rOut ≠ (on.lane 0).cfg.rOut
    ∧ 0 < (on.lane 0).cfg.rOut := ⟨onTakes _, takesOf rfl _, takesOf rfl _, by decide +kernel⟩

theorem test_witness_RunningLaneIsStoppedAdjustedOrInUse_slots : SlotTimes slot2
    ∧ ∀ n e, (timed [] 6000).entry n = some e → e.num = n := by
  refine ⟨⟨by decide, fun k => ?_, fun k => ?_⟩, numsOf (by decide)⟩ <;> rw [laneOfOne slot2 _ rfl] <;> split <;> decide

/-- Service 47 on the same lane, with PIDs of its own. -/
def service47 : ServiceArgs :=
  { svc := 47, lane := 0, count := 2, handling := 1, ceiling := 20000, pcrPid := 0x1FFE, cuePid := some 0x10, res := 0,
    positions := [⟨0x11, 2⟩, ⟨0x1FFE, 1⟩] ++ List.replicate 6 ⟨0, 0⟩ }
/-- Sixteen services on lane 0. -/
def crowded : State := { on with services := (List.range 16).map (fun i => (i, { v0 with defn := some { d0 with
  comps := [⟨0x101 + 2 * i, .video⟩, ⟨0x102 + 2 * i, .audio⟩], pcrPid := 0x101 + 2 * i, cuePid := none } })) }
/-- A removal with a lane and a ceiling that no definition could have. -/
def removal : ServiceArgs :=
  { svc := 0, lane := 255, count := 0, handling := 255, ceiling := 65535, pcrPid := 0, cuePid := none, res := 0,
    positions := List.replicate 8 ⟨0, 0⟩ }

/-- Accepted on a free context and on a defined one; a PID of another service; an entry, a held service; a 17th service; and the
removal. -/
theorem test_witness_ConfigureServiceDefinesService : on.takes .tp ∧ (timed [] 0).takes .tp ∧ (alertOn .held true).takes .tp
    ∧ crowded.takes .pp ∧ takeComps 2 service47.positions = some [⟨0x11, .audio⟩, ⟨0x1FFE, .video⟩]
    ∧ serviceArgsOk service47 = true ∧ service47.count ≠ 0 ∧ serviceArgsOk { service47 with ceiling := 20001 } = false
    ∧ definitionOk (defOf service47 [⟨0x11, .audio⟩, ⟨0x1FFE, .video⟩]) = true
    ∧ definitionOk (defOf { service47 with pcrPid := 0x12 } [⟨0x11, .audio⟩, ⟨0x1FFE, .video⟩]) = false
    ∧ pidTaken on 47 (defOf service47 [⟨0x11, .audio⟩, ⟨0x1FFE, .video⟩]) = false
    ∧ pidTaken on 47 (defOf service47 [⟨0x101, .audio⟩, ⟨0x1FFE, .video⟩]) = true
    ∧ claimed on 47 = false ∧ claimed (timed [] 0) 0 = true ∧ claimed (alertOn .held true) 0 = true
    ∧ laneFull on 47 0 = false ∧ laneFull crowded 47 0 = true
    ∧ pidTaken crowded 47 (defOf service47 [⟨0x11, .audio⟩, ⟨0x1FFE, .video⟩]) = false ∧ claimed crowded 47 = false
    ∧ (on.svc 0).defn = some d0 ∧ claimed on 0 = false ∧ removal.count = 0 ∧ removal.svc ≤ 47 :=
  ⟨onTakes _, takesOf rfl _, takesOf rfl _, takesOf rfl _, by decide +kernel⟩

theorem test_witness_MasksAndFlagsAreSetByTheirCommands : on.takes .tp ∧ (on.svc 0).defn.isSome = true
    ∧ (0x3FF#16).toNat < 1024 ∧ 1024 ≤ (0x400#16).toNat ∧ (on.svc 47).defn = none ∧ 47 < 48 := ⟨onTakes _, by decide⟩

theorem test_witness_ClearServicePlainAndForced : on.takes .pp ∧ on.takes .ap
    ∧ (alertOn .held true).takes .tp ∧ ((alertOn .held true).svc 0).defn = some d0 ∧ (on.svc 0).defn = some d0
    ∧ engaged on 0 = false ∧ engaged (alertOn .held true) 0 = true := ⟨onTakes _, onTakes _, takesOf rfl _, by decide +kernel⟩

/-- Held by a record; carried by an entry, which no record holds and no other waits for; a REPLACED component. -/
theorem test_witness_ClearServicePlainAndForced_forced : (alertOn .held true).takes .ap ∧ holdingAlert (alertOn .held true) 0 = some 3
    ∧ (clipEnds 129 podEntry .good).takes .ap ∧ (clipEnds 129 podEntry .good).entry 3 = some podEntry ∧ podEntry.svc = 0
    ∧ activeEntry (clipEnds 129 podEntry .good) 0 = some podEntry ∧ holdingAlert (clipEnds 129 podEntry .good) 0 = none
    ∧ ((clipEnds 129 podEntry .good).box podEntry.origin).queue.length + (clipEnds 129 podEntry .good).schedule.length + 1 ≤ 32
    ∧ (∀ e ∈ (clipEnds 129 podEntry .good).schedule, e.st ≠ .waiting .pool) ∧ Table.wf none (clipEnds 129 podEntry .good).entries = true
    ∧ returning.takes .ap ∧ (returning.sp 0).comps.map (·.replaced) = [true, false] :=
  ⟨takesOf rfl _, by decide +kernel, takesOf rfl _, by decide +kernel, by decide +kernel, by decide +kernel, by decide +kernel,
    by decide +kernel, by decide +kernel, by decide +kernel, takesOf rfl _, by decide +kernel⟩

theorem test_witness_ReportsChangeNothing : (timed [] 0).takes .tp ∧ (timed [] 0).entry 3 = some timeEntry
    ∧ (timed [] 0).entry 255 = none ∧ (timed [] 0).clip 101 = some clip101 ∧ ((timed [] 0).svc 0).defn.isSome = true
    ∧ (0x3FF#16).toNat < 1024 := ⟨takesOf rfl _, by decide⟩

/-- 47 contexts are unconfigured; a definition, a holder of either kind, a binding. -/
theorem test_witness_ReportsChangeNothing_records : (on.svc 47).defn = none ∧ (on.svc 0).defn = some d0 ∧ d0.comps.length ≤ 8
    ∧ leadIdx d0.comps = some 0 ∧ activeEntry (clipEnds 129 podEntry .good) 0 = some podEntry
    ∧ activeEntry (alertOn .held true) 0 = none ∧ holdingAlert (alertOn .held true) 0 = some 3
    ∧ ((alertOn .held true).alert 3).target 0 = some (target .held true) ∧ lead (on) 0 = some 27000
    ∧ lead (timed [] 0) 0 = none ∧ bound7.splice = none ∧ timeEntry.binding = none ∧ podEntry.pod.length ≤ 4 := by decide +kernel

/-- R204: of an unconfigured context the service number reads 0 too, and so do the flags; the masks hold BF 03. -/
theorem test_unconfigured_service_record : slice (serviceBytes on 47) 0 2 = [0, 0]
    ∧ slice (serviceBytes on 47) 102 4 = [0, 0, 0xBF#8, 0x03#8] := by decide +kernel

/-- A pod of the full four clips at the service's ceiling. -/
def addArgs : EntryArgs :=
  { svc := 0, trigKind := 0, retKind := 0, podCount := 4, trigValue := 3, duration := 0, window := 900000,
    pod := [101, 101, 101, 101], res := 0 }
def timeArgs : EntryArgs := { addArgs with trigKind := 1, retKind := 1, trigValue := 1000000000, duration := 900 }
def nowArgs : EntryArgs := { addArgs with trigKind := 2, retKind := 2, trigValue := 0 }
/-- The pool and the ceiling at the clip's rate; a lead or none; the local count. -/
def adding (leads : List Int) (n : Nat) : State :=
  { on with dir := [(101, some clip101)], localCount := n, lanes := [(0, { l0 with cfg := { l0.cfg with pool := 2600 } })]
            services := [(0, { v0 with defn := some { d0 with ceiling := 2600 }, clk := { v0.clk with leads := leads } })] }

def addCase (s : State) (a : EntryArgs) : Prop :=
  entryArgsOk a = true ∧ (a.retKind = 0 → a.trigKind = 0) ∧ s.laneOf a.svc = some 0 ∧ (s.lane 0).mode = .running
  ∧ (∀ c ∈ a.pod.take a.podCount, playable s c = true)
  ∧ podRate s (a.pod.take a.podCount) ≤ (((s.svc a.svc).defn.map (·.ceiling)).getD 0) ∧ s.entry 0 = none

/-- A CUE entry; a TIME entry one tick before its trigger, and at it without a lead; a NOW entry without a lead and with one. -/
theorem test_witness_AddEntryTakesEffectByItsTrigger : (∀ l n, (adding l n).takes .tp) ∧ PortId.tp ≠ .ap
    ∧ (∀ a ∈ [addArgs, timeArgs, nowArgs], ∀ n ∈ [981499999, 981500000], addCase (adding [] n) a ∧ addCase (adding [27000] n) a)
    ∧ subMod nClk 1000000000 (500 * 27000) = 981500000 + 5000000
    ∧ atOrAfter nClk ((981499999 + 5000000) % nClk) 986500000 = false ∧ atOrAfter nClk ((981500000 + 5000000) % nClk) 986500000 = true
    ∧ lead (adding [] 981500000) 0 = none ∧ (earliest (adding [27000] 1000) 0).isSome = true
    ∧ heldLevel (adding [27000] 1000) 0 = 0 ∧ ((adding [27000] 1000).sp 0).nxt = none
    ∧ committed (adding [27000] 1000) 0 + podRate (adding [27000] 1000) [101, 101, 101, 101] ≤ 2600 := by
  refine ⟨fun _ _ => takesOf rfl _, by decide, ?_, by decide +kernel⟩
  unfold addCase; decide +kernel

/-- The last number free. -/
def almostFull : State := { adding [] 0 with entries := (List.range 255).map (fun n => (n, some { timeEntry with num := n })) }

theorem test_witness_AddEntryTakesEffectByItsTrigger_last : almostFull.takes .tp ∧ almostFull.entry 255 = none
    ∧ (∀ m, m < 255 → (almostFull.entry m).isSome = true) := ⟨takesOf rfl _, by decide +kernel⟩

/-- Check by check: the window at its limit and one past it; CUE return without a CUE trigger; a service that is not configured; a clip
that is not there; a ceiling one short; no number free. -/
theorem test_witness_AddEntryTakesEffectByItsTrigger_refusals : (∀ n, (adding [] n).takes .pp)
    ∧ entryArgsOk addArgs = true ∧ entryArgsOk { addArgs with window := 900001 } = false ∧ entryArgsOk { addArgs with trigKind := 2, trigValue := 0 } = true
    ∧ (adding [] 0).live 0 = true ∧ (adding [] 0).live 47 = false ∧ playable (adding [] 0) 101 = true ∧ playable (adding [] 0) 102 = false
    ∧ ((adding [] 0).clip 101).bind (·.sealVals) = some seal0 ∧ ¬seal0.rate ≤ 2599
    ∧ (let s : State := { almostFull with entries := almostFull.entries ++ [(255, some timeEntry)] }
       ∀ n, n < 256 → (s.entry n).isSome = true) := ⟨fun _ => takesOf rfl _, by decide +kernel⟩

/-- An ARMED entry with its instance SEEKING or its request waiting, and an ACTIVE one with E at `e`. -/
def armed3 : State := { seek none 1000 with entries := [(3, some (entry3 .armed 2600))], dir := [(101, some clip101)] }
def armedWaiting : State := { withSp (fun p => { p with waiting := some { clip := 101, s := some 100000, owner := .entry 3 } }) with
  entries := [(3, some (entry3 .armed 2600))] }
def active3 (e : Option Nat) (c : Bool) (leads : List Int) (begun : Bool) : State :=
  { withSvc (fun v => { v with clk := { v.clk with leads := leads }, sp := { v.sp with retBegun := begun } }) with
    entries := [(3, some { entry3 .active 2600 with e := e, cancelled := c })] }

/-- PENDING; ARMED; ACTIVE with E absent, before and exactly at the estimate, cancelled before, the return begun, without an
estimate. -/
theorem test_witness_CancelEntryActsByState : (timed [] 0).takes .tp ∧ (timed [] 0).takes .pp
    ∧ (timed [] 0).entry 3 = some timeEntry ∧ (timed [] 0).entry 4 = none ∧ timeEntry.num = 3 ∧ timeEntry.origin = .tp
    ∧ armed3.takes .tp ∧ armed3.entry 3 = some (entry3 .armed 2600) ∧ (armed3.sp 0).nxt.map (fun x => (x.phase, x.owner)) = some (.seeking, .entry 3)
    ∧ armedWaiting.takes .tp ∧ (armedWaiting.sp 0).waiting.map (·.owner) = some (.entry 3)
    ∧ (∀ e c l b, (active3 e c l b).takes .tp) ∧ (entry3 .active 2600).origin = .tp
    ∧ estimate (active3 none false [27000] false) 0 = some 43670 ∧ sdiff nPts 43670 43670 = 0 ∧ sdiff nPts 43669 43670 < 0
    ∧ estimate (active3 none false [] false) 0 = none ∧ ((active3 none false [] true).sp 0).retBegun = true := by
  and_intros <;> first | exact fun _ _ _ _ => takesOf rfl _ | exact takesOf rfl _ | decide +kernel

/-! #### Ingest, clips, alerts, protection -/

/-- The ingest of 9.9. -/
def open301 : IngestArgs :=
  { clip := 301, rate := 2600, kDecl := 80000, count := 2, pcrIndex := 0, res := 0
    positions := [⟨0x101, 1⟩, ⟨0x102, 2⟩] ++ List.replicate 6 ⟨0, 0⟩ }
def freeArray : State := { on with flash := { on.flash with freeM := List.range' 266 30 } }

theorem test_witness_IngestOpenTakesItsChain : freeArray.takes .pp ∧ ingestArgsOk open301 = true
    ∧ takeComps 2 open301.positions = some [⟨0x101, .video⟩, ⟨0x102, .audio⟩]
    ∧ ingestCompsOk [⟨0x101, .video⟩, ⟨0x102, .audio⟩] = true ∧ ingestRefusal freeArray .pp open301 = none :=
  ⟨takesOf rfl _, by decide +kernel⟩

/-- Check by check, with the fewest packets and the most: 1 and 119 blocks. -/
theorem test_witness_IngestOpenTakesItsChain_refusals : freeArray.takes .ap ∧ locked.takes .ap
    ∧ ingestArgsOk { open301 with kDecl := 327489 } = false ∧ ingestArgsOk { open301 with kDecl := 327488 } = true
    ∧ ingestArgsOk { open301 with kDecl := 1 } = true ∧ (1 + 2751) / 2752 = 1 ∧ (327488 + 2751) / 2752 = 119
    ∧ badPid 0x0F = true ∧ badPid 0x10 = false ∧ badPid 0x1FFE = false ∧ badPid 0x1FFF = true
    ∧ locked.flash.prot.ingestLock = true ∧ locked.flash.unusable = false ∧ (locked.ingest .ap).st = .none
    ∧ ingestRefusal { freeArray with flash := { freeArray.flash with unusable := true } } .ap open301 = some .fault
    ∧ ingestRefusal locked .ap open301 = some .protected_
    ∧ ingestRefusal { freeArray with flash := { freeArray.flash with release := some ⟨none, 0, 0⟩ } } .ap open301 = some .busy
    ∧ ingestRefusal { freeArray with flash := { freeArray.flash with supply := .low } } .pp open301 = some .busy
    ∧ ingestRefusal { freeArray with dir := [(301, some clip101)] } .pp open301 = some .duplicate
    ∧ ingestRefusal freeArray .ap open301 = some .full ∧ (freeArray.flash.free .main).length = blocksOf open301.kDecl :=
  ⟨takesOf rfl _, takesOf rfl _, by decide +kernel⟩

/-- An ingest of `decl` packets, `n` stored, with `a` in buffer A and buffer B writing. -/
def ingesting (decl n a : Nat) : Ingest :=
  { Ingest.reset with
    st := .open_, clip := 301, decl := ⟨2600, decl, [⟨0x101, .video⟩], 0⟩, stored := n, handed := 1
    c0 := some 60000, pcr := some (0, 9000000)
    bufA := { st := .filling, pkts := List.replicate a [], page := 0 }, bufB := { st := .writing, pkts := [], page := 0 } }
def clip301 : ClipRec :=
  { clip := 301, region := .main, chain := [266], st := .ingesting, decl := some ⟨2600, 90, [⟨0x101, .video⟩], 0⟩,
    sealVals := none, marker := .none, refs := 0 }
def ingest1 (g : Ingest) : State := { on with ingests := [(1, g)], dir := [(301, some clip301)] }

/-- A record with seal values and one whose clip a single unit receives. -/
theorem test_witness_ReportsChangeNothing_clips : (ingest1 (ingesting 43 42 42)).ingest .pp = ingesting 43 42 42
    ∧ (∀ q, ((ingest1 (ingesting 43 42 42)).ingest q).st ≠ .none → ((ingest1 (ingesting 43 42 42)).ingest q).clip = 301 → q = .pp)
    ∧ clip301.sealVals = none ∧ clip301.decl.isSome = true ∧ (ingest1 (ingesting 43 42 42)).directory = [clip301]
    ∧ clip101.sealVals = some seal0 ∧ clip101.st ≠ .ingesting := by
  refine ⟨by decide +kernel, fun q => ?_, by decide +kernel⟩
  cases q <;> decide +kernel

def dataCase (g : Ingest) (b : Pkt) (m : Nat) : Prop :=
  ((ingest1 g).ingest .pp).st = .open_ ∧ g.badBoundary b = false
  ∧ (((List.range ((g.asm ++ b).length / 188)).map (fun j => ((g.asm ++ b).drop (188 * j)).take 188)).filter
      (fun b => g.decl.comps.any (fun c => c.pid == pktPid b))).length = m

/-- One declared packet: it fills the last place, exactly the declaration; without a place; over the declaration. -/
theorem test_witness_IngestDataStoresDeclaredPackets :
    dataCase (ingesting 43 42 42) (data 0x101 0) 1 ∧ (ingesting 43 42 42).freePositions = 1
    ∧ dataCase (ingesting 44 43 43) (data 0x101 0) 1 ∧ (ingesting 44 43 43).freePositions = 0
    ∧ dataCase (ingesting 42 42 42) (data 0x101 0) 1 := by unfold dataCase; and_intros <;> decide +kernel

/-- A bad first byte on an empty assembler, and a bad byte where the assembler's packet ends; the unit NONE, CLOSING and ENDING. -/
theorem test_witness_IngestDataStoresDeclaredPackets_others :
    (ingesting 90 42 42).badBoundary [0x46#8] = true ∧ ({ ingesting 90 42 42 with asm := [0x46#8] } : Ingest).badBoundary (List.replicate 187 0) = true
    ∧ ({ ingesting 90 42 42 with asm := [0x47#8] } : Ingest).badBoundary [0x46#8] = false
    ∧ (ingest1 (ingesting 90 42 42)).clip 301 = some clip301 ∧ clip301.clip = (ingesting 90 42 42).clip
    ∧ ((ingest1 Ingest.reset).ingest .pp).st = .none
    ∧ ((ingest1 { ingesting 90 42 42 with st := .closing }).ingest .pp).st = .closing := by decide +kernel

theorem test_witness_IngestDataStoresDeclaredPackets_takes (g : Ingest) : (ingest1 g).takes .pp := takesOf rfl _

/-- A data program of a unit whose other buffer is FULL or FILLING; its seal program; a held Ingest Data. -/
def progIngest (st : IngestState) (other : BufState) (held : Held) (k : ProgKind) : State :=
  { withOp (ingest1 { ingesting 90 50 7 with
      st := st, held := held, bufA := { st := other, pkts := [data 0x101 1], page := 1 } }) (.ingest .pp) (.program k) 266 0 301 with
    links := [(1, { Link.reset with out := some ⟨0x31#8, none⟩ })] }

theorem test_witness_ProgramEndsForItsRequester :
    opIs (withOp on .protection (.program (.protection true false)) 0 0 0) .protection (.program (.protection true false)) 0
    ∧ (∀ o ∈ [BufState.full, .filling], ∀ st ∈ [IngestState.open_, .closing],
        let s := progIngest st o .none (.data 0 0 [])
        opIs s (.ingest .pp) (.program (.data 0 0 [])) 266 ∧ ((s.ingest .pp).buf true).st = .writing
        ∧ ((s.ingest .pp).buf false).st = o ∧ (s.ingest .pp).st = st ∧ (s.ingest .pp).held = .none
        ∧ (s.clip 301).map (·.clip) = some 301)
    ∧ opIs (progIngest .closing .empty .none (.sealing seal0)) (.ingest .pp) (.program (.sealing seal0)) 266
    ∧ ((progIngest .open_ .full (.data []) (.data 0 0 [])).ingest .pp).held = .data []
    ∧ ((progIngest .open_ .full (.data []) (.data 0 0 [])).link .pp).out.isSome = true
    ∧ (let s := withOp { on with dir := [(101, some { clip101 with st := .damaged })] } .marker (.program .damage) 300 0 101
       opIs s .marker (.program .damage) 300 ∧ (s.clip 101).bind (·.chain.head?) = some 300)
    ∧ opIs programming .marker (.program .badBlock) 7
    ∧ ({ on.flash with op := some ⟨.ingest .pp, .program (.data 0 0 []), 266, 0, 301, 0, true, []⟩ } : Flash).op.map (·.orphan)
        = some true := by
  unfold opIs; and_intros <;> decide +kernel

/-- A run of whole packets splits into them. -/
theorem packetsOf_flatten (ps : List Pkt) (h : ∀ b ∈ ps, b.length = 188) : ps.flatten.length = 188 * ps.length
    ∧ (List.range ps.length).map (fun j => (ps.flatten.drop (188 * j)).take 188) = ps := by
  induction ps with
  | nil => exact ⟨rfl, rfl⟩
  | cons b r ih =>
    have hb := h b List.mem_cons_self
    obtain ⟨hl, hm⟩ := ih (fun x hx => h x (List.mem_cons_of_mem _ hx))
    refine ⟨by simp only [List.flatten_cons, List.length_append, List.length_cons]; omega, ?_⟩
    rw [List.length_cons, List.range_succ_eq_map, List.map_cons, List.map_map]
    refine congrArg₂ List.cons (by simp [← hb]) ((List.map_congr_left fun j _ => ?_).trans hm)
    have : (r.flatten.drop (188 * j)) = ((b ++ r.flatten).drop (188 * (j + 1))) := by
      rw [List.drop_append, List.drop_eq_nil_of_le (as := b) (by omega), List.nil_append, hb, Nat.mul_succ, Nat.add_sub_cancel]
    simp only [Function.comp, List.flatten_cons, this]

/-- A held frame of any number of packets behind a buffer of one packet: behind a FULL one 43 are taken and 44 wait, behind a FILLING
one 85 and 86. -/
theorem test_witness_ProgramEndsForItsRequester_held (o : BufState) (n : Nat) : let x := (List.replicate n (data 0x101 0)).flatten
      let s := progIngest .open_ o (.data x) (.data 0 0 [])
      let g := s.ingest .pp
      (g.buf true).st = .writing ∧ (g.buf false).st = o ∧ (g.buf false).pkts.length = 1 ∧ g.st = .open_ ∧ g.held = .data x ∧ g.asm = []
      ∧ x.length / 188 = n ∧ (((List.range n).map (fun j => (x.drop (188 * j)).take 188)).filter
          (fun y => g.decl.comps.any (fun c => c.pid == pktPid y))).length = n ∧ (s.link .pp).out.isSome = true := by
  intro x s g
  obtain ⟨hl, hm⟩ := packetsOf_flatten (List.replicate n (data 0x101 0))
    (fun b hb => by rw [List.eq_of_mem_replicate hb]; decide +kernel)
  rw [List.length_replicate] at hl hm
  refine ⟨rfl, rfl, rfl, rfl, rfl, rfl, by change x.length = _ at hl; omega, ?_, rfl⟩
  rw [hm, List.filter_replicate_of_pos (p := fun y => g.decl.comps.any (fun c => c.pid == pktPid y))
    (show ([⟨0x101, .video⟩] : List Comp).any (fun c => c.pid == pktPid (data 0x101 0)) = true by decide +kernel), List.length_replicate]

/-- The program of an ingest in ENDING. -/
theorem test_witness_ProgramEndsForItsRequester_ending : ∀ k ∈ [ProgKind.data 0 0 [], .sealing seal0],
    let s := progIngest .ending .full .none k
    opIs s (.ingest .pp) (.program k) 266 ∧ (s.ingest .pp).st = .ending ∧ s.clip (s.ingest .pp).clip = some clip301
    ∧ clip301.clip = (s.ingest .pp).clip ∧ (s.link .pp).out.isSome = true := by unfold opIs; decide +kernel

/-- The aborts of LOWSUPPLY: a data program of an OPEN and of a CLOSING ingest, with and without a held frame, its seal program, a
damage marker, a bad-block marker, a protection program and an erase. -/
theorem test_witness_SupplyAndReferenceFollowTheirPins_aborts :
    (∀ st ∈ [IngestState.open_, .closing], ∀ h ∈ [Held.none, .data []], let s := progIngest st .full h (.data 0 0 [])
      opIs s (.ingest .pp) (.program (.data 0 0 [])) 266 ∧ s.resetAsserted = false ∧ s.lowsupply = false ∧ (s.ingest .pp).st = st
      ∧ (s.ingest .pp).held = h ∧ s.clip (s.ingest .pp).clip = some clip301 ∧ (s.link .pp).out.isSome = true)
    ∧ opIs (progIngest .closing .empty .none (.sealing seal0)) (.ingest .pp) (.program (.sealing seal0)) 266
    ∧ (let s := withOp { on with dir := [(101, some { clip101 with st := .damaged })] } .marker (.program .damage) 300 0 101
       opIs s .marker (.program .damage) 300 ∧ (s.clip 101).map (fun r => (r.st, r.chain.head?)) = some (.damaged, some 300))
    ∧ opIs programming .marker (.program .badBlock) 7
    ∧ opIs (withOp on .protection (.program (.protection true false)) 0 0 0) .protection (.program (.protection true false)) 0
    ∧ opIs erasing (.eraser .main) .erase 300 ∧ erasing.lowsupply = false := by unfold opIs; and_intros <;> decide +kernel

/-- The program on the second block of a chain aborted by LOWSUPPLY: the chain joins the dirty list in its own order (R124). -/
theorem test_abort_keeps_chain_order :
    (go { withOp (ingest1 (ingesting 90 50 7)) (.ingest .pp) (.program (.data 0 0 [])) 267 0 301 with
          dir := [(301, some { clip301 with chain := [266, 267, 268] })] } .lowsupplyAssert).flash.dirtyM.map (·.block)
      = [266, 267, 268] := by decide +kernel

/-- Close: verified at both ends of the duration's range, with a FILLING buffer that holds packets and one that is empty; with another
checksum; in NONE, CLOSING and ENDING. Abort: without and with a program in flight, and in NONE and ENDING. -/
theorem test_witness_IngestCloseVerifiesAndAbortEnds : (∀ g, (ingest1 g).takes .pp)
    ∧ (ingest1 (ingesting 43 42 42)).clip 301 = some clip301 ∧ clip301.clip = 301
    ∧ (ingesting 43 42 42).st = .open_ ∧ (ingesting 43 42 42).c0 = some 60000 ∧ (ingesting 43 42 42).pcr = some (0, 9000000)
    ∧ (ingesting 43 42 42).split = false ∧ (65536 - (ingesting 43 42 42).sum % 65536) % 65536 = 0 ∧ 1 ≤ 324000000
    ∧ (∀ a ∈ [0, 42], let g : Ingest := { ingesting 43 42 a with bufB := Buf.empty }
        g.bufA.st = .filling ∧ g.bufB.st = .empty ∧ (g.bufA.pkts = [] ↔ a = 0))
    ∧ (ingesting 43 42 42).checksum ≠ 1 ∧ Ingest.reset.st = .none
    ∧ (withOp (ingest1 (ingesting 43 42 42)) (.ingest .pp) (.program (.data 0 0 [])) 266 0 301).takes .pp
    ∧ ingestInFlight (ingest1 (ingesting 43 42 42)) .pp = false
    ∧ ingestInFlight (withOp (ingest1 (ingesting 43 42 42)) (.ingest .pp) (.program (.data 0 0 [])) 266 0 301) .pp = true := by
  and_intros <;> first | exact fun _ => takesOf rfl _ | exact takesOf rfl _ | decide

/-- Clip 101 without a reference, clip 102 with one, and the alert clip 900. -/
def clips : State :=
  { on with dir := [(101, some { clip101 with refs := 0 }), (102, some { clip101 with clip := 102 }), (900, some clip900)] }
theorem clipsTakes (p : PortId) : clips.takes p := takesOf rfl p

def eraseLocked : State := { clips with flash := { on.flash with prot := ⟨false, true, 1⟩ } }

theorem test_witness_ClipEraseAndChecksumAreCheckedInOrder : (∀ p, clips.takes p) ∧ eraseLocked.takes .ap
    ∧ clips.clip 65534 = none ∧ clips.clip 101 = some { clip101 with refs := 0 } ∧ clip101.clip = 101
    ∧ clip101.st ≠ .ingesting ∧ clip101.region = regionOf .tp ∧ (clips.clip 102).map (·.refs) = some 1
    ∧ clip900.region ≠ regionOf .tp ∧ clip900.region = regionOf .ap ∧ clips.flash.prot.eraseLock = false
    ∧ eraseLocked.clip 900 = some clip900 ∧ clip900.clip = 900 ∧ eraseLocked.flash.prot.eraseLock = true
    ∧ clips.check .tp = none ∧ ({ clips with checks := [(0, some ⟨102, 3, 0⟩)] } : State).check .tp ≠ none
    ∧ clip301.st = .ingesting := ⟨clipsTakes, takesOf rfl _, by decide⟩

/-- Slot 3 READY with clip 900. -/
def slot900 : State := { clips with preloads := [(3, ⟨.ready, 900, []⟩)] }
/-- Slot 3 EMPTY; holding the clip named, and another; clip 901 in the main region; the release in progress. -/
theorem test_witness_AlertPreloadFillsAndEmptiesSlot : clips.takes .ap ∧ clips.flash.release = none
    ∧ (clips.preload 3).st = .empty ∧ slot900.takes .ap ∧ slot900.flash.release = none
    ∧ (slot900.preload 3).st ≠ .empty ∧ (slot900.preload 3).clip = 900
    ∧ (∃ r, clips.clip 900 = some r ∧ r.st = .good ∧ r.region = .alert) ∧ (clips.clip 101).map (·.region) = some .main
    ∧ ({ clips with dir := [(900, some clip900), (65534, some { clip900 with clip := 65534 })]
                    preloads := [(3, ⟨.ready, 900, []⟩)] } : State).takes .ap
    ∧ ({ clips with flash := { on.flash with release := some ⟨none, 0, 0⟩ } } : State).takes .ap := by
  and_intros <;> first | exact takesOf rfl _ | exact ⟨clip900, rfl, rfl, rfl⟩ | decide

/-- Duration at the upper end of its range; every record IDLE. -/
def activate1 : AlertArgs := { alert := 4410, clip := 900, duration := 7200, loop := 1, count := 1, res := 0, targets := List.replicate 48 0 }

theorem test_witness_AlertActivateHoldsService : clips.takes .ap ∧ alertArgsOk activate1 = true ∧ activate1.count = 1
    ∧ activate1.targets.take 1 = [0] ∧ clips.clip 900 = some clip900 ∧ clip900.st = .good ∧ clip900.region = .alert
    ∧ clip900.sealVals = some seal0 ∧ (∀ q, q < 4 → (clips.alert q).st = .idle) ∧ clips.live 0 = true
    ∧ (∀ q, q < 4 → (clips.alert q).targets.any (fun t => t.svc == 0) = false) ∧ armedEntry clips 0 = none
    ∧ (clips.sp 0).nxt = none := ⟨clipsTakes _, by decide +kernel⟩

/-- Service 0 held by a record in ENDING, by one in ON, DEFERRED in one; a READY slot of the clip, its preroll of 500 ms without. -/
def others (st : AlertState) (x : TStatus) : State := { clips with alerts := (alertOn x true).alerts.map (fun a => (a.1, { a.2 with st := st })) }
theorem test_witness_AlertActivateHoldsService_others : (∀ st x, (others st x).takes .ap)
    ∧ alertArgsOk { activate1 with count := 3, targets := [0, 46, 47] ++ List.replicate 45 0 } = true
    ∧ alertArgsOk { activate1 with count := 2, targets := List.replicate 48 0 } = false
    ∧ alertArgsOk { activate1 with targets := 48 :: List.replicate 47 0 } = false ∧ alertClip clips 101 = false
    ∧ recordOf (others .on .held) 4410 = some 3 ∧ holdingAlert (others .ending .held) 0 = some 3
    ∧ isDeferred (others .on .deferred) 0 = true ∧ clips.live 47 = false
    ∧ readySlot { clips with preloads := [(2, ⟨.ready, 900, []⟩)] } 900 = true ∧ readySlot clips 900 = false
    ∧ estimate clips 0 = some 43670 ∧ armedEntry { clips with entries := [(3, some (entry3 .armed 2600))] } 0 = some (entry3 .armed 2600) :=
  ⟨fun _ _ => takesOf rfl _, by decide +kernel⟩

def ending : State :=
  { on with alerts := [(0, { st := .ending, id := 7, targets := [target .held true], clip := 900, duration := 1, loop := true,
                             timer := none, remTicks := 5, cause := .cancelled })] }

theorem test_witness_AlertRecordEndsByExpiryOrCancel : (alertOn .released false).resetAsserted = false
    ∧ ((alertOn .released false).alert 3).st = .on ∧ ((alertOn .released false).alert 3).timer = some 0
    ∧ (∀ t ∈ ((alertOn .released false).alert 3).targets, t.status ≠ .held)
    ∧ ((alertOn .held true).alert 3).targets = [target .held true] ∧ ((alertOn .held true).sp 0).ret = .idle
    ∧ ((alertOn .held true).sp 0).retBegun = false ∧ ((alertOn .held true).svc 0).clk.st ≠ .unlocked
    ∧ (lead (alertOn .held true) 0).isSome = true
    ∧ (alertOn .released false).takes .ap ∧ ending.takes .ap ∧ ((alertOn .released false).alert 3).id ≠ 0
    ∧ (∀ q, q < 4 → q ≠ 3 → ((alertOn .released false).alert q).st = .idle)
    ∧ (ending.alert 0).st = .ending ∧ (ending.alert 0).id ≠ 0 ∧ (∀ q, q < 4 → q ≠ 0 → (ending.alert q).st = .idle) := by
  and_intros <;> first | exact takesOf rfl _ | decide +kernel

/-- Record 3 with service 0 cut and returning by `ret`, service 1 held and not cut, service 2 deferred; an entry waits for service 1. -/
def alertMany (ret : Ret) (leads : List Int) : State :=
  { on with
    services := [(0, { v0 with clk := { v0.clk with leads := leads }, sp := { v0.sp with ret := ret } }),
                 (1, { v0 with sp := { v0.sp with nxt := some { seeking none with clip := 900, owner := .alert 3 } } })]
    dir := [(101, some clip101), (900, some { clip900 with refs := 1 })]
    entries := [(3, some { timeEntry with st := .waiting .held, svc := 1 })]
    alerts := [(3, { st := .on, id := 4410, clip := 900, duration := 1, loop := true, timer := some 0, remTicks := 27000000, cause := .none
                     targets := [target .held true, { target .held false with svc := 1 }, { target .deferred false with svc := 2 }] })] }

/-- No return with an estimate and without, a return exactly at the estimate and one after it, an emergency return; a single target
not cut; an id that no record has. -/
theorem test_witness_AlertRecordEndsByExpiryOrCancel_targets :
    (∀ ret leads, (alertMany ret leads).takes .ap ∧ ((alertMany ret leads).sp 0).ret = ret
      ∧ (((alertMany ret leads).alert 3).targets.map (·.svc)).Nodup ∧ Table.wf none (alertMany ret leads).entries = true
      ∧ (∀ n e, (alertMany ret leads).entry n = some e → e.num = n))
    ∧ estimate (alertMany .idle [27000]) 0 = some 43670 ∧ estimate (alertMany .idle []) 0 = none
    ∧ atOrAfter nPts 43670 43670 = true ∧ atOrAfter nPts 43670 43671 = false
    ∧ ((endAlert (alertMany (.returning 43670) [27000]) 3 .cancelled 0).sp 0).ret = .returning 43670
    ∧ ((endAlert (alertMany (.returning 43671) [27000]) 3 .cancelled 0).sp 0).ret = .returning 43670
    ∧ ((endAlert (alertMany .idle [27000]) 3 .cancelled 0).alert 3).targets.map (fun t => (t.svc, t.status))
        = [(0, .held), (1, .released), (2, .otherAlert)]
    ∧ ((alertOn .held false).alert 3).targets = [target .held false] ∧ (alertOn .held false).takes .ap
    ∧ (∀ q, q < 4 → (on.alert q).st = .idle) := by
  refine ⟨fun _ _ => ⟨takesOf rfl _, rfl, show [0, 1, 2].Nodup by decide, rfl, numsOf rfl⟩, ?_⟩
  and_intros <;> first | exact takesOf rfl _ | decide +kernel

def prot (i e : Bool) (c : Nat) : State := { on with flash := { on.flash with prot := ⟨i, e, c⟩ } }

/-- UNUSABLE; four programs spent; both locks set already after three; one lock still to be set. -/
theorem test_witness_ProtectionSetRequestsProgram : (∀ i e c, (prot i e c).takes .ap)
    ∧ ({ on with flash := { on.flash with unusable := true } } : State).takes .ap
    ∧ ({ on.flash with unusable := true } : Flash).unusable = true
    ∧ (prot false false 4).flash.prot.count = 4 ∧ (prot true true 3).flash.supply = .normal
    ∧ (prot true true 3).flash.release = none ∧ protectionPending (prot true true 3).flash = false
    ∧ (prot true true 3).flash.prot.count ≠ 4 ∧ (prot true true 3).flash.prot.eraseLock = true
    ∧ (prot true false 3).flash.prot.eraseLock = false :=
  ⟨fun _ _ _ => takesOf rfl _, takesOf rfl _, by decide⟩

/-- BADPARAM's three forms, and BUSY's four. -/
theorem test_witness_ProtectionSetRequestsProgram_busy : (∀ b ∈ [0#8, 4#8, 255#8], b = 0#8 ∨ 4 ≤ b.toNat) ∧ releasing.takes .ap
    ∧ (withOp on .protection (.program (.protection true false)) 0 0 0).takes .ap ∧ (asking 0 0).takes .ap
    ∧ ({ on with flash := { on.flash with supply := .low } } : State).flash.supply = .low ∧ releasing.flash.release ≠ none
    ∧ (asking 0 0).flash.protReq ≠ none
    ∧ (withOp on .protection (.program (.protection true false)) 0 0 0).flash.op.map (·.req) = some .protection :=
  ⟨by decide, takesOf rfl _, takesOf rfl _, takesOf rfl _, by decide⟩

/-- Accepted; and each check that can turn it away. -/
theorem test_witness_ProtectionReleaseClearsAlertRegion : clips.takes .ap ∧ eraseLocked.takes .ap
    ∧ releasing.takes .ap ∧ (alertOn .held true).takes .ap
    ∧ clips.flash.unusable = false ∧ clips.flash.supply = .normal ∧ clips.flash.release = none
    ∧ protectionPending clips.flash = false ∧ clips.flash.prot.eraseLock = false ∧ (clips.ingest .ap).st = .none
    ∧ (∀ r ∈ clips.directory, ¬(r.region = .alert ∧ 0 < r.refs)) ∧ (∀ r ∈ clips.directory, clips.clip r.clip = some r)
    ∧ eraseLocked.flash.prot.eraseLock = true ∧ releasing.flash.release ≠ none
    ∧ (alertOn .held true).flash.prot.eraseLock = false
    ∧ (∃ r ∈ (alertOn .held true).directory, r.region = .alert ∧ 0 < r.refs) :=
  ⟨takesOf rfl _, takesOf rfl _, takesOf rfl _, takesOf rfl _, by decide⟩

end Sys2Proof.Tests
end

section
/-! What a row leaves of every lane it neither configures nor takes a slot of, and the bounds that every row keeps. -/

namespace Sys2Proof.Machine

/-- A lane keeps its mode, its settings and its slot registers, and its FIFO the capacity of R12. -/
structure LaneKept (l m : Lane) : Prop where
  mode : m.mode = l.mode
  cfg : m.cfg = l.cfg
  base : m.base = l.base
  slotNo : m.slotNo = l.slotNo
  slotRem : m.slotRem = l.slotRem
  slotTime : m.slotTime = l.slotTime
  fifo : l.fifo.length ≤ 16384 → m.fifo.length ≤ 16384

@[simp] theorem LaneKept.refl (l : Lane) : LaneKept l l := by constructor <;> simp

theorem LaneKept.trans {l m n : Lane} (h : LaneKept l m) (k : LaneKept m n) : LaneKept l n where
  mode := k.mode.trans h.mode
  cfg := k.cfg.trans h.cfg
  base := k.base.trans h.base
  slotNo := k.slotNo.trans h.slotNo
  slotRem := k.slotRem.trans h.slotRem
  slotTime := k.slotTime.trans h.slotTime
  fifo := k.fifo ∘ h.fifo

@[simp] theorem LaneKept.setPid {l m : Lane} (h : LaneKept l m) (q : Nat) (e : PidEntry) : LaneKept l (m.setPid q e) :=
  h.trans (by constructor <;> simp [Lane.setPid])

@[simp] theorem LaneKept.restorePids {l m : Lane} (h : LaneKept l m) (qs : List Nat) : LaneKept l (m.restorePids qs) := by
  unfold Lane.restorePids
  induction qs generalizing m with
  | nil => exact h
  | cons q r ih => exact ih (h.setPid _ _)

/-- What every row keeps but SLOT, Configure Lane and RESETN's release: each lane in the sense of `LaneKept`; lead windows, cue
memories and event queues within their capacities; the local count below N_CLK. -/
structure RowFrame (s t : State) : Prop where
  lane : ∀ k, LaneKept (s.lane k) (t.lane k)
  leads : ∀ i, (s.svc i).clk.leads.length ≤ 32 → (t.svc i).clk.leads.length ≤ 32
  cues : ∀ i, (s.svc i).cues.length ≤ 8 → (t.svc i).cues.length ≤ 8
  queues : (∀ p, (s.box p).queue.length ≤ 32) → ∀ p, (t.box p).queue.length ≤ 32
  count : s.localCount < nClk → t.localCount < nClk

namespace RowFrame

@[simp] theorem refl (s : State) : RowFrame s s := by constructor <;> simp

theorem trans {s t u : State} (h : RowFrame s t) (k : RowFrame t u) : RowFrame s u where
  lane j := (h.lane j).trans (k.lane j)
  leads i := k.leads i ∘ h.leads i
  cues i := k.cues i ∘ h.cues i
  queues := k.queues ∘ h.queues
  count := k.count ∘ h.count

variable {s t u : State}

/-! ### What `rest` and its acts keep, and the basic updates -/

/-- What the acts of `rest` keep is more. -/
theorem of_kept (k : Kept s t) : RowFrame s t where
  lane j := by simp [State.lane, k.lanes]
  leads i := by simp [k.clk i]
  cues i := by simp [k.cues i]
  queues := k.queues
  count := by simp [k.localCount]

theorem kept (h : RowFrame s t) (k : Kept t u) : RowFrame s u := h.trans (of_kept k)

theorem setLane (h : RowFrame s t) (k : Nat) {l : Lane} (hl : LaneKept (t.lane k) l) : RowFrame s (t.setLane k l) := by
  refine h.trans ?_
  constructor
  case lane => intro j; rw [State.lane_setLane]; split <;> simp_all
  all_goals simp

theorem setSvc (h : RowFrame s t) (i : Nat) {v : Service} (hl : (t.svc i).clk.leads.length ≤ 32 → v.clk.leads.length ≤ 32)
    (hc : (t.svc i).cues.length ≤ 8 → v.cues.length ≤ 8) : RowFrame s (t.setSvc i v) := by
  refine h.trans ?_
  constructor
  case leads => intro j; rw [State.svc_setSvc]; split <;> simp_all
  case cues => intro j; rw [State.svc_setSvc]; split <;> simp_all
  all_goals simp

theorem modSvc (h : RowFrame s t) (i : Nat) {f : Service → Service}
    (hl : (t.svc i).clk.leads.length ≤ 32 → (f (t.svc i)).clk.leads.length ≤ 32)
    (hc : (t.svc i).cues.length ≤ 8 → (f (t.svc i)).cues.length ≤ 8) : RowFrame s (t.modSvc i f) := h.setSvc i hl hc

theorem setBox (h : RowFrame s t) (p : PortId) {b : Box} (hb : (t.box p).queue.length ≤ 32 → b.queue.length ≤ 32) :
    RowFrame s (t.setBox p b) := by
  refine h.trans ?_
  constructor
  case queues => intro hq q; rw [State.box_setBox]; split <;> simp_all
  all_goals simp

@[simp] theorem setLink (h : RowFrame s t) (p : PortId) (l : Link) : RowFrame s (t.setLink p l) :=
  h.trans (by constructor <;> simp)
@[simp] theorem setPreload (h : RowFrame s t) (j : Nat) (q : Preload) : RowFrame s (t.setPreload j q) :=
  h.trans (by constructor <;> simp)
@[simp] theorem setCheck (h : RowFrame s t) (p : PortId) (c : Option Check) : RowFrame s (t.setCheck p c) :=
  h.trans (by constructor <;> simp)
@[simp] theorem withFlash (h : RowFrame s t) (f : Flash) : RowFrame s (t.withFlash f) :=
  h.trans (by constructor <;> simp)
@[simp] theorem modFlash (h : RowFrame s t) (f : Flash → Flash) : RowFrame s (t.modFlash f) := h.withFlash _
@[simp] theorem setClip (h : RowFrame s t) (c : Nat) (r : Option ClipRec) : RowFrame s (t.setClip c r) := h.kept (by simp)
@[simp] theorem setIngest (h : RowFrame s t) (p : PortId) (g : Ingest) : RowFrame s (t.setIngest p g) := h.kept (by simp)
@[simp] theorem setEntry (h : RowFrame s t) (n : Nat) (e : Option Entry) : RowFrame s (t.setEntry n e) := h.kept (by simp)
@[simp] theorem setAlert (h : RowFrame s t) (r : Nat) (a : AlertRec) : RowFrame s (t.setAlert r a) := h.kept (by simp)
@[simp] theorem modEntry (h : RowFrame s t) (n : Nat) (f : Entry → Entry) : RowFrame s (t.modEntry n f) := h.kept (by simp)
@[simp] theorem modAlert (h : RowFrame s t) (r : Nat) (f : AlertRec → AlertRec) : RowFrame s (t.modAlert r f) := h.kept (by simp)
@[simp] theorem modSp (h : RowFrame s t) (i : Nat) (f : SpliceRec → SpliceRec) : RowFrame s (t.modSp i f) := h.kept (by simp)
@[simp] theorem addRef (h : RowFrame s t) (c : Nat) : RowFrame s (t.addRef c) := h.kept (by simp)
@[simp] theorem dropRef (h : RowFrame s t) (c : Nat) : RowFrame s (t.dropRef c) := h.kept (by simp)
@[simp] theorem removeClip (h : RowFrame s t) (r : ClipRec) (l : List Nat) (j : Option Nat) : RowFrame s (t.removeClip r l j) :=
  h.kept (by simp)
@[simp] theorem fresh (h : RowFrame s t) : RowFrame s t.fresh.2 := h.kept (by simp)
@[simp] theorem push (h : RowFrame s t) (p : PortId) (e : Event) : RowFrame s (t.push p e) := h.kept (by simp)
@[simp] theorem pushAll (h : RowFrame s t) (e : Event) : RowFrame s (t.pushAll e) :=
  ((h.push _ _).push _ _).push _ _
@[simp] theorem answer (h : RowFrame s t) (p : PortId) (st : Status) (l : List Byte) : RowFrame s (answer t p st l) :=
  h.setLink _ _
@[simp] theorem raise (h : RowFrame s t) (i : Nat) (c : Cond) : RowFrame s (raise t i c) := h.kept (by simp)
@[simp] theorem raiseIf (h : RowFrame s t) (b : Bool) (i : Nat) (c : Cond) : RowFrame s (raiseIf b t i c) := h.kept (by simp)
@[simp] theorem rest (h : RowFrame s t) : RowFrame s (rest t) := h.kept (by simp)
@[simp] theorem settle (h : RowFrame s t) : RowFrame s (settle t) := h.kept (by simp)
@[simp] theorem restAfter (h : RowFrame s t) (o : FlashOp) : RowFrame s (restAfter o t) := h.kept (by simp)

/-- Moving the count to a tick of the modulus keeps it below N_CLK. -/
@[simp] theorem advanceTo (h : RowFrame s t) (x : Nat) : RowFrame s (advanceTo t x) := by
  unfold Machine.advanceTo
  split
  · exact h
  · refine h.trans ?_
    constructor
    case count => intro _; exact Nat.mod_lt _ (by decide)
    all_goals simp [State.lane, State.svc, State.box]

theorem foldl {β : Type} {f : State → β → State} (hf : ∀ {s t : State} (b : β), RowFrame s t → RowFrame s (f t b)) (l : List β)
    (h : RowFrame s t) : RowFrame s (l.foldl f t) := by
  induction l generalizing t with
  | nil => exact h
  | cons b r ih => exact ih (hf b h)

end RowFrame

end Sys2Proof.Machine
end

section
/-! `RowFrame` of every row but SLOT, Configure Lane and RESETN's release. -/

namespace Sys2Proof.Machine

variable {s t : State}

/-! ### PACKET_ARRIVAL -/

/-- A PCR leaves the lead window as it is, or empties it (R25, R26). -/
theorem pcrEffect_leads (s : State) (i v : Nat) (d : Bool) :
    (pcrEffect s i v d).1.leads = (s.svc i).clk.leads ∨ (pcrEffect s i v d).1.leads = [] := by
  unfold pcrEffect
  dsimp only
  repeat' split
  all_goals simp

/-- The cue memory holds at most 8 records after a comparison as before it (R38, R39). -/
theorem compareCue_length (m : List CueRec) (c : CueRec) (h : m.length ≤ 8) : (compareCue m c).1.length ≤ 8 := by
  unfold compareCue
  dsimp only
  split
  · exact h
  · split
    · next hs =>
      obtain ⟨x, hx, hq⟩ := List.any_eq_true.mp hs
      have : (m.filter (fun x => !(x.id == c.id && x.kind == c.kind))).length < m.length :=
        List.length_filter_lt_length_iff_exists.mpr ⟨x, hx, by simpa using hq⟩
      simp only [List.length_append, List.length_singleton]
      omega
    · split <;> simp <;> omega

namespace RowFrame

theorem acceptInput (h : RowFrame s t) (k : Nat) : RowFrame s (acceptInput t k) := by
  have hl := h.setLane k (l := { t.lane k with inputPresent := true, inputTimer := some t.localCount }) (by constructor <;> simp)
  unfold Machine.acceptInput
  dsimp only
  split
  · exact hl
  · exact hl.pushAll _

theorem observePcr (h : RowFrame s t) (i : Nat) (b : Pkt) : RowFrame s (observePcr t i b) := by
  unfold Machine.observePcr
  split
  · exact h
  · next base ext hp =>
    split
    · exact h
    · dsimp only
      have hs : RowFrame s (t.modSvc i (fun v => { v with
          clk := (pcrEffect t i (base * 300 + ext) (pktDisc b)).1
          sp := { v.sp with sigmaP := (pcrEffect t i (base * 300 + ext) (pktDisc b)).2.1 } })) := by
        refine h.modSvc i (fun hb => ?_) id
        rcases pcrEffect_leads t i (base * 300 + ext) (pktDisc b) with e | e <;> simp [e, hb]
      split
      · exact hs.kept (by simp)
      · split
        · exact hs.kept (by simp)
        · exact hs

theorem leadSample (h : RowFrame s t) (i pts : Nat) : RowFrame s (leadSample t i pts) := by
  unfold Machine.leadSample
  split
  · exact h
  · next c hc =>
    have hs : RowFrame s (t.modSvc i (fun v => { v with clk := { v.clk with
        leads := (if 32 ≤ (t.svc i).clk.leads.length then (t.svc i).clk.leads.tail else (t.svc i).clk.leads)
          ++ [sdiff nPts pts (c / 300)] } })) := by
      refine h.modSvc i (fun hb => ?_) id
      split <;> simp <;> omega
    dsimp only
    split
    · exact hs.kept (by simp)
    · exact hs

theorem observeComp (h : RowFrame s t) (i j : Nat) (b : Pkt) : RowFrame s (observeComp t i j b) := by
  have h1 : RowFrame s (if (t.svc i).defn.map (·.pcrPid) = some (pktPid b) then Machine.observePcr t i b else t) := by
    split
    · exact h.observePcr i b
    · exact h
  unfold Machine.observeComp
  dsimp only
  split
  · split
    · exact h1.leadSample _ _
    · exact h1
  · exact h1

theorem observePacket (h : RowFrame s t) (i j : Nat) (b : Pkt) : RowFrame s (observePacket t i j b) := by
  have hl : RowFrame s (latchSearches t i) := h.modSp _ _
  unfold Machine.observePacket
  dsimp only
  split
  · exact hl
  · exact (hl.observeComp i j b).modSp _ _

theorem handOverComp (h : RowFrame s t) (i c : Nat) : RowFrame s (handOverComp t i c) := by
  unfold Machine.handOverComp
  split
  · exact h.setLane _ (LaneKept.setPid (LaneKept.refl _) _ _)
  · exact h

theorem networkCut (h : RowFrame s t) (i c : Nat) (n : Inst) (x : Nat) : RowFrame s (networkCut t i c n x) :=
  (((h.modSp _ _).modFlash _).handOverComp _ _).kept (Kept.reportCut (Kept.refl _) _ _ _ _ _)

theorem componentCut (h : RowFrame s t) (i c : Nat) : RowFrame s (componentCut t i c) := (h.modSp _ _).handOverComp _ _

theorem fixReturn (h : RowFrame s t) (i pts : Nat) : RowFrame s (fixReturn t i pts) := by
  unfold Machine.fixReturn
  split
  · exact h.kept (by simp)
  · exact h.kept (by simp)
  · exact h

theorem resumeComp (h : RowFrame s t) (i c : Nat) : RowFrame s (resumeComp t i c) :=
  (h.kept (Kept.beginReturn (Kept.refl t) i)).modSp _ _

theorem decide_ (h : RowFrame s t) (i j : Nat) (pts : Option Nat) : RowFrame s (decide_ t i j pts).1 := by
  unfold Machine.decide_
  extract_lets lead u
  have hu : RowFrame s u := by
    unfold u
    split
    · split
      · exact h.fixReturn _ _
      · exact h
    · exact h
  split
  · exact hu
  · split
    · dsimp only
      exact (hu.resumeComp i j).modSp i _
    · split
      · exact (hu.raiseIf _ _ _).networkCut _ _ _ _
      · split
        · exact (hu.raiseIf _ _ _).componentCut _ _
        · exact hu

theorem enterFifo (h : RowFrame s t) (k : Nat) (b : Pkt) (m : Bool) : RowFrame s (enterFifo t k b m).1 := by
  unfold Machine.enterFifo
  dsimp only
  split
  · next hlt =>
    refine h.setLane k ?_
    constructor
    case fifo => intro _; simp; omega
    all_goals rfl
  · have hl := h.setLane k (l := { t.lane k with overrun := true }) (by constructor <;> simp)
    dsimp only
    split
    · exact hl
    · exact hl.pushAll _

theorem enterComponent (h : RowFrame s t) (k i j : Nat) (b : Pkt) : RowFrame s (enterComponent t k i j b) := by
  unfold Machine.enterComponent
  dsimp only
  split
  · exact (h.enterFifo _ _ _).modSp _ _
  · exact h.enterFifo _ _ _

theorem componentPacket (h : RowFrame s t) (k i j : Nat) (b : Pkt) : RowFrame s (componentPacket t k i j b) := by
  have hd := (h.observePacket i j b).decide_ i j (seenPts b)
  unfold Machine.componentPacket
  dsimp only
  split
  · exact hd.enterComponent _ _ _ _
  · exact hd

theorem outCue (h : RowFrame s t) (i : Nat) (c : CueRec) (f : Byte) : RowFrame s (outCue t i c f) := by
  unfold Machine.outCue
  split
  · exact h
  · refine foldl (fun m hm => ?_) _ ((h.modEntry _ _).kept (Kept.armAndArbitrate (Kept.refl _) _))
    split
    · split
      · exact hm.kept (by simp)
      · exact hm
    · exact hm

theorem inCue (h : RowFrame s t) (i : Nat) (c : CueRec) : RowFrame s (inCue t i c) := by
  unfold Machine.inCue
  repeat' split
  all_goals first | exact h | exact h.kept (by simp)

theorem cancelCue (h : RowFrame s t) (i : Nat) (c : CueRec) : RowFrame s (cancelCue t i c) := by
  have hf : RowFrame s ((boundEntries t i c.id).foldl (fun s e => endEntry s e .cancelled) t) :=
    foldl (fun e he => he.kept (by simp)) _ h
  unfold Machine.cancelCue
  dsimp only
  split
  · exact hf.kept (by simp)
  · exact hf

theorem cuePacket (h : RowFrame s t) (i : Nat) (b : Pkt) : RowFrame s (cuePacket t i b) := by
  unfold Machine.cuePacket
  split
  · split
    · exact h.raise _ _
    · next c f hp =>
      have hm : RowFrame s (t.modSvc i (fun v => { v with cues := (compareCue (t.svc i).cues c).1 })) :=
        h.modSvc i id (fun hb => compareCue_length _ c hb)
      dsimp only
      split
      · split
        · split
          · exact hm
          · exact hm.outCue _ _ _
        · exact hm.inCue _ _
        · exact hm.cancelCue _ _
      · exact hm
  · exact h

theorem classifyPacket (h : RowFrame s t) (k : Nat) (b : Pkt) : RowFrame s (classifyPacket t k b) := by
  unfold Machine.classifyPacket
  dsimp only
  split
  · exact h
  · split
    · next i hi =>
      split
      · exact h.componentPacket _ _ _ _
      · have hc : RowFrame s (if excluded b then t else Machine.cuePacket t i b) := by
          split
          · exact h
          · exact h.cuePacket i b
        unfold cuePidPacket
        dsimp only
        split
        · split
          · exact hc
          · exact hc.enterFifo _ _ _
        · exact hc
    · exact h.enterFifo _ _ _

theorem packetArrival (h : RowFrame s t) (k : Nat) (b : Pkt) : RowFrame s (packetArrival t k b) := by
  unfold Machine.packetArrival
  dsimp only
  split
  · exact h
  · split
    · exact (h.acceptInput k).setLane k (by constructor <;> simp)
    · exact ((h.acceptInput k).classifyPacket k b).rest

theorem inputLost (h : RowFrame s t) (k : Nat) : RowFrame s (inputLost t k) := by
  unfold Machine.inputLost
  dsimp only
  split
  · split
    · exact h
    · refine ((h.advanceTo _).setLane k ?_).pushAll _
      rw [advanceTo_eq]
      constructor <;> simp [State.lane]
  · exact h

theorem pcrLossTimeout (h : RowFrame s t) (i : Nat) : RowFrame s (pcrLossTimeout t i) := by
  unfold Machine.pcrLossTimeout
  split
  · split
    · exact h
    · exact (RowFrame.modSvc (h.advanceTo _) i id id).raise _ _
  · exact h

/-! ### The merger's acts before the slot accumulator goes on -/

theorem dropHead (h : RowFrame s t) (i : Nat) : RowFrame s (dropHead t i) := (h.modSp _ _).raise _ _

theorem lateTests (h : RowFrame s t) (f k i x : Nat) : RowFrame s (lateTests f t k i x) := by
  induction f generalizing t with
  | zero => exact h
  | succ f ih =>
    by_cases hl : ∃ g, considered t k i x = some g ∧ tooLate t k x g = true
    · obtain ⟨g, hg, hlate⟩ := hl
      rw [lateTests_of_late t k i x g hg hlate]
      exact ih (h.dropHead i).settle
    · rw [lateTests_of_none_late t k i x (fun g hg => Bool.eq_false_iff.mpr fun hlate => hl ⟨g, hg, hlate⟩)]
      exact h

theorem handBack (h : RowFrame s t) (k q : Nat) : RowFrame s (handBack t k q) := by
  unfold Machine.handBack
  split
  · exact h
  · split
    · exact h
    · dsimp only
      split
      · split
        · exact ((h.modSp _ _).modSp _ _).raise _ _
        · exact h.modSp _ _
      · exact h.modSp _ _

theorem sendChoice (h : RowFrame s t) (k : Nat) (c : Choice) : RowFrame s (sendChoice t k c) := by
  unfold Machine.sendChoice
  split
  · unfold sendNetwork
    dsimp only
    split
    · exact h
    · next e r hf =>
      have hl : RowFrame s (t.setLane k ({ t.lane k with
          fifo := r, out := some (setCC e.pkt (networkCC (((t.lane k).pid (pktPid e.pkt)).afterNetwork e.resume) e.pkt e.resume).1) }.setPid
            (pktPid e.pkt) (networkCC (((t.lane k).pid (pktPid e.pkt)).afterNetwork e.resume) e.pkt e.resume).2)) := by
        refine h.setLane k (LaneKept.setPid ?_ _ _)
        constructor
        case fifo => intro hb; rw [hf] at hb; simp at hb ⊢; omega
        all_goals rfl
      split
      · exact hl.handBack _ _
      · exact hl
  · unfold sendClip
    split
    · exact h
    · exact (h.setLane k (LaneKept.setPid (by constructor <;> simp) _ _)).modSp _ _
  · exact h.setLane k (by constructor <;> simp)

/-! ### The rows of passing time -/

theorem timeTrigger (h : RowFrame s t) (n : Nat) : RowFrame s (timeTrigger t n) := by
  unfold Machine.timeTrigger
  split
  · exact h
  · split
    · split
      · exact h
      · exact ((h.advanceTo _).kept (Kept.armAndArbitrate (Kept.refl _) _)).rest
    · exact h

theorem searchOverdue (h : RowFrame s t) (i : Nat) : RowFrame s (searchOverdue t i) := by
  unfold Machine.searchOverdue
  split
  · exact h
  · split
    · exact ((h.advanceTo _).modSp _ _).rest
    · exact h

theorem latchReturn (h : RowFrame s t) (i : Nat) : RowFrame s (latchReturn t i) := by
  unfold Machine.latchReturn
  dsimp only
  split
  · exact h
  · exact (h.modSp _ _).raiseIf _ _ _

theorem seekTimerExpiry (h : RowFrame s t) (i : Nat) : RowFrame s (seekTimerExpiry t i) := by
  unfold Machine.seekTimerExpiry
  split
  · exact h
  · split
    · next x hx =>
      have hl : RowFrame s (latchSearches (Machine.advanceTo t x) i) := (h.advanceTo _).modSp _ _
      dsimp only
      split
      · exact (hl.latchReturn i).rest
      · exact hl.rest
    · exact h

theorem returnOverdue (h : RowFrame s t) (i : Nat) : RowFrame s (returnOverdue t i) := by
  unfold Machine.returnOverdue
  dsimp only
  split
  · split
    · exact h
    · split
      · exact ((h.advanceTo _).latchReturn i).rest
      · exact h
  · exact h

theorem alertExpiry (h : RowFrame s t) (r : Nat) : RowFrame s (alertExpiry t r) := by
  unfold Machine.alertExpiry
  dsimp only
  split
  · split
    · exact h
    · exact ((h.advanceTo _).kept (Kept.endAlert (Kept.refl _) _ _ _)).rest
  · exact h

/-! ### The pins and the clock -/

/-- Registers that no clause of `RowFrame` reads may change. -/
theorem of_tables {u : State} (h : RowFrame s t) (hl : u.lanes = t.lanes) (hs : u.services = t.services) (hb : u.boxes = t.boxes)
    (hc : u.localCount = t.localCount) : RowFrame s u :=
  h.trans (by constructor <;> simp [State.lane, State.svc, State.box, hl, hs, hb, hc])

theorem resetnAssert (h : RowFrame s t) : RowFrame s (resetnAssert t) :=
  foldl (fun _ hq => hq.setLink _ _) _ (h.of_tables rfl rfl rfl rfl)

theorem checkRelease (h : RowFrame s t) : RowFrame s (checkRelease t) := by
  unfold Machine.checkRelease
  repeat' split
  all_goals first | exact h | exact (h.modFlash _).push _ _

theorem jobBlock (h : RowFrame s t) (job : Option Nat) (b : Bool) : RowFrame s (jobBlock t job b) := by
  unfold Machine.jobBlock
  dsimp only
  split
  · exact h
  · split
    · exact h.withFlash _
    · split
      · exact (h.withFlash _).push _ _
      · exact h.withFlash _

theorem eraseEnded (h : RowFrame s t) (r : Region) (b : Nat) (e : OpEnd) : RowFrame s (eraseEnded t r b e) := by
  unfold Machine.eraseEnded
  dsimp only
  split
  · exact h
  · exact ((h.withFlash _).jobBlock _ _).checkRelease
  · exact ((h.withFlash _).jobBlock _ _).checkRelease

theorem block0Ended (h : RowFrame s t) (e : OpEnd) : RowFrame s (block0Ended t e) := by
  unfold Machine.block0Ended
  split
  · exact h
  · exact (h.modFlash _).checkRelease
  · exact (h.modFlash _).checkRelease

theorem erased (h : RowFrame s t) (o : FlashOp) (e : OpEnd) : RowFrame s (erased t o e) := by
  unfold Machine.erased
  split
  · exact h.eraseEnded _ _ _
  · exact h.block0Ended _
  · exact h

theorem programEnded (h : RowFrame s t) (o : FlashOp) (k : ProgKind) (e : OpEnd) (b : Bool) : RowFrame s (programEnded t o k e b) :=
  h.kept (by simp)

theorem opOver (h : RowFrame s t) : RowFrame s (opOver t) := h.modFlash _

theorem supplyAbort (h : RowFrame s t) : RowFrame s (supplyAbort t) := by
  unfold Machine.supplyAbort
  split
  · split
    · exact h
    · exact h.opOver.programEnded _ _ _ _
    · exact h.opOver.erased _ _
  · exact h

theorem lowsupplyAssert (h : RowFrame s t) : RowFrame s (lowsupplyAssert t) := by
  unfold Machine.lowsupplyAssert
  split
  · exact h
  · split
    · exact h.of_tables rfl rfl rfl rfl
    · refine RowFrame.rest (RowFrame.supplyAbort (RowFrame.pushAll ?_ _))
      exact h.of_tables rfl rfl rfl rfl

theorem lowsupplyRelease (h : RowFrame s t) : RowFrame s (lowsupplyRelease t) := by
  unfold Machine.lowsupplyRelease
  split
  · exact h
  · split
    · exact h.of_tables rfl rfl rfl rfl
    · refine RowFrame.rest (RowFrame.pushAll ?_ _)
      exact h.of_tables rfl rfl rfl rfl

theorem holdLocked (h : RowFrame s t) (l : List Nat) : RowFrame s (holdLocked l t) := by
  induction l generalizing t with
  | nil => exact h
  | cons i r ih => exact ih (h.raiseIf _ _ _)

theorem refLost (h : RowFrame s t) : RowFrame s (refLost t) := by
  unfold Machine.refLost
  split
  · exact h
  · refine RowFrame.holdLocked (RowFrame.pushAll ?_ _) _
    exact h.of_tables rfl rfl rfl rfl

theorem refRestored (h : RowFrame s t) : RowFrame s (refRestored t) := by
  unfold Machine.refRestored
  split
  · exact h
  · unfold restored
    split
    · refine RowFrame.pushAll ?_ _
      exact h.of_tables rfl rfl rfl rfl
    · exact h.of_tables rfl rfl rfl rfl

theorem restoreCountGap (h : RowFrame s t) : RowFrame s (restoreCountGap t) := by
  unfold Machine.restoreCountGap
  split
  · exact h
  · exact h.of_tables rfl rfl rfl rfl

/-! ### The flash channel's completions -/

theorem scanRead (h : RowFrame s t) (b : Nat) (o : ReadOutcome) (m : Byte) : RowFrame s (scanRead t b o m) := by
  have hc : ∀ {u : State}, RowFrame s u → RowFrame s (scanComplete u) := by
    intro u hu
    refine RowFrame.pushAll (foldl (fun r hr => hr.setClip _ _) _ ?_) _
    exact hu.of_tables rfl rfl rfl rfl
  have hf : RowFrame s (if b = 0 ∧ o = .uncorrectable then t.fresh.2 else t) := by
    split
    · exact h.fresh
    · exact h
  unfold Machine.scanRead
  extract_lets f d f1 u
  split
  · exact hc (hf.withFlash f1)
  · exact hf.withFlash f1

theorem clearPreload (h : RowFrame s t) (j : Nat) : RowFrame s (clearPreload t j) := by
  unfold Machine.clearPreload
  dsimp only
  split
  · exact (h.setPreload _ _).modFlash _
  · exact ((h.setPreload _ _).modFlash _).dropRef _

theorem markDamaged (h : RowFrame s t) (c : Nat) : RowFrame s (markDamaged t c) := h.kept (by simp)

theorem preloadDone (h : RowFrame s t) (o : FlashOp) (j : Nat) (r : ReadOutcome) : RowFrame s (preloadDone t o j r) := by
  unfold Machine.preloadDone
  dsimp only
  split
  · split
    · split
      · exact (h.setPreload _ _).fresh.push _ _
      · exact h.setPreload _ _
    · exact ((h.markDamaged _).clearPreload _).push _ _
  · exact h

theorem checksumDone (h : RowFrame s t) (o : FlashOp) (p : PortId) (r : ReadOutcome) : RowFrame s (checksumDone t o p r) := by
  unfold Machine.checksumDone
  split
  · exact h
  · split
    · split
      · dsimp only
        split
        · exact ((h.setCheck _ _).dropRef _).fresh.push _ _
        · exact h.setCheck _ _
      · exact (((h.markDamaged _).setCheck _ _).dropRef _).fresh.push _ _
    · exact h

theorem readAheadDone (h : RowFrame s t) (o : FlashOp) (i : Nat) (role : Role) (r : ReadOutcome) :
    RowFrame s (readAheadDone t o i role r) := by
  unfold Machine.readAheadDone
  split
  · split
    · exact h.modSp _ _
    · exact ((h.raise _ _).markDamaged _).kept (Kept.instanceFault (Kept.refl _) _ _ _)
  · exact h

theorem readEnded (h : RowFrame s t) (o : FlashOp) (r : ReadOutcome) (m : Byte) : RowFrame s (readEnded t o r m) := by
  unfold Machine.readEnded
  split
  · unfold orphanRead
    split
    · split
      · exact h.markDamaged _
      · exact h
    · exact h
  · split
    · exact h.readAheadDone _ _ _ _
    · exact h.preloadDone _ _ _
    · exact h.checksumDone _ _ _
    · exact h.scanRead _ _ _
    · exact h

theorem pageReadComplete (h : RowFrame s t) (o : ReadOutcome) (m : Byte) : RowFrame s (pageReadComplete t o m) := by
  unfold Machine.pageReadComplete
  split
  · split
    · exact (h.opOver.readEnded _ _ _).restAfter _
    · exact h
  · exact h

theorem programComplete (h : RowFrame s t) (b : Bool) : RowFrame s (programComplete t b) := by
  unfold Machine.programComplete
  split
  · split
    · exact (h.opOver.programEnded _ _ _ _).rest
    · exact h
  · exact h

theorem eraseComplete (h : RowFrame s t) (b : Bool) : RowFrame s (eraseComplete t b) := by
  unfold Machine.eraseComplete
  split
  · split
    · exact (h.opOver.eraseEnded _ _ _).rest
    · exact h
  · exact h

theorem block0EraseComplete (h : RowFrame s t) (b : Bool) : RowFrame s (block0EraseComplete t b) := by
  unfold Machine.block0EraseComplete
  split
  · split
    · exact (h.opOver.block0Ended _).rest
    · exact h
  · exact h

theorem flashOpTimeout (h : RowFrame s t) : RowFrame s (flashOpTimeout t) := by
  unfold Machine.flashOpTimeout
  split
  · next o ho =>
    have ha := h.advanceTo (addMod nClk o.started o.kind.limit)
    refine RowFrame.restAfter ?_ o
    unfold opTimedOut
    split
    · split
      · exact ha.fresh.opOver.readEnded _ _ _
      · exact ha.opOver.readEnded _ _ _
    · exact ha.opOver.programEnded _ _ _ _
    · exact ha.opOver.erased _ _
  · exact h

end RowFrame

end Sys2Proof.Machine
end

section
/-! `RowFrame` of the commands and of the rows of the links; what every row keeps follows from four rows. -/

namespace Sys2Proof.Machine

variable {s t : State}

namespace RowFrame

/-! ### Taking and answering -/

theorem refuseFrame (h : RowFrame s t) (p : PortId) (c : Byte) (st : Status) : RowFrame s (refuseFrame t p c st) := by
  unfold Machine.refuseFrame
  dsimp only
  split <;> exact (h.setLink _ _).setLink _ _

theorem openExchange (h : RowFrame s t) (p : PortId) (c : Nat) : RowFrame s (openExchange t p c) := by
  rw [openExchange_eq]
  exact h.setLink _ _

theorem done {a : Ans} (h : RowFrame s a.s) (p : PortId) : RowFrame s (a.done p) := by
  unfold Ans.done
  split
  · exact h.answer _ _ _
  · exact h

/-- A command keeps what its owning rule keeps. -/
theorem command (h : RowFrame s t) (p : PortId) (c : Nat) {run : State → Ans}
    (hr : ∀ {u}, RowFrame s u → RowFrame s (run u).s) : RowFrame s (command p c t run) := by
  rcases command_cases t p c run with ⟨-, e⟩ | ⟨-, st, -, e⟩ | ⟨-, -, e⟩ <;> rw [e]
  · exact h
  · exact h.refuseFrame _ _ _
  · exact (hr (h.openExchange p c)).done p

/-! ### Commands of every port -/

theorem runIdentify (h : RowFrame s t) (p : PortId) (res : Nat) : RowFrame s (runIdentify p res t).s := by
  unfold Machine.runIdentify
  split <;> exact h

theorem runReadStatus (h : RowFrame s t) (p : PortId) (res : Nat) : RowFrame s (runReadStatus p res t).s := by
  have hc : ∀ {u : State} (k : Nat), RowFrame s u → RowFrame s (clearOverrun u k) := fun k hu =>
    hu.setLane k (by constructor <;> simp)
  unfold Machine.runReadStatus
  split
  · exact h
  · exact hc 3 (hc 2 (hc 1 (hc 0 h)))

theorem runPortRate (h : RowFrame s t) (p : PortId) (r res : Nat) : RowFrame s (runPortRate p r res t).s := by
  unfold Machine.runPortRate
  split
  · exact h
  · exact h.setLink _ _

theorem runReadEvents (h : RowFrame s t) (p : PortId) (n res : Nat) : RowFrame s (runReadEvents p n res t).s := by
  unfold Machine.runReadEvents
  split
  · exact h
  · refine h.setBox p (fun hb => ?_)
    simp
    omega

theorem runWatch (h : RowFrame s t) (p : PortId) (m : BitVec 48) (res : Nat) : RowFrame s (runWatch p m res t).s := by
  unfold Machine.runWatch
  split
  · exact h
  · exact h.setBox p id

/-! ### Services -/

theorem restoreOld (h : RowFrame s t) (i : Nat) : RowFrame s (restoreOld t i) := by
  unfold Machine.restoreOld
  split
  · exact h.setLane _ (LaneKept.restorePids (LaneKept.refl _) _)
  · exact h

theorem removeService (h : RowFrame s t) (a : ServiceArgs) : RowFrame s (removeService a t).s := by
  unfold Machine.removeService
  split
  · exact h
  · split
    · exact h
    · exact ((h.fresh.restoreOld _).setSvc _ (fun _ => Nat.zero_le _) (fun _ => Nat.zero_le _)).rest

theorem runConfigureService (h : RowFrame s t) (a : ServiceArgs) : RowFrame s (runConfigureService a t).s := by
  have hr := h.removeService a
  have hd : ∀ cs, RowFrame s (Machine.rest ((Machine.restoreOld t a.svc).setSvc a.svc
      { Service.reset with defn := some (defOf a cs), sp := SpliceRec.reset cs.length })) := fun cs =>
    ((h.restoreOld _).setSvc _ (fun _ => Nat.zero_le _) (fun _ => Nat.zero_le _)).rest
  unfold Machine.runConfigureService
  dsimp only
  repeat' split
  all_goals first | exact h | exact hr | exact hd _

theorem runSetMasks (h : RowFrame s t) (i : Nat) (m : BitVec 16) (res : Nat) : RowFrame s (runSetMasks i m res t).s := by
  unfold Machine.runSetMasks
  split
  · exact h
  · dsimp only [ok]
    refine h.modSvc i ?_ ?_ <;> exact id

theorem runClearConditions (h : RowFrame s t) (i : Nat) (m : BitVec 16) (res : Nat) :
    RowFrame s (runClearConditions i m res t).s := by
  unfold Machine.runClearConditions
  split
  · exact h
  · dsimp only [ok]
    refine h.modSvc i ?_ ?_ <;> exact id

theorem runReadService (h : RowFrame s t) (i res : Nat) : RowFrame s (runReadService i res t).s := by
  unfold Machine.runReadService
  split <;> exact h

theorem cancelAll (h : RowFrame s t) (i : Nat) : RowFrame s (cancelAll t i) := by
  refine foldl (fun n hn => ?_) _ h
  split
  · exact hn.kept (by simp)
  · exact hn

theorem forcedReset (h : RowFrame s t) (i : Nat) : RowFrame s (forcedReset t i) := by
  unfold Machine.forcedReset
  split
  · exact h
  · exact RowFrame.modSvc (h.setLane _ (LaneKept.restorePids (LaneKept.refl _) _)) i (fun _ => Nat.zero_le _)
      (fun _ => Nat.zero_le _)

theorem forcedClear (h : RowFrame s t) (i : Nat) : RowFrame s (forcedClear t i) := by
  have hs : RowFrame s (stopSplice t i) :=
    (h.kept (Kept.discardRole (Kept.discardRole (Kept.refl t) i .current) i .next)).modSp _ _
  unfold Machine.forcedClear
  extract_lets s1 s2 s3 s4 s5
  have h2 : RowFrame s s2 := by
    unfold s2
    split
    · exact hs.kept (Kept.testRecord (Kept.leaveHeld (Kept.refl _) _ _ _) _)
    · exact hs
  have h4 : RowFrame s s4 := by
    unfold s4
    split
    · exact (h2.cancelAll i).kept (Kept.poolFreed (Kept.refl _) _)
    · exact h2.cancelAll i
  split
  · exact (h4.forcedReset i).kept (Kept.passOn (Kept.refl _) _)
  · exact h4.forcedReset i

theorem runClearService (h : RowFrame s t) (p : PortId) (i f res : Nat) : RowFrame s (runClearService p i f res t).s := by
  have hp : RowFrame s (plainClear t i) := h.modSvc i (fun _ => Nat.zero_le _) (fun _ => Nat.zero_le _)
  have hf : RowFrame s (Machine.rest (Machine.forcedClear t i)) := (h.forcedClear i).rest
  unfold Machine.runClearService
  dsimp only
  repeat' split
  all_goals first | exact h | exact hp | exact hf

/-! ### The schedule -/

theorem runAddEntry (h : RowFrame s t) (p : PortId) (a : EntryArgs) : RowFrame s (runAddEntry p a t).s := by
  have hn : ∀ n, RowFrame s (Machine.rest (applyTrigger (((a.pod.take a.podCount).foldl State.addRef t).setEntry n
      (some (newEntry p a n))) n)) := by
    intro n
    have hs : RowFrame s (((a.pod.take a.podCount).foldl State.addRef t).setEntry n (some (newEntry p a n))) :=
      (foldl (fun c hc => hc.addRef c) _ h).setEntry _ _
    refine RowFrame.rest ?_
    unfold applyTrigger
    repeat' split
    all_goals first | exact hs | exact hs.kept (by simp)
  unfold Machine.runAddEntry
  dsimp only
  repeat' split
  all_goals first | exact h | exact hn _

theorem cancelActive (h : RowFrame s t) (e : Entry) : RowFrame s (cancelActive t e) := by
  have hs : ∀ x, RowFrame s (t.setEntry e.num x) := fun x => h.setEntry _ _
  unfold Machine.cancelActive
  dsimp only
  repeat' split
  all_goals first | exact h | exact hs _ | exact (hs _).kept (Kept.setE (Kept.refl _) _ _) |
    exact ((hs _).setEntry _ _).kept (Kept.awaitLead (Kept.refl _) _ _)

theorem runCancelEntry (h : RowFrame s t) (p : PortId) (n res : Nat) : RowFrame s (runCancelEntry p n res t).s := by
  unfold Machine.runCancelEntry
  split
  · exact h
  · split
    · exact h
    · split
      · exact h
      · refine RowFrame.rest ?_
        split
        · exact h.cancelActive _
        · exact h.kept (by simp)

theorem runReadEntry (h : RowFrame s t) (n res : Nat) : RowFrame s (runReadEntry n res t).s := by
  unfold Machine.runReadEntry
  repeat' split
  all_goals exact h

/-! ### Ingest and clips -/

theorem endIngest (h : RowFrame s t) (p : PortId) (b : Option Nat) : RowFrame s (endIngest t p b) := h.kept (by simp)

theorem runIngestOpen (h : RowFrame s t) (p : PortId) (a : IngestArgs) : RowFrame s (runIngestOpen p a t).s := by
  have ho : ∀ cs, RowFrame s (Machine.rest (openIngest t p a cs)) := fun cs =>
    (((h.modFlash _).setClip _ _).setIngest _ _).rest
  unfold Machine.runIngestOpen
  repeat' split
  all_goals first | exact h | exact ho _

theorem runIngestData (h : RowFrame s t) (p : PortId) (d : List Byte) : RowFrame s (runIngestData p d t).s := by
  have hs : ∀ g, RowFrame s (t.setIngest p g) := fun g => h.setIngest _ _
  unfold Machine.runIngestData takeData
  dsimp only
  repeat' split
  all_goals first | exact h | exact hs _ | exact (hs _).rest | exact (h.endIngest _ _).rest

theorem runIngestClose (h : RowFrame s t) (p : PortId) (c d res : Nat) : RowFrame s (runIngestClose p c d res t).s := by
  unfold Machine.runIngestClose closeIngest
  dsimp only
  repeat' split
  all_goals first | exact h | exact (h.setIngest _ _).rest | exact (h.endIngest _ _).rest

theorem runIngestAbort (h : RowFrame s t) (p : PortId) (res : Nat) : RowFrame s (runIngestAbort p res t).s := by
  unfold Machine.runIngestAbort
  repeat' split
  all_goals first | exact h | exact h.setIngest _ _ | exact (h.endIngest _ _).rest

theorem runClipErase (h : RowFrame s t) (p : PortId) (c res : Nat) : RowFrame s (runClipErase p c res t).s := by
  have he : ∀ r, RowFrame s (Machine.rest (eraseClip t p r)) := by
    intro r
    unfold eraseClip
    exact ((h.removeClip _ _ _).modFlash _).rest
  unfold Machine.runClipErase
  repeat' split
  all_goals first | exact h | exact he _

theorem runClipChecksum (h : RowFrame s t) (p : PortId) (c res : Nat) : RowFrame s (runClipChecksum p c res t).s := by
  unfold Machine.runClipChecksum
  repeat' split
  all_goals first | exact h | exact ((h.addRef _).setCheck _ _).rest

theorem runListDirectory (h : RowFrame s t) (c res : Nat) : RowFrame s (runListDirectory c res t).s := by
  unfold Machine.runListDirectory
  split
  · exact h
  · exact h.fresh

theorem runReadClip (h : RowFrame s t) (c res : Nat) : RowFrame s (runReadClip c res t).s := by
  unfold Machine.runReadClip
  repeat' split
  all_goals first | exact h | exact h.fresh

/-! ### Alerts and protection -/

theorem setPreloadClip (h : RowFrame s t) (j : Nat) (c : Option Nat) : RowFrame s (setPreloadClip t j c) := by
  unfold Machine.setPreloadClip
  dsimp only
  repeat' split
  all_goals first | exact h | exact h.clearPreload _ | exact ((h.clearPreload _).setPreload _ _).addRef _

theorem runAlertPreload (h : RowFrame s t) (j n c res : Nat) : RowFrame s (runAlertPreload j n c res t).s := by
  have hp : ∀ x, RowFrame s (Machine.rest (Machine.setPreloadClip t j x)) := fun x => (h.setPreloadClip j x).rest
  unfold Machine.runAlertPreload
  dsimp only
  repeat' split
  all_goals first | exact h | exact hp _

theorem activateAlert (h : RowFrame s t) (r : Nat) (a : AlertArgs) : RowFrame s (activateAlert t r a) := by
  refine foldl (fun i hi => ?_) _ ((h.addRef _).setAlert _ _)
  unfold placeTarget
  dsimp only
  split
  · exact hi.kept (by simp)
  · exact hi.modAlert _ _

theorem runAlertActivate (h : RowFrame s t) (a : AlertArgs) : RowFrame s (runAlertActivate a t).s := by
  have ha : ∀ r, RowFrame s (Machine.rest (Machine.activateAlert t r a)) := fun r => (h.activateAlert r a).rest
  unfold Machine.runAlertActivate
  dsimp only
  repeat' split
  all_goals first | exact h | exact ha _

theorem runAlertCancel (h : RowFrame s t) (id res : Nat) : RowFrame s (runAlertCancel id res t).s := by
  unfold Machine.runAlertCancel
  dsimp only
  repeat' split
  all_goals first | exact h | exact (h.kept (Kept.endAlert (Kept.refl _) _ _ _)).rest

theorem runProtectionSet (h : RowFrame s t) (l : BitVec 8) (res : Nat) : RowFrame s (runProtectionSet l res t).s := by
  unfold Machine.runProtectionSet
  dsimp only
  repeat' split
  all_goals first | exact h | exact (h.modFlash _).rest

theorem runProtectionRelease (h : RowFrame s t) (res : Nat) : RowFrame s (runProtectionRelease res t).s := by
  have hr : RowFrame s (Machine.rest (startRelease t)) := by
    unfold startRelease
    exact (RowFrame.modFlash (foldl (fun r hr => hr.removeClip _ _ _) _ h) _).rest
  unfold Machine.runProtectionRelease
  dsimp only
  repeat' split
  all_goals first | exact h | exact hr

theorem runReadProtection (h : RowFrame s t) (res : Nat) : RowFrame s (runReadProtection res t).s := by
  unfold Machine.runReadProtection
  dsimp only
  split <;> exact h

/-! ### The rows of the links -/

/-- Every command but Configure Lane. -/
theorem runTaken (h : RowFrame s t) (c : Instr) (hc : ∀ p a, c ≠ .configureLane p a) : RowFrame s (runTaken c t).s := by
  cases c
  case configureLane p a => exact absurd rfl (hc p a)
  case identify => exact h.runIdentify _ _
  case readStatus => exact h.runReadStatus _ _
  case portRate => exact h.runPortRate _ _ _
  case readEvents => exact h.runReadEvents _ _ _
  case watch => exact h.runWatch _ _ _
  case configureService => exact h.runConfigureService _
  case setMasks => exact h.runSetMasks _ _ _
  case clearConditions => exact h.runClearConditions _ _ _
  case readService => exact h.runReadService _ _
  case clearService => exact h.runClearService _ _ _ _
  case addEntry => exact h.runAddEntry _ _
  case cancelEntry => exact h.runCancelEntry _ _ _
  case readEntry => exact h.runReadEntry _ _
  case ingestOpen => exact h.runIngestOpen _ _
  case ingestData => exact h.runIngestData _ _
  case ingestClose => exact h.runIngestClose _ _ _ _
  case ingestAbort => exact h.runIngestAbort _ _
  case clipErase => exact h.runClipErase _ _ _
  case clipChecksum => exact h.runClipChecksum _ _ _
  case listDirectory => exact h.runListDirectory _ _
  case readClip => exact h.runReadClip _ _
  case alertPreload => exact h.runAlertPreload _ _ _ _
  case alertActivate => exact h.runAlertActivate _
  case alertCancel => exact h.runAlertCancel _ _
  case protectionSet => exact h.runProtectionSet _ _
  case protectionRelease => exact h.runProtectionRelease _
  case readProtection => exact h.runReadProtection _
  all_goals exact h

theorem toHunt (h : RowFrame s t) (p : PortId) : RowFrame s (toHunt t p) := h.setLink _ _

theorem frameGap (h : RowFrame s t) (p : PortId) : RowFrame s (frameGap t p) := by
  unfold Machine.frameGap
  dsimp only
  split
  · exact h
  · exact (h.advanceTo _).toHunt _

theorem framingError (h : RowFrame s t) (p : PortId) : RowFrame s (framingError t p) := by
  unfold Machine.framingError
  split
  · exact h
  · exact h.toHunt _

theorem frameRefused (h : RowFrame s t) (p : PortId) (b : List Byte) (c : Byte) : RowFrame s (frameRefused t p b c) := by
  unfold Machine.frameRefused
  repeat' split
  all_goals first | exact h | exact h.refuseFrame _ _ _

theorem replySent (h : RowFrame s t) (p : PortId) : RowFrame s (replySent t p) := by
  unfold Machine.replySent
  split
  · exact h
  · exact h.setLink _ _

end RowFrame

/-- Every row but Configure Lane, bytes that may carry it, SLOT and RESETN's release. -/
theorem exec_rowFrame {c : Instr} (hl : ∀ p a, c ≠ .configureLane p a) (hb : ∀ p b, c ≠ .receiveByte p b) (hs : ∀ k, c ≠ .slot k)
    (hr : c ≠ .resetnRelease) (h : exec c s = .next t) : RowFrame s t := by
  have f := RowFrame.refl s
  cases c <;> cases h
  case configureLane p a => exact absurd rfl (hl p a)
  case receiveByte p b => exact absurd rfl (hb p b)
  case slot k => exact absurd rfl (hs k)
  case resetnRelease => exact absurd rfl hr
  case resetnAssert => exact f.resetnAssert
  case lowsupplyAssert => exact f.lowsupplyAssert
  case lowsupplyRelease => exact f.lowsupplyRelease
  case refLost => exact f.refLost
  case refRestored => exact f.refRestored
  case restoreCountGap => exact f.restoreCountGap
  case packetArrival => exact f.packetArrival _ _
  case inputLost => exact f.inputLost _
  case pcrLossTimeout => exact f.pcrLossTimeout _
  case timeTrigger => exact f.timeTrigger _
  case searchOverdue => exact f.searchOverdue _
  case seekTimerExpiry => exact f.seekTimerExpiry _
  case returnOverdue => exact f.returnOverdue _
  case alertExpiry => exact f.alertExpiry _
  case pageReadComplete => exact f.pageReadComplete _ _
  case programComplete => exact f.programComplete _
  case eraseComplete => exact f.eraseComplete _
  case block0EraseComplete => exact f.block0EraseComplete _
  case flashOpTimeout => exact f.flashOpTimeout
  case frameRefused => exact f.frameRefused _ _ _
  case frameGap => exact f.frameGap _
  case framingError => exact f.framingError _
  case replySent => exact f.replySent _
  case identify => exact f.command _ _ fun h => h.runIdentify _ _
  case readStatus => exact f.command _ _ fun h => h.runReadStatus _ _
  case portRate => exact f.command _ _ fun h => h.runPortRate _ _ _
  case readEvents => exact f.command _ _ fun h => h.runReadEvents _ _ _
  case watch => exact f.command _ _ fun h => h.runWatch _ _ _
  case configureService => exact f.command _ _ fun h => h.runConfigureService _
  case setMasks => exact f.command _ _ fun h => h.runSetMasks _ _ _
  case clearConditions => exact f.command _ _ fun h => h.runClearConditions _ _ _
  case readService => exact f.command _ _ fun h => h.runReadService _ _
  case clearService => exact f.command _ _ fun h => h.runClearService _ _ _ _
  case addEntry => exact f.command _ _ fun h => h.runAddEntry _ _
  case cancelEntry => exact f.command _ _ fun h => h.runCancelEntry _ _ _
  case readEntry => exact f.command _ _ fun h => h.runReadEntry _ _
  case ingestOpen => exact f.command _ _ fun h => h.runIngestOpen _ _
  case ingestData => exact f.command _ _ fun h => h.runIngestData _ _
  case ingestClose => exact f.command _ _ fun h => h.runIngestClose _ _ _ _
  case ingestAbort => exact f.command _ _ fun h => h.runIngestAbort _ _
  case clipErase => exact f.command _ _ fun h => h.runClipErase _ _ _
  case clipChecksum => exact f.command _ _ fun h => h.runClipChecksum _ _ _
  case listDirectory => exact f.command _ _ fun h => h.runListDirectory _ _
  case readClip => exact f.command _ _ fun h => h.runReadClip _ _
  case alertPreload => exact f.command _ _ fun h => h.runAlertPreload _ _ _ _
  case alertActivate => exact f.command _ _ fun h => h.runAlertActivate _
  case alertCancel => exact f.command _ _ fun h => h.runAlertCancel _ _
  case protectionSet => exact f.command _ _ fun h => h.runProtectionSet _ _
  case protectionRelease => exact f.command _ _ fun h => h.runProtectionRelease _
  case readProtection => exact f.command _ _ fun h => h.runReadProtection _

end Sys2Proof.Machine
end

section
/-! The rows that move a lane's slot registers, and what every step keeps (R12, R13, R30, R38, R193). -/

namespace Sys2Proof.Machine

variable {s t : State}

/-! ### Steps -/

/-- The cycle of the clock moves the local count and the monitor's registers only. -/
theorem clockCycle_rowFrame (s : State) : RowFrame s (clockCycle s) := by
  have he : RowFrame s (edgeReturns s) := by
    unfold edgeReturns
    split
    · exact RowFrame.refl s
    · exact RowFrame.of_tables (RowFrame.refl s) rfl rfl rfl rfl
  have hc : ∀ {u : State}, RowFrame s u → RowFrame s u.countOne := by
    intro u hu
    refine hu.trans ?_
    constructor
    case count => intro _; exact Nat.mod_lt _ (by decide)
    all_goals simp [State.countOne, State.lane, State.svc, State.box]
  unfold clockCycle
  dsimp only
  repeat' split
  all_goals first | exact (hc he).of_tables rfl rfl rfl rfl | exact he.of_tables rfl rfl rfl rfl

/-- What bytes of a frame can do: what `RowFrame` allows, or a Configure Lane taken. -/
theorem receiveByte_cases (s : State) (p : PortId) (b : Byte) : RowFrame s (receiveByte s p b)
    ∨ ∃ a u, RowFrame s u ∧ receiveByte s p b = (runConfigureLane a u).done p := by
  have f := RowFrame.refl s
  unfold receiveByte
  dsimp only
  split
  · exact .inl f
  · split
    · unfold completeFrame
      dsimp only
      split
      · exact .inl (f.refuseFrame _ _ _)
      · split
        · next c hc =>
          by_cases hl : ∃ q a, c = .configureLane q a
          · obtain ⟨q, a, rfl⟩ := hl
            exact .inr ⟨a, _, f.openExchange _ _, rfl⟩
          · exact .inl (((f.openExchange _ _).runTaken c fun q a e => hl ⟨q, a, e⟩).done p)
        · exact .inl f
    · exact .inl (f.setLink _ _)

/-- What SLOT, Configure Lane, RESETN's release and all that `RowFrame` allows keep, every row keeps. -/
theorem exec_keeps {P : State → Prop} (hf : ∀ {s t}, P s → RowFrame s t → P t) (hslot : ∀ {s} k, P s → P (slot s k))
    (hlane : ∀ {s} a, P s → P (runConfigureLane a s).s) (hreset : ∀ s, P (resetnRelease s)) (s : State) (c : Instr) (t : State)
    (hs : P s) (h : exec c s = .next t) : P t := by
  by_cases hl : ∃ p a, c = .configureLane p a
  · obtain ⟨p, a, rfl⟩ := hl
    cases h
    rcases command_cases s p 0x10 (runConfigureLane a) with ⟨-, e⟩ | ⟨-, st, -, e⟩ | ⟨-, -, e⟩ <;> rw [e]
    · exact hs
    · exact hf hs (RowFrame.refuseFrame (RowFrame.refl s) _ _ _)
    · exact hf (hlane a (hf hs (RowFrame.openExchange (RowFrame.refl s) p 0x10))) (RowFrame.done (RowFrame.refl _) p)
  by_cases hb : ∃ p b, c = .receiveByte p b
  · obtain ⟨p, b, rfl⟩ := hb
    cases h
    rcases receiveByte_cases s p b with e | ⟨a, u, hu, e⟩
    · exact hf hs e
    · rw [e]
      exact hf (hlane a (hf hs hu)) (RowFrame.done (RowFrame.refl _) p)
  by_cases hk : ∃ k, c = .slot k
  · obtain ⟨k, rfl⟩ := hk
    cases h
    exact hslot _ hs
  by_cases hr : c = .resetnRelease
  · subst hr
    cases h
    exact hreset s
  · exact hf hs (exec_rowFrame (fun p a e => hl ⟨p, a, e⟩) (fun p b e => hb ⟨p, b, e⟩) (fun k e => hk ⟨k, e⟩) hr h)

/-- What every row and `RowFrame` keep, a step keeps. -/
theorem step_keeps {P : State → Prop} (hf : ∀ {s t}, P s → RowFrame s t → P t)
    (he : ∀ s c t, P s → exec c s = .next t → P t) (hs : P s) (h : step s = .next t) : P t := by
  rcases step_cases s h with ⟨d, r, -, hd⟩ | ⟨-, rfl⟩
  · exact he { s with pending := r } d t (hf hs (RowFrame.of_tables (RowFrame.refl s) rfl rfl rfl rfl)) hd
  · exact tick_keeps s (hf hs (clockCycle_rowFrame s)) he hs

/-! ### The slot and the settings -/

/-- All that a slot does before the accumulator goes on leaves the lanes as `RowFrame` says. -/
theorem slot_cases (s : State) (k : Nat) : slot s k = s ∨ (s.lane k).mode = .running
    ∧ ∃ u, RowFrame s u ∧ slot s k = rest (u.setLane k (u.lane k).nextSlot) := by
  unfold slot
  dsimp only
  split
  · exact .inl rfl
  · next h =>
    have hm : (s.lane k).mode = .running := by
      cases hl : (s.lane k).mode
      · simp [hl] at h
      · rfl
    refine .inr ⟨hm, _, ?_, rfl⟩
    exact (RowFrame.foldl (fun i hi => hi.lateTests _ _ _ _) _ ((RowFrame.refl s).advanceTo _)).sendChoice _ _

/-- What an accepted Configure Lane does to the state (R2 to R5). -/
theorem runConfigureLane_cases (a : LaneArgs) (s : State) : (runConfigureLane a s).s = s
    ∨ (runConfigureLane a s).s = rest (startLane s a.lane (settingsOf a))
    ∨ (runConfigureLane a s).s = rest (stopLane s a.lane (settingsOf a))
    ∨ (s.lane a.lane).mode = .running ∧ (runConfigureLane a s).s = rest (adjustLane s a.lane (settingsOf a)) := by
  unfold runConfigureLane
  split
  · exact .inl rfl
  · split
    · exact .inl rfl
    · dsimp only
      split
      · split
        · exact .inl rfl
        · exact .inr (.inl rfl)
      · next hm =>
        split
        · exact .inr (.inr (.inl rfl))
        · exact .inr (.inr (.inr ⟨hm, rfl⟩))

/-- Starting a lane: the new lane, and then changes that `RowFrame` allows. -/
theorem startLane_rowFrame (s : State) (k : Nat) (c : LaneSettings) : RowFrame
    (s.setLane k { s.lane k with mode := .running, cfg := c, fifo := [], pids := [], base := s.localCount, slotNo := 0, slotRem := 0,
                                 slotTime := s.localCount }) (startLane s k c) := by
  unfold startLane
  refine RowFrame.kept (RowFrame.foldl (fun i hi => ?_) _ (RowFrame.refl _)) (Kept.poolFreed (Kept.refl _) _)
  refine RowFrame.modSvc hi i (fun _ => Nat.zero_le _) id

/-- Stopping a lane: the lane in BYPASS, and then changes that `RowFrame` allows. -/
theorem stopLane_rowFrame (s : State) (k : Nat) (c : LaneSettings) : RowFrame
    (s.setLane k { s.lane k with mode := .bypass, cfg := c, fifo := [], pids := [], base := 0, slotNo := 0, slotRem := 0, slotTime := 0 })
    (stopLane s k c) := by
  unfold stopLane
  refine RowFrame.foldl (fun i hi => ?_) _ (RowFrame.refl _)
  exact RowFrame.modSvc (hi.cancelAll i) i (fun _ => Nat.zero_le _) (fun _ => Nat.zero_le _)

theorem RowFrame.fireDue (h : RowFrame s t) (i : Nat) : RowFrame s (fireDue t i) := h.kept (by simp)

/-- The lane that an adjustment makes (R4). -/
def Lane.adjusted (l : Lane) (c : LaneSettings) (now : Nat) : Lane :=
  if l.cfg.rOut = c.rOut then { l with cfg := c }
  else { l with cfg := c, base := firstSlotFrom l now, slotNo := 0, slotRem := 0, slotTime := firstSlotFrom l now }

/-- Adjusting a lane: the adjusted lane, and then changes that `RowFrame` allows. -/
theorem adjustLane_cases (s : State) (k : Nat) (c : LaneSettings) : adjustLane s k c = s
    ∨ RowFrame (s.setLane k ((s.lane k).adjusted c s.localCount)) (adjustLane s k c) := by
  unfold adjustLane
  dsimp only
  split
  · exact .inl rfl
  · refine .inr ?_
    have hp : RowFrame (s.setLane k ((s.lane k).adjusted c s.localCount))
        (poolFreed (s.setLane k ((s.lane k).adjusted c s.localCount)) k) := .of_kept (by simp)
    split
    · exact hp
    · exact RowFrame.foldl (fun i hi => hi.fireDue i) _ hp

/-! ### The capacities (R12, R30, R38, R193) -/

namespace Capacities

theorem of_rowFrame (h : Capacities s) (f : RowFrame s t) : Capacities t where
  fifo k := (f.lane k).fifo (h.fifo k)
  leads i := f.leads i (h.leads i)
  cues i := f.cues i (h.cues i)
  queues := f.queues h.queues

theorem setLane (h : Capacities s) (k : Nat) {l : Lane} (hl : l.fifo.length ≤ 16384) : Capacities (s.setLane k l) := by
  constructor
  case fifo =>
    intro j
    rw [State.lane_setLane]
    split
    · exact hl
    · exact h.fifo j
  case leads => simpa using h.leads
  case cues => simpa using h.cues
  case queues => simpa using h.queues

theorem slot (h : Capacities s) (k : Nat) : Capacities (slot s k) := by
  rcases slot_cases s k with e | ⟨-, u, hu, e⟩ <;> rw [e]
  · exact h
  · exact ((h.of_rowFrame hu).setLane k (l := (u.lane k).nextSlot) ((h.of_rowFrame hu).fifo k)).of_rowFrame ((RowFrame.refl _).rest)

theorem runConfigureLane (h : Capacities s) (a : LaneArgs) : Capacities (runConfigureLane a s).s := by
  rcases runConfigureLane_cases a s with e | e | e | ⟨-, e⟩ <;> rw [e]
  · exact h
  · exact (h.setLane _ (Nat.zero_le _)).of_rowFrame (startLane_rowFrame s _ _).rest
  · exact (h.setLane _ (Nat.zero_le _)).of_rowFrame (stopLane_rowFrame s _ _).rest
  · rcases adjustLane_cases s a.lane (settingsOf a) with e | f
    · rw [e]
      exact h.of_rowFrame ((RowFrame.refl s).rest)
    · refine (h.setLane _ ?_).of_rowFrame f.rest
      unfold Lane.adjusted
      split <;> exact h.fifo _

theorem resetnRelease (s : State) : Capacities (resetnRelease s) := by
  unfold Machine.resetnRelease
  dsimp only
  refine of_rowFrame (s := State.afterReset) ⟨?_, ?_, ?_, ?_⟩ ?_
  any_goals exact fun _ => Nat.zero_le _
  refine RowFrame.rest ?_
  split
  · refine RowFrame.pushAll ?_ _
    exact RowFrame.of_tables (RowFrame.refl _) rfl rfl rfl rfl
  · exact RowFrame.of_tables (RowFrame.refl _) rfl rfl rfl rfl

end Capacities

/-- Settles O2: every row but four keeps the capacities by `RowFrame`, and those four do by their own acts. -/
theorem capacitiesKeptByEveryStep : Obligations.CapacitiesKeptByEveryStep := fun _ _ hs h =>
  step_keeps (P := Capacities) Capacities.of_rowFrame
    (exec_keeps Capacities.of_rowFrame (fun k h => h.slot k) (fun a h => h.runConfigureLane a) Capacities.resetnRelease) hs h

/-! ### The slot times (R13) -/

/-- The slot accumulator of a lane is exact: the clause of `SlotTimes` for one lane. -/
def Lane.exact (l : Lane) : Prop := l.mode = .running →
  l.slotTime = (l.base + l.slotNo * 27000000 / l.cfg.rOut) % nClk ∧ l.slotRem = l.slotNo * 27000000 % l.cfg.rOut

theorem slotTimes_iff (s : State) : SlotTimes s ↔ s.localCount < nClk ∧ ∀ k, (s.lane k).exact :=
  ⟨fun h => ⟨h.count, fun k hm => ⟨h.time k hm, h.rem k hm⟩⟩,
    fun h => ⟨h.1, fun k hm => (h.2 k hm).1, fun k hm => (h.2 k hm).2⟩⟩

theorem LaneKept.exact {l m : Lane} (h : LaneKept l m) (hl : l.exact) : m.exact := by
  unfold Lane.exact
  rw [h.mode, h.cfg, h.base, h.slotNo, h.slotRem, h.slotTime]
  exact hl

/-- The accumulator goes from slot n to slot n + 1 without error: quotient and remainder carry (R13). -/
theorem Lane.exact.nextSlot {l : Lane} (h : l.exact) : l.nextSlot.exact := by
  intro hm
  obtain ⟨ht, hr⟩ := h hm
  have hd : (l.slotNo + 1) * 27000000 = l.cfg.rOut * (l.slotNo * 27000000 / l.cfg.rOut) + (l.slotRem + 27000000) := by
    have := Nat.div_add_mod (l.slotNo * 27000000) l.cfg.rOut
    omega
  constructor
  · show (l.slotTime + (l.slotRem + 27000000) / l.cfg.rOut) % nClk = (l.base + (l.slotNo + 1) * 27000000 / l.cfg.rOut) % nClk
    rw [ht, Nat.mod_add_mod, hd]
    rcases Nat.eq_zero_or_pos l.cfg.rOut with h0 | hp
    · simp [h0]
    · rw [Nat.mul_add_div hp, Nat.add_assoc]
  · show (l.slotRem + 27000000) % l.cfg.rOut = (l.slotNo + 1) * 27000000 % l.cfg.rOut
    rw [hd, Nat.mul_add_mod]

/-- The first slot from now on is a tick of the modulus. -/
theorem firstSlotFrom_lt {l : Lane} (h : l.slotTime < nClk) (now : Nat) : firstSlotFrom l now < nClk := by
  unfold firstSlotFrom
  split
  · exact h
  · exact Nat.mod_lt _ (by decide)

/-- A lane at slot 0 of a sequence that starts at a tick of the modulus is exact. -/
theorem Lane.exact_of_start {l : Lane} (ht : l.slotTime < nClk) (hb : l.base = l.slotTime) (hn : l.slotNo = 0) (hr : l.slotRem = 0) :
    l.exact := fun _ => by simp [hb, hn, hr, Nat.mod_eq_of_lt ht]

theorem Lane.exact.adjusted {l : Lane} (h : l.exact) (hm : l.mode = .running) (c : LaneSettings) (now : Nat) : (l.adjusted c now).exact := by
  unfold Lane.adjusted
  split
  · next hr => exact fun hm => by simpa [hr] using h hm
  · have ht : l.slotTime < nClk := by
      rw [(h hm).1]
      exact Nat.mod_lt _ (by decide)
    exact Lane.exact_of_start (firstSlotFrom_lt ht now) rfl rfl rfl

namespace SlotTimes

theorem of_rowFrame (h : SlotTimes s) (f : RowFrame s t) : SlotTimes t :=
  have ⟨hc, hl⟩ := (slotTimes_iff s).mp h
  (slotTimes_iff t).mpr ⟨f.count hc, fun k => (f.lane k).exact (hl k)⟩

theorem exact (h : SlotTimes s) (k : Nat) : (s.lane k).exact := ((slotTimes_iff s).mp h).2 k

theorem setLane (h : SlotTimes s) (k : Nat) {l : Lane} (hl : l.exact) : SlotTimes (s.setLane k l) := by
  refine (slotTimes_iff _).mpr ⟨h.count, fun j => ?_⟩
  rw [State.lane_setLane]
  split
  · exact hl
  · exact h.exact j

theorem slot (h : SlotTimes s) (k : Nat) : SlotTimes (slot s k) := by
  rcases slot_cases s k with e | ⟨-, u, hu, e⟩ <;> rw [e]
  · exact h
  · exact ((h.of_rowFrame hu).setLane k ((h.of_rowFrame hu).exact k).nextSlot).of_rowFrame ((RowFrame.refl _).rest)

theorem runConfigureLane (h : SlotTimes s) (a : LaneArgs) : SlotTimes (runConfigureLane a s).s := by
  rcases runConfigureLane_cases a s with e | e | e | ⟨hm, e⟩ <;> rw [e]
  · exact h
  · exact (h.setLane _ (Lane.exact_of_start h.count rfl rfl rfl)).of_rowFrame (startLane_rowFrame s _ _).rest
  · exact (h.setLane _ (fun hm => by cases hm)).of_rowFrame (stopLane_rowFrame s _ _).rest
  · rcases adjustLane_cases s a.lane (settingsOf a) with e | f
    · rw [e]
      exact h.of_rowFrame ((RowFrame.refl s).rest)
    · exact (h.setLane _ ((h.exact _).adjusted hm _ _)).of_rowFrame f.rest

theorem resetnRelease (s : State) : SlotTimes (resetnRelease s) := by
  have h0 : SlotTimes State.afterReset := ⟨by decide, nofun, nofun⟩
  unfold Machine.resetnRelease
  dsimp only
  refine h0.of_rowFrame (RowFrame.rest ?_)
  split
  · refine RowFrame.pushAll ?_ _
    exact RowFrame.of_tables (RowFrame.refl _) rfl rfl rfl rfl
  · exact RowFrame.of_tables (RowFrame.refl _) rfl rfl rfl rfl

end SlotTimes

/-- Settles O3: the slot accumulator is exact from slot to slot, and every sequence starts at a tick of the modulus. -/
theorem slotTimesStayExact : Obligations.SlotTimesStayExact := fun _ _ hs h =>
  step_keeps (P := SlotTimes) SlotTimes.of_rowFrame
    (exec_keeps SlotTimes.of_rowFrame (fun k h => h.slot k) (fun a h => h.runConfigureLane a) SlotTimes.resetnRelease) hs h

end Sys2Proof.Machine
end

section
/-! What lanes, services and ports hold after reset, and the invariants there. -/

namespace Sys2Proof.Machine

theorem reset_entry (n : Nat) : State.reset.entry n = none := rfl
theorem reset_alert (r : Nat) : State.reset.alert r = AlertRec.idle := rfl
theorem reset_clip (c : Nat) : State.reset.clip c = none := rfl
theorem reset_sp (i : Nat) : State.reset.sp i = SpliceRec.reset 0 := rfl

/-- The operation in flight after reset is the scan's read of block 0 (R131, R138). -/
theorem reset_op (o : FlashOp) (h : State.reset.flash.op = some o) : o.req = .scan ∧ o.kind = .read := by
  cases h
  exact ⟨rfl, rfl⟩

/-- The masks after reset: 1 except LOST (R104). -/
theorem reset_masks (c : Cond) : CondRec.reset.masks.getLsbD c.pos = (c != .lost) := by cases c <;> decide

theorem reset_capacities : Capacities State.reset :=
  ⟨fun _ => Nat.zero_le _, fun _ => Nat.zero_le _, fun _ => Nat.zero_le _, fun _ => Nat.zero_le _⟩

theorem reset_slotTimes : SlotTimes State.reset := ⟨by decide, nofun, nofun⟩

theorem reset_pageOrder : PageOrder State.reset where
  index _ := Nat.zero_le _
  flight o ci f l ho hk := by rw [(reset_op o ho).2] at hk; cases hk

theorem reset_schedulerLaws : SchedulerLaws State.reset := by
  constructor
  case table => rfl
  case held => intro r n e _ h; simp [reset_alert, AlertRec.holds, AlertRec.idle] at h
  case cut => intro r n e t _ h; simp [reset_alert, AlertRec.idle] at h
  case targets => intro r _; simp [reset_alert, AlertRec.idle]
  case pool => exact fun k => Nat.le_refl 0
  case instances => intro i r x n h; cases r <;> simp [reset_sp, SpliceRec.reset, SpliceRec.inst] at h
  case waits => intro i q n h; simp [reset_sp, SpliceRec.reset] at h
  all_goals intros; simp_all [reset_entry]

theorem reset_ingestUnits : IngestUnits State.reset where
  record _ h := absurd rfl h
  apart _ _ _ h := absurd rfl h

theorem reset_clipReferences : ClipReferences State.reset where
  entries := rfl
  alerts := rfl
  preloads := rfl
  checks := rfl
  num n e h := by simp [reset_entry] at h
  key c r h := by simp [reset_clip] at h
  count _ := rfl
  ingesting c r h := by simp [reset_clip] at h
  units := reset_ingestUnits
  fills o j ho _ hq := by rw [(reset_op o ho).1] at hq; cases hq
  scan _ := ⟨fun _ => rfl, fun _ => rfl⟩
  scanOp _ _ _ := rfl

/-- Settles O8: every table is empty after reset, so that each key reads its default. -/
theorem resetValuesAndInvariantsHoldAfterReset : Obligations.ResetValuesAndInvariantsHoldAfterReset := by
  refine ⟨fun k => ?_, fun i => ?_, fun p => ?_, rfl, rfl, rfl, reset_capacities, reset_slotTimes, reset_pageOrder,
    reset_schedulerLaws, reset_clipReferences⟩
  · exact ⟨rfl, rfl, rfl, rfl, rfl, rfl, rfl, rfl, rfl, rfl, rfl, rfl, rfl, rfl, rfl⟩
  · exact ⟨rfl, rfl, rfl, rfl, rfl, rfl, rfl, rfl, reset_masks⟩
  · exact ⟨rfl, rfl, rfl, rfl, rfl, rfl, rfl⟩

end Sys2Proof.Machine
end

section
/-! The schedule as a table, and the end of an entry that is not ARMED (R48, R72). -/

namespace Sys2Proof.Machine

/-! ### Tables of optional records -/

theorem Table.mem_of_get {α : Type} {d : α} {t : Table α} {k : Nat} {v : α} (h : Table.get d t k = v) (hv : v ≠ d) : (k, v) ∈ t := by
  induction t with
  | nil => exact absurd h.symm hv
  | cons e r ih =>
    obtain ⟨j, w⟩ := e
    unfold Table.get at h
    split at h
    · next hj => simp [hj, h]
    · exact List.mem_cons_of_mem _ (ih h)

theorem Table.get_of_mem {α : Type} {d : α} {t : Table α} (hp : t.Pairwise (fun a b => a.1 < b.1)) {k : Nat} {v : α} (h : (k, v) ∈ t) :
    Table.get d t k = v := by
  induction t with
  | nil => simp at h
  | cons e r ih =>
    obtain ⟨j, w⟩ := e
    obtain ⟨hj, hr⟩ := List.pairwise_cons.mp hp
    rcases List.mem_cons.mp h with h | h
    · cases h
      simp [Table.get]
    · have hlt : j < k := hj (k, v) h
      simp [Table.get, hlt.ne, ih hr h]

/-- What a key reads is among the listed values. -/
theorem Table.mem_vals_of_get {α : Type} {t : Table (Option α)} {k : Nat} {v : α} (h : Table.get none t k = some v) :
    v ∈ Table.vals t :=
  List.mem_filterMap.mpr ⟨_, Table.mem_of_get h (by simp), rfl⟩

/-- In a canonical table every listed value is what some key reads. -/
theorem Table.get_of_mem_vals {α : Type} [DecidableEq α] {t : Table (Option α)} (hw : Table.wf none t = true) {v : α}
    (h : v ∈ Table.vals t) : ∃ k, Table.get none t k = some v := by
  obtain ⟨⟨k, w⟩, hm, rfl⟩ := List.mem_filterMap.mp h
  exact ⟨k, Table.get_of_mem ((Table.wf_iff none t).mp hw).1 hm⟩

/-- A canonical table lists each of its values once. -/
theorem Table.vals_length {α : Type} [DecidableEq α] {t : Table (Option α)} (hw : Table.wf none t = true) :
    (Table.vals t).length = t.length := by
  obtain ⟨-, hd⟩ := (Table.wf_iff none t).mp hw
  unfold Table.vals
  induction t with
  | nil => rfl
  | cons e r ih =>
    obtain ⟨k, v⟩ := e
    obtain ⟨w, rfl⟩ := Option.ne_none_iff_exists'.mp (hd (k, v) (by simp))
    have hr : Table.wf none r = true :=
      (Table.wf_iff none r).mpr ⟨((Table.wf_iff none _).mp hw).1.of_cons, fun e he => hd e (by simp [he])⟩
    simp [ih hr (fun e he => hd e (by simp [he]))]

theorem Table.filter_key_length {α : Type} {d : α} {t : Table α} (hp : t.Pairwise (fun a b => a.1 < b.1)) {k : Nat}
    (h : Table.get d t k ≠ d) : (t.filter (fun e => e.1 != k)).length + 1 = t.length := by
  induction t with
  | nil => exact absurd rfl h
  | cons e r ih =>
    obtain ⟨j, w⟩ := e
    obtain ⟨hj, hr⟩ := List.pairwise_cons.mp hp
    by_cases hk : j = k
    · subst hk
      have : r.filter (fun e => e.1 != j) = r := List.filter_eq_self.mpr fun e he => by simpa using (hj e he).ne'
      simp [this]
    · rw [Table.get, if_neg hk] at h
      simp [hk, ih hr h]

theorem Table.insert_length {α : Type} (k : Nat) (v : α) (t : Table α) : (Table.insert k v t).length = t.length + 1 := by
  induction t with
  | nil => rfl
  | cons e r ih =>
    unfold Table.insert
    split <;> simp_all

/-- Removing a listed record leaves one value fewer. -/
theorem Table.vals_set_none {α : Type} [DecidableEq α] {t : Table (Option α)} (hw : Table.wf none t = true) {k : Nat} {v : α}
    (h : Table.get none t k = some v) : (Table.vals (Table.set none t k none)).length + 1 = (Table.vals t).length := by
  rw [Table.vals_length hw, Table.vals_length (Table.wf_set none t k none hw)]
  have := Table.filter_key_length ((Table.wf_iff none t).mp hw).1 (d := none) (k := k) (by simp [h])
  simpa [Table.set] using this

/-- Replacing a listed record leaves as many values. -/
theorem Table.vals_set_some {α : Type} [DecidableEq α] {t : Table (Option α)} (hw : Table.wf none t = true) {k : Nat} {v : α}
    (h : Table.get none t k = some v) (w : α) : (Table.vals (Table.set none t k (some w))).length = (Table.vals t).length := by
  rw [Table.vals_length hw, Table.vals_length (Table.wf_set none t k (some w) hw)]
  have := Table.filter_key_length ((Table.wf_iff none t).mp hw).1 (d := none) (k := k) (by simp [h])
  simpa [Table.set, Table.insert_length] using this

/-! ### The schedule -/

variable (s : State)

theorem mem_schedule_of_entry {s : State} {n : Nat} {e : Entry} (h : s.entry n = some e) : e ∈ s.schedule := Table.mem_vals_of_get h

theorem mem_schedule_iff {s : State} (hw : Table.wf none s.entries = true) (e : Entry) : e ∈ s.schedule ↔ ∃ n, s.entry n = some e :=
  ⟨Table.get_of_mem_vals hw, fun ⟨_, h⟩ => mem_schedule_of_entry h⟩

theorem mem_entriesOf (i : Nat) (e : Entry) : e ∈ entriesOf s i ↔ e ∈ s.schedule ∧ e.svc = i := by simp [entriesOf]

/-! ### References -/

theorem foldl_dropRef_frame (l : List Nat) : l.foldl State.dropRef s = { s with dir := (l.foldl State.dropRef s).dir } := by
  induction l generalizing s with
  | nil => rfl
  | cons c r ih =>
    rw [List.foldl_cons, ih]
    rfl

/-- Lowering a reference count marks no clip, and unmarks none. -/
theorem dropRef_clipDamaged (c d : Nat) : (s.dropRef c).clipDamaged d = s.clipDamaged d := by
  unfold State.clipDamaged State.dropRef
  rw [State.clip_setClip]
  by_cases h : d = c
  · subst h
    cases s.clip d <;> simp
  · rw [if_neg h]

theorem foldl_dropRef_clipDamaged (l : List Nat) (d : Nat) : (l.foldl State.dropRef s).clipDamaged d = s.clipDamaged d := by
  induction l generalizing s with
  | nil => rfl
  | cons c r ih => rw [List.foldl_cons, ih, dropRef_clipDamaged]

/-! ### The end of an entry that is not ARMED (R72) -/

variable {s} {e : Entry} (r : EntryResult)

theorem endEntry_eq (h : e.st ≠ .armed) : endEntry s e r =
    (e.pod.foldl State.dropRef (s.push e.origin (.entryEnd r e.num e.svc e.podIdx (e.pod.headD 0) e.sEff e.e))).setEntry e.num none := by
  simp [endEntry, h]

/-- It changes the schedule, the directory's counts and its origin's queue. -/
theorem endEntry_frame (h : e.st ≠ .armed) : endEntry s e r =
    { s with entries := (endEntry s e r).entries, dir := (endEntry s e r).dir, boxes := (endEntry s e r).boxes } := by
  rw [endEntry_eq r h, foldl_dropRef_frame]
  rfl

theorem endEntry_entries (h : e.st ≠ .armed) : (endEntry s e r).entries = Table.set none s.entries e.num none := by
  rw [endEntry_eq r h, foldl_dropRef_frame]
  rfl

theorem endEntry_entry (h : e.st ≠ .armed) (n : Nat) : (endEntry s e r).entry n = if n = e.num then none else s.entry n := by
  simp [State.entry, endEntry_entries r h, Table.get_set]

theorem endEntry_box (h : e.st ≠ .armed) (p : PortId) : (endEntry s e r).box p = if p = e.origin then
    pushBox (s.box p) (.entryEnd r e.num e.svc e.podIdx (e.pod.headD 0) e.sEff e.e) else s.box p := by
  rw [endEntry_eq r h, foldl_dropRef_frame]
  refine (State.box_push s e.origin p _).trans ?_
  split
  · next hp => rw [hp]
  · rfl

theorem endEntry_clipDamaged (h : e.st ≠ .armed) (c : Nat) : (endEntry s e r).clipDamaged c = s.clipDamaged c := by
  rw [endEntry_eq r h]
  exact foldl_dropRef_clipDamaged _ _ _

end Sys2Proof.Machine
end

section
/-! The room that the events of ending entries find in their queues (R72, R193). -/

namespace Sys2Proof.Machine

/-- The events that wait at a port, and the entries that may still add one each as they end. -/
def State.load (s : State) (p : PortId) : Nat := (s.box p).queue.length + s.schedule.length

/-- ENTRY_END of an entry (R202). -/
def Entry.endEvent (e : Entry) (r : EntryResult) : Event := .entryEnd r e.num e.svc e.podIdx (e.pod.headD 0) e.sEff e.e

theorem pushBox_grows (b : Box) (e : Event) : b.queue <+: (pushBox b e).queue := by
  rcases pushBox_cases b e with ⟨-, h⟩ | ⟨-, h⟩ <;> simp [h]

theorem pushBox_length_le (b : Box) (e : Event) : (pushBox b e).queue.length ≤ b.queue.length + 1 := by
  rcases pushBox_cases b e with ⟨-, h⟩ | ⟨-, h⟩ <;> simp [h]

theorem mem_pushBox (b : Box) (e : Event) (h : b.queue.length < 32) : e ∈ (pushBox b e).queue := by
  simp [pushBox, h]

variable {s t : State} {e : Entry} (r : EntryResult)

/-- An end takes an entry from the schedule for each event it may queue. -/
theorem endEntry_load (hw : Table.wf none s.entries = true) (he : s.entry e.num = some e) (h : e.st ≠ .armed) (p : PortId) :
    (endEntry s e r).load p ≤ s.load p := by
  have hv : (endEntry s e r).schedule.length + 1 = s.schedule.length := by
    unfold State.schedule
    rw [endEntry_entries r h]
    exact Table.vals_set_none hw he
  unfold State.load
  rw [endEntry_box r h]
  split
  · have := pushBox_length_le (s.box p) (.entryEnd r e.num e.svc e.podIdx (e.pod.headD 0) e.sEff e.e)
    omega
  · omega

theorem endEntry_grows (h : e.st ≠ .armed) (p : PortId) : (s.box p).queue <+: ((endEntry s e r).box p).queue := by
  rw [endEntry_box r h]
  split
  · exact pushBox_grows _ _
  · exact List.prefix_rfl

/-- While the events and the entries together fit, the event of an end joins its queue. -/
theorem endEntry_event (he : s.entry e.num = some e) (h : e.st ≠ .armed) (hl : s.load e.origin ≤ 32) :
    e.endEvent r ∈ ((endEntry s e r).box e.origin).queue := by
  have hs : 0 < s.schedule.length := List.length_pos_of_mem (mem_schedule_of_entry he)
  rw [endEntry_box r h, if_pos rfl]
  refine mem_pushBox _ _ ?_
  unfold State.load at hl
  omega

end Sys2Proof.Machine
end

section
/-! Configure Lane (R2 to R5). -/

namespace Sys2Proof.Machine

variable {s : State} {a : LaneArgs}

/-! ### Taking a Configure Lane -/

@[simp] theorem ok_done (t : State) (b : List Byte) (p : PortId) : (ok t b).done p = answer t p .ok b := rfl
@[simp] theorem err_done (t : State) (st : Status) (p : PortId) : (err t st).done p = answer t p st [] := rfl

/-- A taken Configure Lane runs on the opened exchange. -/
theorem exec_configureLane {p : PortId} (h : s.takes p) :
    exec (.configureLane p a) s = .next ((runConfigureLane a (openExchange s p 0x10)).done p) := by
  have ha : admitted p 0x10 = true := by cases p <;> rfl
  exact congrArg Host.Outcome.next (command_taken s p 0x10 (runConfigureLane a) h ha)

/-- A sound one on a lane without an insertion starts, stops or adjusts the lane, or only answers (R2). -/
theorem runConfigureLane_sound (h : laneArgsOk a = true) (hu : (s.servicesOf a.lane).any (engaged s) = false) :
    runConfigureLane a s = match (s.lane a.lane).mode with
      | .bypass => if (settingsOf a).rOut = 0 then ok s [] else ok (rest (startLane s a.lane (settingsOf a))) []
      | .running => if (settingsOf a).rOut = 0 then ok (rest (stopLane s a.lane (settingsOf a))) []
          else ok (rest (adjustLane s a.lane (settingsOf a))) [] := by
  rw [runConfigureLane, h, hu]
  rfl

@[simp] theorem answer_lane (t : State) (p : PortId) (st : Status) (b : List Byte) (k : Nat) : (answer t p st b).lane k = t.lane k := rfl
@[simp] theorem answer_svc (t : State) (p : PortId) (st : Status) (b : List Byte) (i : Nat) : (answer t p st b).svc i = t.svc i := rfl

theorem Kept.lane {s t : State} (h : Kept s t) (k : Nat) : t.lane k = s.lane k := by simp [State.lane, h.lanes]

/-- The exchange of a port holds the reply that was formed after acts that keep what it answers. -/
theorem answer_replied_of_kept {u v w : State} {p : PortId} {code : Nat} (st : Status) (b : List Byte)
    (hl : v.links = (openExchange u p code).links) (k : Kept v w) : (answer w p st b).replied p (byte1 code) st b := by
  refine answer_replied w p st b _ ?_
  rw [k.codes p]
  have : v.link p = (openExchange u p code).link p := by simp [State.link, hl]
  rw [this, openExchange_link, if_pos rfl]
  rfl

/-! ### An adjustment at half the modulus -/

/-- A changed R_out restarts the slots at the first old one from now on (R4). -/
theorem Lane.adjusted_slotTime {l : Lane} {c : LaneSettings} {now : Nat} (h : l.cfg.rOut ≠ c.rOut) :
    (l.adjusted c now).slotTime = firstSlotFrom l now := by
  simp [Lane.adjusted, h]

/-- A lane whose next slot falls at N_CLK / 2. -/
def halfTurnLane : Lane :=
  { Lane.reset with
    mode := .running, cfg := { LaneSettings.reset with rOut := 2000, delay := 20 }, base := 1288490188800, slotTime := 1288490188800 }

/-- A part at local count 0 with that lane: the slot is as far behind as it is ahead. -/
def halfTurnState : State := { State.reset with part := .running, lanes := [(0, halfTurnLane)] }

/-- A sound Configure Lane that changes R_out alone. -/
def rOutChange : LaneArgs :=
  { lane := 0, res := 0, rOut := some 3000, delay := some 20, pool := some 0, lateLimit := none, preroll := none, seekLimit := none,
    rounding := none, lockWindow := none, lossTimeout := none }

theorem halfTurnState_slotTimes : SlotTimes halfTurnState := by
  have hl : halfTurnLane.exact := Lane.exact_of_start (by decide) rfl rfl rfl
  exact (reset_slotTimes.setLane 0 hl).of_rowFrame (RowFrame.of_tables (RowFrame.refl _) rfl rfl rfl rfl)

theorem halfTurnState_takes : halfTurnState.takes .tp := ⟨⟨rfl, rfl, rfl⟩, rfl⟩

/-- The slot half the modulus away has passed, but no tick lies between it and now: the sequence restarts at it, in the past. -/
theorem halfTurn_restart : firstSlotFrom halfTurnLane 0 = 1288490188800 ∧ atOrAfter nClk 1288490188800 0 = false := by decide

/-- Where the adjusted lane's next slot falls. -/
theorem halfTurn_slotTime {u : State}
    (h : exec (.configureLane .tp rOutChange) halfTurnState = .next (answer (rest u) .tp .ok [])) :
    (u.lane 0).slotTime = 1288490188800 := by
  let v := openExchange halfTurnState .tp 0x10
  have hr : runConfigureLane rOutChange v = ok (rest (adjustLane v 0 (settingsOf rOutChange))) [] :=
    runConfigureLane_sound (by decide) rfl
  rw [exec_configureLane halfTurnState_takes, hr] at h
  injection h with h
  have hl : u.lanes = (adjustLane v 0 (settingsOf rOutChange)).lanes := by
    have := congrArg State.lanes h
    rw [answer_frame (rest u)] at this
    exact ((Kept.rest (Kept.refl u)).lanes.symm.trans this.symm).trans (Kept.rest (Kept.refl _)).lanes
  have hv : v.lane 0 = halfTurnLane := rfl
  have hs : ((adjustLane v 0 (settingsOf rOutChange)).lane 0).slotTime = 1288490188800 := by
    rcases adjustLane_cases v 0 (settingsOf rOutChange) with e | f
    · rw [e, hv]
      rfl
    · rw [(f.lane 0).slotTime, State.lane_setLane_self, hv, Lane.adjusted_slotTime (by decide)]
      exact halfTurn_restart.1
  rw [State.lane, hl]
  exact hs

/-- Refutes O45: with the old slot exactly N_CLK / 2 before the present tick, neither is after the other; the distance to it reads
as 0 slots, and the new sequence starts at the old slot, which has passed. -/
theorem not_runningLaneIsStoppedAdjustedOrInUse : ¬ Obligations.RunningLaneIsStoppedAdjustedOrInUse := by
  intro h
  obtain ⟨-, -, -, -, hadj⟩ := h halfTurnState .tp rOutChange halfTurnState_takes
  obtain ⟨u, hu, -, hne⟩ := hadj (by simp [rOutChange]) (fun ⟨i, hi, _⟩ => by cases hi) rfl (by simp [rOutChange])
  obtain ⟨-, -, hr, -⟩ := hne (by decide)
  obtain ⟨m, hm, hat, -⟩ := hr (by decide) halfTurnState_slotTimes (by decide)
  have hpast : atOrAfter nClk (u.lane rOutChange.lane).slotTime halfTurnState.localCount = true := by
    rw [hm]
    exact hat
  rw [show rOutChange.lane = 0 from rfl, halfTurn_slotTime hu] at hpast
  exact Bool.false_ne_true (halfTurn_restart.2.symm.trans hpast)

end Sys2Proof.Machine
end

section
/-! A lane started from BYPASS (R2, R3). -/

namespace Sys2Proof.Machine

variable {s : State} {a : LaneArgs}

/-! ### One change made to each service of a list -/

theorem foldl_modSvc_frame (f : Service → Service) (l : List Nat) (s : State) :
    l.foldl (fun s i => s.modSvc i f) s = { s with services := (l.foldl (fun s i => s.modSvc i f) s).services } := by
  induction l generalizing s with
  | nil => rfl
  | cons i r ih =>
    rw [List.foldl_cons, ih]
    rfl

theorem foldl_modSvc_svc_of_notMem (f : Service → Service) {l : List Nat} {i : Nat} (h : i ∉ l) (s : State) :
    (l.foldl (fun s i => s.modSvc i f) s).svc i = s.svc i := by
  induction l generalizing s with
  | nil => rfl
  | cons j r ih =>
    have hj : i ≠ j := fun e => h (by simp [e])
    rw [List.foldl_cons, ih fun hr => h (List.mem_cons_of_mem _ hr), State.svc_modSvc, if_neg hj]

theorem foldl_modSvc_lanes (f : Service → Service) (l : List Nat) (s : State) :
    (l.foldl (fun s i => s.modSvc i f) s).lanes = s.lanes := (congrArg State.lanes (foldl_modSvc_frame f l s) :)

theorem foldl_modSvc_links (f : Service → Service) (l : List Nat) (s : State) :
    (l.foldl (fun s i => s.modSvc i f) s).links = s.links := (congrArg State.links (foldl_modSvc_frame f l s) :)

/-- What the change gives every service, each service of the list has. -/
theorem foldl_modSvc_svc_of_mem {f : Service → Service} {Q : Service → Prop} (hQ : ∀ v, Q (f v)) {l : List Nat} {i : Nat} (h : i ∈ l)
    (s : State) : Q ((l.foldl (fun s i => s.modSvc i f) s).svc i) := by
  induction l generalizing s with
  | nil => cases h
  | cons j r ih =>
    rw [List.foldl_cons]
    by_cases hr : i ∈ r
    · exact ih hr _
    · obtain rfl : i = j := by simpa [hr] using h
      rw [foldl_modSvc_svc_of_notMem f hr, State.svc_modSvc, if_pos rfl]
      exact hQ _

/-! ### The start of a lane (R3) -/

/-- The lane as Configure Lane starts it. -/
def Lane.started (l : Lane) (c : LaneSettings) (now : Nat) : Lane :=
  { l with mode := .running, cfg := c, fifo := [], pids := [], base := now, slotNo := 0, slotRem := 0, slotTime := now }

/-- The lane starts, its services begin with a reset clock, and then the arbiter runs. -/
theorem startLane_eq (s : State) (k : Nat) (c : LaneSettings) : startLane s k c = poolFreed
    ((s.servicesOf k).foldl (fun s i => s.modSvc i (fun v => { v.unmark with clk := ClockRec.reset }))
      (s.setLane k ((s.lane k).started c s.localCount))) k := rfl

theorem startLane_lane (s : State) (k : Nat) (c : LaneSettings) (j : Nat) :
    (startLane s k c).lane j = if j = k then (s.lane k).started c s.localCount else s.lane j := by
  rw [startLane_eq, State.lane, (Kept.poolFreed (Kept.refl _) k).lanes, foldl_modSvc_lanes]
  exact State.lane_setLane s k _ j

theorem startLane_links (s : State) (k : Nat) (c : LaneSettings) :
    ∃ u, u.links = s.links ∧ Kept u (startLane s k c) := by
  rw [startLane_eq]
  refine ⟨_, ?_, Kept.poolFreed (Kept.refl _) k⟩
  rw [foldl_modSvc_links, State.setLane_links]

theorem startLane_clk_of_mem (s : State) (k : Nat) (c : LaneSettings) {i : Nat} (h : i ∈ s.servicesOf k) :
    ((startLane s k c).svc i).clk = ClockRec.reset := by
  rw [startLane_eq, (Kept.poolFreed (Kept.refl _) k).clk]
  exact foldl_modSvc_svc_of_mem (Q := fun v => v.clk = ClockRec.reset) (fun _ => rfl) h _

theorem startLane_clk_of_notMem (s : State) (k : Nat) (c : LaneSettings) {i : Nat} (h : i ∉ s.servicesOf k) :
    ((startLane s k c).svc i).clk = (s.svc i).clk := by
  rw [startLane_eq, (Kept.poolFreed (Kept.refl _) k).clk, foldl_modSvc_svc_of_notMem _ h]
  rfl

/-! ### The command -/

theorem inRange_iff (v : Option Nat) (lo hi : Nat) : inRange v lo hi = true ↔ ∀ x, v = some x → lo ≤ x ∧ x ≤ hi := by
  cases v <;> simp [inRange]

/-- The codes of the rounding modes (R201). -/
theorem roundingOf_getD (v : Option Nat) (h : ∀ x, v = some x → x ≤ 3) : (roundingOf (v.getD 0)).getD .nearestEven =
    if v = some 1 then .down else if v = some 2 then .up else if v = some 3 then .towardZero else .nearestEven := by
  cases v with
  | none => rfl
  | some x =>
    obtain h | h | h | h : x = 0 ∨ x = 1 ∨ x = 2 ∨ x = 3 := by have := h x rfl; omega
    all_goals subst h; rfl

/-- Settles O44: the command is sound, so that the lane is started and nothing after it touches a lane or a clock. -/
theorem configureLaneStartsLane : Obligations.ConfigureLaneStartsLane := by
  intro s p a r d q hp hk hres hr hd hq hr' hd' hq' hlate hpre hseek hround hlock hloss hm hu
  let u := openExchange s p 0x10
  have hok : laneArgsOk a = true := by
    obtain ⟨n, rfl⟩ := Nat.exists_eq_succ_of_ne_zero (by omega : r ≠ 0)
    have hD : inRange (some d) 20 250 = true := by simp [inRange, hd']
    have hQ : inRange (some q) 0 53000 = true := by simp [inRange, hq']
    have hro : inRange a.rounding 0 3 = true := (inRange_iff _ _ _).mpr fun v hv => ⟨Nat.zero_le _, hround v hv⟩
    simp [laneArgsOk, hr, hD, hQ, hro, hk, hres, hr', hd, hq, (inRange_iff _ _ _).mpr hlate, (inRange_iff _ _ _).mpr hpre,
      (inRange_iff _ _ _).mpr hseek, (inRange_iff _ _ _).mpr hlock, (inRange_iff _ _ _).mpr hloss]
  have hR : (settingsOf a).rOut ≠ 0 := by
    simp only [settingsOf, hr, Option.getD_some]
    omega
  have hrun : runConfigureLane a u = ok (rest (startLane u a.lane (settingsOf a))) [] := by
    have hmu : (u.lane a.lane).mode = .bypass := by simpa [u] using hm
    rw [runConfigureLane_sound (s := u) hok hu, hmu]
    exact if_neg hR
  have k : Kept (startLane u a.lane (settingsOf a)) (rest (startLane u a.lane (settingsOf a))) := Kept.rest (Kept.refl _)
  refine ⟨answer (rest (startLane u a.lane (settingsOf a))) p .ok [], ?_, ?_, fun j hj => ?_, fun i hi => ?_, fun i hi => ?_, ?_⟩
  · rw [exec_configureLane hp, show runConfigureLane a (openExchange s p 0x10) = _ from hrun, ok_done]
  · rw [answer_lane, k.lane, startLane_lane, if_pos rfl, openExchange_lane]
    simp only [Lane.started, settingsOf, hr, hd, hq, Option.getD_some, roundingOf_getD _ hround]
    simp [u]
  · rw [answer_lane, k.lane, startLane_lane, if_neg hj, openExchange_lane]
  · rw [answer_svc, k.clk, startLane_clk_of_mem u a.lane _ hi]
  · rw [answer_svc, k.clk, startLane_clk_of_notMem u a.lane _ hi, openExchange_svc]
  · obtain ⟨v, hv, kv⟩ := startLane_links u a.lane (settingsOf a)
    exact answer_replied_of_kept (u := s) (code := 0x10) .ok [] hv (kv.trans k)

end Sys2Proof.Machine
end

section
/-! Packets on their way in, the loss timers, and conditions (R1, R6, R7, R10, R12, R27, R105, R106). -/

namespace Sys2Proof.Machine

variable (s : State)

/-! ### Conditions offered to the ports (R105, R106) -/

/-- The event that a port takes of a condition that is offered: a watching port without an unread one of the same kind. -/
def offeredBox (b : Box) (i : Nat) (c : Cond) : Box :=
  if b.watch.getLsbD i = true ∧ Event.condition i c ∉ b.queue then pushBox b (.condition i c) else b

theorem offerCondition_box (i : Nat) (c : Cond) (p q : PortId) :
    (offerCondition s i c p).box q = if q = p then offeredBox (s.box p) i c else s.box q := by
  unfold offerCondition offeredBox
  by_cases h : (s.box p).watch.getLsbD i = true ∧ Event.condition i c ∉ (s.box p).queue
  · rw [if_pos h, if_pos (by simpa using h), State.box_push]
  · rw [if_neg h, if_neg (by simpa using h)]
    split
    · next hq => rw [hq]
    · rfl

theorem raise_box (i : Nat) (c : Cond) (p : PortId) :
    (raise s i c).box p = if (s.svc i).cond.masks.getLsbD c.pos then s.box p else offeredBox (s.box p) i c := by
  unfold raise
  dsimp only
  split
  · rfl
  · cases p <;> simp [offerCondition_box]

theorem getLsbD_condBit (c x : Cond) : (condBit c).getLsbD x.pos = (x == c) := by
  cases c <;> cases x <;> decide

/-! ### The local count -/

theorem sdiff_self (n a : Nat) (h : 0 < n) : sdiff n a a = 0 := by
  simp [sdiff, h]

theorem sdiff_mod_left (n a b : Nat) : sdiff n (a % n) b = sdiff n a b := by
  have : ((a % n : Nat) - (b : Int)) % n = ((a : Int) - b) % n := by
    rw [Int.natCast_mod, Int.emod_sub_emod]
  simp only [sdiff, this]

theorem atOrAfter_mod_self (n a : Nat) (h : 0 < n) : atOrAfter n (a % n) a = true := by
  simp [atOrAfter, sdiff_mod_left, sdiff_self n a h]

/-- The count stands at or after a tick that it has been moved to (log 2). -/
theorem advanceTo_reached (x : Nat) : atOrAfter nClk (advanceTo s x).localCount x = true := by
  rw [advanceTo_eq]
  dsimp only
  split
  · assumption
  · exact atOrAfter_mod_self nClk x (by decide)

/-- Moving the count changes the count only, and the tick moved to is reached. -/
theorem advanceTo_cases (x : Nat) : ∃ y, advanceTo s x = { s with localCount := y } ∧ atOrAfter nClk y x = true := by
  refine ⟨_, advanceTo_eq s x, ?_⟩
  have h := advanceTo_reached s x
  rwa [advanceTo_eq] at h

/-! ### The loss of the input and of the PCR (R7, R27) -/

/-- An event at all ports changes the queues alone (R193). -/
theorem State.pushAll_frame (e : Event) : ∃ b, s.pushAll e = { s with boxes := b } := ⟨_, rfl⟩

variable {s}

theorem inputLost_eq {k l0 : Nat} (hr : s.resetAsserted = false) (hp : (s.lane k).inputPresent = true)
    (ht : (s.lane k).inputTimer = some l0) : inputLost s k = ((advanceTo s (addMod nClk l0 2700000)).setLane k
      { s.lane k with inputPresent := false, inputTimer := none }).pushAll (.inputLost k) := by
  simp only [inputLost, hp, ht, hr, Bool.false_eq_true, if_false]
  rfl

theorem pcrLossTimeout_eq {i l0 : Nat} (hr : s.resetAsserted = false) (hc : (s.svc i).clk.st = .locked)
    (ht : (s.svc i).clk.lossTimer = some l0) : pcrLossTimeout s i =
      raise ((advanceTo s (addMod nClk l0 ((s.cfgOf i).lossTimeout * 27000))).modSvc i (fun v =>
        { v with clk := { v.clk with st := .holdover, lossTimer := none } })) i .hold := by
  simp only [pcrLossTimeout, hc, ht, hr, Bool.false_eq_true, if_false]
  rfl

/-- Settles O21: the two timer rows written out, and the offers of a raised condition port by port. -/
theorem inputLossAndPcrLossTakeEffect : Obligations.InputLossAndPcrLossTakeEffect := by
  refine ⟨fun s k l0 hr hp ht => ?_, fun s i l0 hr hc ht => ?_, fun s i c => ?_⟩
  · obtain ⟨y, hy, hreached⟩ := advanceTo_cases s (addMod nClk l0 2700000)
    refine ⟨inputLost s k.val, rfl, ?_⟩
    rw [inputLost_eq hr hp ht, hy]
    refine ⟨?_, by simp, fun j hj => ?_, fun p => ?_, ?_⟩
    · obtain ⟨b, hb⟩ := State.pushAll_frame ((({ s with localCount := y } : State)).setLane k.val
        { s.lane k.val with inputPresent := false, inputTimer := none }) (.inputLost k.val)
      rw [hb]
      rfl
    · rw [State.pushAll_lane, State.lane_setLane, if_neg hj]
      rfl
    · rw [State.box_pushAll]
      rfl
    · rw [State.pushAll_localCount]
      exact hreached
  · obtain ⟨y, hy, hreached⟩ := advanceTo_cases s (addMod nClk l0 ((s.cfgOf i.val).lossTimeout * 27000))
    refine ⟨pcrLossTimeout s i.val, rfl, ?_⟩
    rw [pcrLossTimeout_eq hr hc ht, hy]
    refine ⟨?_, ?_, fun j hj => ?_, fun p => ?_, ?_⟩
    · rw [raise_frame]
      rfl
    · rw [raise_svc, if_pos rfl, State.svc_modSvc, if_pos rfl]
      rfl
    · rw [raise_svc, if_neg hj, State.svc_modSvc, if_neg hj]
      rfl
    · rw [raise_box, State.svc_modSvc, if_pos rfl]
      cases hm : (s.svc i.val).cond.masks.getLsbD Cond.hold.pos <;> simp [State.svc, State.box, offeredBox] at hm ⊢ <;> simp [hm]
    · rw [raise_localCount]
      exact hreached
  · refine ⟨raise_frame s i c, fun j hj => ?_, ?_, fun x => ?_, fun p => ?_⟩
    · rw [raise_svc, if_neg hj]
    · rw [raise_svc, if_pos rfl]
    · rw [raise_svc, if_pos rfl]
      simp [getLsbD_condBit]
    · rw [raise_box]
      cases hm : (s.svc i).cond.masks.getLsbD c.pos <;> simp [offeredBox]

end Sys2Proof.Machine
end

section
/-! An arriving packet up to the splice engine: presence, BYPASS, and the FIFO (R1, R6, R7, R10, R12). -/

namespace Sys2Proof.Machine

variable (s : State) (k : Nat)

/-! ### Presence of the input (R7) -/

/-- The lane whose input is present. -/
def Lane.seen (l : Lane) (now : Nat) : Lane := { l with inputPresent := true, inputTimer := some now }

/-- Presence changes its lane, and queues an event where the input was absent. -/
theorem acceptInput_frame : acceptInput s k = { s with lanes := (acceptInput s k).lanes, boxes := (acceptInput s k).boxes } := by
  unfold acceptInput
  dsimp only
  split <;> rfl

theorem acceptInput_lane (j : Nat) : (acceptInput s k).lane j = if j = k then (s.lane k).seen s.localCount else s.lane j := by
  unfold acceptInput
  dsimp only
  split
  · exact State.lane_setLane s k _ j
  · rw [State.pushAll_lane]
    exact State.lane_setLane s k _ j

theorem acceptInput_box (p : PortId) : (acceptInput s k).box p =
    if (s.lane k).inputPresent then s.box p else pushBox (s.box p) (.inputPresent k) := by
  unfold acceptInput
  dsimp only
  split
  · rfl
  · rw [State.box_pushAll]
    rfl

@[simp] theorem acceptInput_services : (acceptInput s k).services = s.services := by rw [acceptInput_frame]
@[simp] theorem acceptInput_entries : (acceptInput s k).entries = s.entries := by rw [acceptInput_frame]
@[simp] theorem acceptInput_alerts : (acceptInput s k).alerts = s.alerts := by rw [acceptInput_frame]
@[simp] theorem acceptInput_dir : (acceptInput s k).dir = s.dir := by rw [acceptInput_frame]
@[simp] theorem acceptInput_localCount : (acceptInput s k).localCount = s.localCount := by rw [acceptInput_frame]
@[simp] theorem acceptInput_monitor : (acceptInput s k).monitor = s.monitor := by rw [acceptInput_frame]
@[simp] theorem acceptInput_svc (i : Nat) : (acceptInput s k).svc i = s.svc i := by simp [State.svc]
@[simp] theorem acceptInput_sp (i : Nat) : (acceptInput s k).sp i = s.sp i := by simp [State.sp]
@[simp] theorem acceptInput_entry (n : Nat) : (acceptInput s k).entry n = s.entry n := by simp [State.entry]

@[simp] theorem acceptInput_servicesOf (j : Nat) : (acceptInput s k).servicesOf j = s.servicesOf j := by
  simp [State.servicesOf, State.listed, State.laneOf]

@[simp] theorem acceptInput_serviceOfPid (j q : Nat) : serviceOfPid (acceptInput s k) j q = serviceOfPid s j q := by
  simp [serviceOfPid]

/-! ### Packets that no service names -/

variable {s k} {b : Pkt}

theorem packetArrival_running (hr : s.resetAsserted = false) (hb : b.headD 0 = 0x47#8) (hm : (s.lane k).mode = .running) :
    packetArrival s k b = rest (classifyPacket (acceptInput s k) k b) := by
  unfold packetArrival
  rw [if_neg (fun h => h.elim (by simp [hr]) (fun h => h hb))]
  simp only [hm]

theorem packetArrival_bypass (hr : s.resetAsserted = false) (hb : b.headD 0 = 0x47#8) (hm : (s.lane k).mode = .bypass) :
    packetArrival s k b = (acceptInput s k).setLane k { (acceptInput s k).lane k with out := some b } := by
  unfold packetArrival
  rw [if_neg (fun h => h.elim (by simp [hr]) (fun h => h hb))]
  simp only [hm]

theorem classifyPacket_null (h : pktPid b = 0x1FFF) : classifyPacket s k b = s := by simp [classifyPacket, h]

theorem classifyPacket_unnamed (h : pktPid b ≠ 0x1FFF) (hs : serviceOfPid s k (pktPid b) = none) :
    classifyPacket s k b = (enterFifo s k b false).1 := by
  simp [classifyPacket, h, hs]

/-- A packet enters a FIFO that has room (R12). -/
theorem enterFifo_of_room (h : (s.lane k).fifo.length < 16384) (m : Bool) : enterFifo s k b m =
    (s.setLane k { s.lane k with fifo := (s.lane k).fifo ++ [{ pkt := b, stamp := s.localCount, resume := m }] }, true) := by
  simp [enterFifo, h]

/-- A full FIFO drops it: OVERRUN, with its event at the first drop (R12). -/
theorem enterFifo_of_full (h : 16384 ≤ (s.lane k).fifo.length) (m : Bool) : enterFifo s k b m =
    (if (s.lane k).overrun then s.setLane k { s.lane k with overrun := true }
      else (s.setLane k { s.lane k with overrun := true }).pushAll (.overrun k), false) := by
  simp [enterFifo, Nat.not_lt.mpr h]

/-- Entering the FIFO changes its lane and the queues. -/
theorem enterFifo_frame (m : Bool) : (enterFifo s k b m).1 =
    { s with lanes := (enterFifo s k b m).1.lanes, boxes := (enterFifo s k b m).1.boxes } := by
  unfold enterFifo
  dsimp only
  repeat' split
  all_goals rfl

theorem enterFifo_lane_ne (m : Bool) {j : Nat} (h : j ≠ k) : (enterFifo s k b m).1.lane j = s.lane j := by
  rcases Nat.lt_or_ge (s.lane k).fifo.length 16384 with hl | hl
  · rw [enterFifo_of_room hl, State.lane_setLane, if_neg h]
  · rw [enterFifo_of_full hl]
    dsimp only
    split <;> simp [State.lane_setLane, h]

/-- The first packet that a full FIFO drops queues OVERRUN at every port with room (R12, R193). -/
theorem overrun_mem (hl : 16384 ≤ (s.lane k).fifo.length) (ho : (s.lane k).overrun = false) (p : PortId)
    (hp : (s.box p).queue.length < 32) (m : Bool) : Event.overrun k ∈ ((enterFifo s k b m).1.box p).queue := by
  rw [enterFifo_of_full hl]
  simp only [ho, Bool.false_eq_true, if_false, State.box_pushAll, State.setLane_box]
  exact mem_pushBox _ _ hp

/-- Settles O14: presence first, then BYPASS, the null packet or the FIFO; `rest` leaves lanes and clocks. -/
theorem arrivingPacketIsSentOrQueued : Obligations.ArrivingPacketIsSentOrQueued := by
  refine ⟨⟨fun s k b h => ?_, fun s k b hr hb hm => ?_⟩, fun s k b hr hb hm => ?_⟩
  · exact congrArg Host.Outcome.next (if_pos (.inr h))
  · refine ⟨packetArrival s k.val b, rfl, ?_⟩
    rw [packetArrival_bypass hr hb hm]
    refine ⟨?_, ?_, fun j hj => ?_, fun p => ?_⟩
    · rw [acceptInput_frame]
      rfl
    · rw [State.lane_setLane_self, acceptInput_lane, if_pos rfl]
      rfl
    · rw [State.lane_setLane, if_neg hj, acceptInput_lane, if_neg hj]
    · exact acceptInput_box s k.val p
  · let v := acceptInput s k.val
    have hv : v.lane k.val = (s.lane k.val).seen s.localCount := by rw [acceptInput_lane, if_pos rfl]
    have K : Kept (classifyPacket v k.val b) (rest (classifyPacket v k.val b)) := Kept.rest (Kept.refl _)
    refine ⟨packetArrival s k.val b, rfl, ?_⟩
    rw [packetArrival_running hr hb hm]
    refine ⟨fun h0 => ?_, fun h0 hs => ⟨fun hl => ?_, fun hl => ?_⟩, fun h => ?_⟩
    · rw [K.lane, classifyPacket_null h0]
      exact hv
    · have hlv : (v.lane k.val).fifo.length < 16384 := by rw [hv]; exact hl
      rw [K.lane, classifyPacket_unnamed h0 (by simpa [v] using hs), enterFifo_of_room hlv]
      simp [hv, v, Lane.seen]
    · have hlv : 16384 ≤ (v.lane k.val).fifo.length := by rw [hv]; exact hl
      have hc := classifyPacket_unnamed (s := v) h0 (by simpa [v] using hs)
      refine ⟨?_, fun ho p hp => ?_⟩
      · rw [K.lane, hc, enterFifo_of_full hlv]
        dsimp only
        split <;> simp [hv, Lane.seen]
      · refine (K.grows p).subset ?_
        rw [hc]
        refine overrun_mem hlv (by rw [hv]; exact ho) p ?_ false
        rw [acceptInput_box]
        split
        · omega
        · have := pushBox_length_le (s.box p) (.inputPresent k.val)
          omega
    · have hc : (∀ j, j ≠ k.val → (classifyPacket v k.val b).lane j = s.lane j) ∧ (classifyPacket v k.val b).services = s.services := by
        have hj : ∀ j, j ≠ k.val → v.lane j = s.lane j := fun j hj => by rw [acceptInput_lane, if_neg hj]
        by_cases h0 : pktPid b = 0x1FFF
        · rw [classifyPacket_null h0]
          exact ⟨hj, acceptInput_services s k.val⟩
        · rw [classifyPacket_unnamed h0 (by simpa [v] using h.resolve_left h0)]
          refine ⟨fun j h => (enterFifo_lane_ne false h).trans (hj j h), ?_⟩
          rw [enterFifo_frame]
          exact acceptInput_services s k.val
      refine ⟨fun j hj => (K.lane j).trans (hc.1 j hj), fun i => (K.clk i).trans ?_⟩
      rw [State.svc, hc.2]
      rfl

end Sys2Proof.Machine
end

section
/-! The protection locks under the acts of the splice engine, the scheduler, the alert unit and the arbiter: none of them sets or
clears one (R130). -/

namespace Sys2Proof.Machine

/-- The two locks of the part's copy of the protection record (R130). -/
def State.locks (s : State) : Bool × Bool := (s.flash.prot.ingestLock, s.flash.prot.eraseLock)

variable (s : State)

/-! ### The basic updates -/

@[simp] theorem State.setLane_locks (k : Nat) (l : Lane) : (s.setLane k l).locks = s.locks := rfl
@[simp] theorem State.setSvc_locks (i : Nat) (v : Service) : (s.setSvc i v).locks = s.locks := rfl
@[simp] theorem State.modSvc_locks (i : Nat) (f : Service → Service) : (s.modSvc i f).locks = s.locks := rfl
@[simp] theorem State.modSp_locks (i : Nat) (f : SpliceRec → SpliceRec) : (s.modSp i f).locks = s.locks := rfl
@[simp] theorem State.setEntry_locks (n : Nat) (e : Option Entry) : (s.setEntry n e).locks = s.locks := rfl
@[simp] theorem State.modEntry_locks (n : Nat) (f : Entry → Entry) : (s.modEntry n f).locks = s.locks := rfl
@[simp] theorem State.setAlert_locks (r : Nat) (a : AlertRec) : (s.setAlert r a).locks = s.locks := rfl
@[simp] theorem State.modAlert_locks (r : Nat) (f : AlertRec → AlertRec) : (s.modAlert r f).locks = s.locks := rfl
@[simp] theorem State.setPreload_locks (j : Nat) (q : Preload) : (s.setPreload j q).locks = s.locks := rfl
@[simp] theorem State.setClip_locks (c : Nat) (r : Option ClipRec) : (s.setClip c r).locks = s.locks := rfl
@[simp] theorem State.addRef_locks (c : Nat) : (s.addRef c).locks = s.locks := rfl
@[simp] theorem State.dropRef_locks (c : Nat) : (s.dropRef c).locks = s.locks := rfl
@[simp] theorem State.setIngest_locks (p : PortId) (g : Ingest) : (s.setIngest p g).locks = s.locks := rfl
@[simp] theorem State.setCheck_locks (p : PortId) (c : Option Check) : (s.setCheck p c).locks = s.locks := rfl
@[simp] theorem State.setLink_locks (p : PortId) (l : Link) : (s.setLink p l).locks = s.locks := rfl
@[simp] theorem State.setBox_locks (p : PortId) (b : Box) : (s.setBox p b).locks = s.locks := rfl
@[simp] theorem State.push_locks (p : PortId) (e : Event) : (s.push p e).locks = s.locks := rfl
@[simp] theorem State.pushAll_locks (e : Event) : (s.pushAll e).locks = s.locks := by simp [State.pushAll]
@[simp] theorem State.fresh_locks : s.fresh.2.locks = s.locks := rfl
@[simp] theorem answer_locks (p : PortId) (st : Status) (b : List Byte) : (answer s p st b).locks = s.locks := rfl

/-- A change of the flash registers that leaves the record leaves the locks. -/
@[simp] theorem State.withFlash_locks {f : Flash} (h : f.prot = s.flash.prot) : (s.withFlash f).locks = s.locks := by
  simp [State.locks, h]
@[simp] theorem State.modFlash_locks {f : Flash → Flash} (h : (f s.flash).prot = s.flash.prot) : (s.modFlash f).locks = s.locks := by
  simp [State.locks, h]
@[simp] theorem State.orphan_locks (w : Requester → Bool) : (s.modFlash (fun f => f.orphan w)).locks = s.locks := rfl
@[simp] theorem State.toCurrent_locks (i : Nat) : (s.modFlash (fun f => f.toCurrent i)).locks = s.locks := rfl
@[simp] theorem State.removeClip_locks (r : ClipRec) (l : List Nat) (j : Option Nat) : (s.removeClip r l j).locks = s.locks := by
  simp [State.locks, State.removeClip]

/-- What leaves the locks at each turn leaves them along a list. -/
theorem foldl_locks {β : Type} {f : State → β → State} (h : ∀ s b, (f s b).locks = s.locks) (l : List β) :
    (l.foldl f s).locks = s.locks := by
  induction l generalizing s with
  | nil => rfl
  | cons b r ih => exact (ih _).trans (h s b)

@[simp] theorem offerCondition_locks (i : Nat) (c : Cond) (p : PortId) : (offerCondition s i c p).locks = s.locks := by
  rw [offerCondition_frame]; rfl
@[simp] theorem raise_locks (i : Nat) (c : Cond) : (raise s i c).locks = s.locks := by
  rw [raise_frame]; rfl
@[simp] theorem raiseIf_locks (b : Bool) (i : Nat) (c : Cond) : (raiseIf b s i c).locks = s.locks := by
  cases b <;> simp [raiseIf]

/-! ### The splice engine's basic acts and the scheduler -/

@[simp] theorem discardRole_locks (i : Nat) (r : Role) : (discardRole s i r).locks = s.locks := by simp [discardRole]
@[simp] theorem discardSeeking_locks (i : Nat) (o : Owner) : (discardSeeking s i o).locks = s.locks := by
  unfold discardSeeking
  repeat' split
  all_goals simp
@[simp] theorem placeInst_locks (i : Nat) (q : InstReq) : (placeInst s i q).locks = s.locks := by
  unfold placeInst
  repeat' split
  all_goals simp
@[simp] theorem requestNext_locks (i : Nat) (q : InstReq) : (requestNext s i q).locks = s.locks := by
  unfold requestNext
  repeat' split
  all_goals simp
@[simp] theorem handE_locks (i e : Nat) : (handE s i e).locks = s.locks := by
  unfold handE
  split <;> simp
@[simp] theorem awaitLead_locks (i : Nat) (b : Bool) : (awaitLead s i b).locks = s.locks := rfl
@[simp] theorem endEntry_locks (e : Entry) (r : EntryResult) : (endEntry s e r).locks = s.locks := by
  unfold endEntry
  rw [State.setEntry_locks, foldl_locks _ State.dropRef_locks, State.push_locks]
  split <;> simp
@[simp] theorem demote_locks (e : Entry) : (demote s e).locks = s.locks := by simp [demote]
@[simp] theorem armRun_locks (n : Nat) : (armRun s n).1.locks = s.locks := by
  unfold armRun
  dsimp only
  repeat' split
  all_goals simp
@[simp] theorem arbiterPass_locks (l : List Nat) (d : Bool) : (arbiterPass l s d).1.locks = s.locks := by
  induction l generalizing s d with
  | nil => rfl
  | cons n r ih =>
    unfold arbiterPass
    dsimp only
    repeat' split
    all_goals simp [ih]
@[simp] theorem arbiterLoop_locks (f k : Nat) : (arbiterLoop f s k).locks = s.locks := by
  induction f generalizing s with
  | zero => rfl
  | succ f ih =>
    unfold arbiterLoop
    dsimp only
    split <;> simp [ih]
@[simp] theorem poolFreed_locks (k : Nat) : (poolFreed s k).locks = s.locks := by rw [poolFreed, arbiterLoop_locks]
@[simp] theorem armAndArbitrate_locks (n : Nat) : (armAndArbitrate s n).locks = s.locks := by
  unfold armAndArbitrate
  dsimp only
  split <;> simp
@[simp] theorem reevalList_locks (c : WaitCause) (l : List Nat) : (reevalList c l s).locks = s.locks := by
  induction l generalizing s with
  | nil => rfl
  | cons n r ih =>
    unfold reevalList
    rw [ih]
    split <;> simp
@[simp] theorem reeval_locks (i : Nat) (c : WaitCause) : (reeval s i c).locks = s.locks := by rw [reeval, reevalList_locks]
@[simp] theorem afterEnd_locks (i : Nat) : (afterEnd s i).locks = s.locks := by simp [afterEnd]
@[simp] theorem endAndRelease_locks (e : Entry) (r : EntryResult) : (endAndRelease s e r).locks = s.locks := by
  unfold endAndRelease
  dsimp only
  split <;> simp
@[simp] theorem fireDue_locks (i : Nat) : (fireDue s i).locks = s.locks := by
  refine foldl_locks s (fun s n => ?_) _
  repeat' split
  all_goals simp
@[simp] theorem firstLock_locks (i : Nat) : (firstLock s i).locks = s.locks := by
  refine foldl_locks s (fun s n => ?_) _
  repeat' split
  all_goals simp
@[simp] theorem setE_locks (n e : Nat) : (setE s n e).locks = s.locks := by
  unfold setE
  split <;> simp
@[simp] theorem activate_locks (n x d : Nat) (v : Seal) : (activate s n x d v).locks = s.locks := by
  unfold activate
  dsimp only
  repeat' split
  all_goals simp
@[simp] theorem podAdvance_locks (n d : Nat) (v : Seal) : (podAdvance s n d v).locks = s.locks := by
  unfold podAdvance
  dsimp only
  repeat' split
  all_goals simp
@[simp] theorem podEnd_locks (n d : Nat) (v : Seal) : (podEnd s n d v).locks = s.locks := by
  unfold podEnd keepAwaiting
  dsimp only
  repeat' split
  all_goals simp
@[simp] theorem returnEnded_locks (e : Entry) (b : Bool) (p : Option Nat) : (returnEnded s e b p).locks = s.locks := by
  unfold returnEnded
  dsimp only
  repeat' split
  all_goals simp

/-! ### The alert unit -/

@[simp] theorem holdTarget_locks (r i : Nat) : (holdTarget s r i).locks = s.locks := rfl
@[simp] theorem takeService_locks (r i : Nat) : (takeService s r i).locks = s.locks := by
  unfold takeService
  dsimp only
  split <;> simp
@[simp] theorem endRecord_locks (r : Nat) (c : EndCause) : (endRecord s r c).locks = s.locks := by simp [endRecord]
@[simp] theorem testRecord_locks (r : Nat) : (testRecord s r).locks = s.locks := by
  unfold testRecord
  dsimp only
  repeat' split
  all_goals simp
@[simp] theorem passOn_locks (i : Nat) : (passOn s i).locks = s.locks := by
  unfold passOn
  repeat' split
  all_goals simp
@[simp] theorem leaveHeld_locks (r i : Nat) (b : Bool) : (leaveHeld s r i b).locks = s.locks := rfl
@[simp] theorem depart_locks (r i : Nat) (b : Bool) : (depart s r i b).locks = s.locks := by simp [depart]
@[simp] theorem alertCut_locks (r i : Nat) : (alertCut s r i).locks = s.locks := by
  unfold alertCut
  dsimp only
  repeat' split
  all_goals simp
@[simp] theorem alertE_locks (r i e : Nat) : (alertE s r i e).locks = s.locks := by simp [alertE]
@[simp] theorem endTarget_locks (r : Nat) (t : Target) : (endTarget s r t).locks = s.locks := by
  unfold endTarget
  dsimp only
  repeat' split
  all_goals simp
@[simp] theorem endAlert_locks (r : Nat) (c : EndCause) (m : Nat) : (endAlert s r c m).locks = s.locks := by
  unfold endAlert
  rw [testRecord_locks, foldl_locks _ (fun s t => endTarget_locks s r t), State.modAlert_locks]

/-! ### Cuts, returns and damaged clips -/

@[simp] theorem reportCut_locks (i : Nat) (o : Owner) (x d : Nat) (v : Seal) : (reportCut s i o x d v).locks = s.locks := by
  unfold reportCut
  repeat' split
  all_goals simp
@[simp] theorem handOverComp_locks (i c : Nat) : (handOverComp s i c).locks = s.locks := by
  unfold handOverComp
  split <;> simp
@[simp] theorem networkCut_locks (i c : Nat) (n : Inst) (x : Nat) : (networkCut s i c n x).locks = s.locks := by
  simp [networkCut]
@[simp] theorem componentCut_locks (i c : Nat) : (componentCut s i c).locks = s.locks := by simp [componentCut]
@[simp] theorem beginReturn_locks (i : Nat) : (beginReturn s i).locks = s.locks := by
  unfold beginReturn
  dsimp only
  repeat' split
  all_goals simp
@[simp] theorem resumeComp_locks (i c : Nat) : (resumeComp s i c).locks = s.locks := by simp [resumeComp]
@[simp] theorem finishReturn_locks (i : Nat) : (finishReturn s i).locks = s.locks := by
  unfold finishReturn
  dsimp only
  repeat' split
  all_goals simp
@[simp] theorem clipCut_locks (i c : Nat) (n : Inst) (x w : Nat) : (clipCut s i c n x w).locks = s.locks := by simp [clipCut]
@[simp] theorem exhaustCut_locks (i : Nat) (o n : Inst) : (exhaustCut s i o n).locks = s.locks := by
  unfold exhaustCut
  dsimp only
  split <;> simp
@[simp] theorem startEmergency_locks (i : Nat) (o : Owner) : (startEmergency s i o).locks = s.locks := by
  unfold startEmergency
  dsimp only
  repeat' split
  all_goals simp
@[simp] theorem instanceFault_locks (i : Nat) (r : Role) (n : Inst) : (instanceFault s i r n).locks = s.locks := by
  unfold instanceFault
  repeat' split
  all_goals simp
@[simp] theorem faultArmed_locks (c : Nat) : (faultArmed s c).locks = s.locks := by
  refine foldl_locks s (fun s n => ?_) _
  repeat' split
  all_goals simp
@[simp] theorem markDamaged_locks (c : Nat) : (markDamaged s c).locks = s.locks := by
  unfold markDamaged
  repeat' split
  · rw [faultArmed_locks]
    exact State.modFlash_locks _ rfl
  all_goals rfl

/-! ### The emission head and `settle` -/

theorem examineCur_locks {i : Nat} {n : Inst} {b : Pkt} {due : Nat} {u : State} (h : examineCur s i n b due = some u) :
    u.locks = s.locks := by
  unfold examineCur at h
  dsimp only at h
  repeat' split at h
  all_goals first | cases h; simp [stopCur] | cases h
theorem examineNext_locks {i : Nat} {n : Inst} {b : Pkt} {u : State} (h : examineNext s i n b = some u) : u.locks = s.locks := by
  unfold examineNext at h
  repeat' split at h
  all_goals first | cases h; simp | cases h
@[simp] theorem placeHead_locks (i : Nat) (r : Role) (n : Inst) (b : Pkt) (d : Nat) : (placeHead s i r n b d).locks = s.locks := by
  unfold placeHead
  repeat' split
  all_goals simp
@[simp] theorem exhaust_locks (i : Nat) : (exhaust s i).locks = s.locks := by
  unfold exhaust
  repeat' split
  all_goals simp
@[simp] theorem repeatEnd_locks (i : Nat) : (repeatEnd s i).locks = s.locks := by
  rcases repeatEnd_cases s i with h | ⟨o, nx, r, -, -, -, -, -, -, -, h⟩ <;> rw [h]
  simp [handClipEnd, keepAwaiting]
@[simp] theorem takePacket_locks (i : Nat) (r : Role) (n : Inst) (b : Pkt) : (takePacket s i r n b).locks = s.locks := by
  unfold takePacket
  extract_lets due wrapped src m u
  have hu : u.locks = s.locks := by simp only [u, raiseIf_locks, State.modSp_locks]
  cases r with
  | current =>
    dsimp only
    rw [exhaust_locks, repeatEnd_locks]
    cases h : examineCur u i m b due with
    | some v => exact (examineCur_locks u h).trans hu
    | none => exact (placeHead_locks u _ _ _ _ _).trans hu
  | next =>
    dsimp only
    cases h : examineNext u i m b with
    | some v => exact (examineNext_locks u h).trans hu
    | none => exact (placeHead_locks u _ _ _ _ _).trans hu

/-- Every act that `settle` takes leaves the locks. -/
theorem svcStep_locks {i : Nat} {u : State} (h : svcStep s i = some u) : u.locks = s.locks := by
  simp only [svcStep, Option.or_eq_some_iff] at h
  rcases h with h | ⟨-, h | ⟨-, h | ⟨-, h | ⟨-, h | ⟨-, h | ⟨-, h⟩⟩⟩⟩⟩⟩
  · unfold serveWaiting at h
    split at h <;> cases h
    simp
  · unfold clipEndStep ownerStep podStep loopStep at h
    dsimp only at h
    repeat' split at h
    all_goals first | cases h; simp [handClipEnd, keepAwaiting] | cases h
  · unfold lateExhaust at h
    repeat' split at h
    all_goals first | cases h; simp | cases h
  · unfold finishOrPromote at h
    dsimp only at h
    repeat' split at h
    all_goals first | cases h; simp | cases h
  · split at h <;> cases h
    simp
  · unfold fillHead at h
    dsimp only at h
    repeat' split at h
    all_goals first | cases h; simp | cases h
  · unfold choose at h
    repeat' split at h
    all_goals first | cases h; simp | cases h

@[simp] theorem settleLoop_locks (f : Nat) : (settleLoop f s).locks = s.locks := by
  have ha : ∀ (l : List Nat) (s u : State), anyStep s l = some u → u.locks = s.locks := by
    intro l
    induction l with
    | nil =>
      intro s u h
      simp [anyStep] at h
    | cons i r ih =>
      intro s u h
      unfold anyStep at h
      split at h
      · next hs => cases h; exact svcStep_locks s hs
      · exact ih s u h
  induction f generalizing s with
  | zero => rfl
  | succ f ih =>
    unfold settleLoop
    split
    · next h => exact (ih _).trans (ha _ _ _ h)
    · rfl
@[simp] theorem settle_locks : (settle s).locks = s.locks := by rw [settle, settleLoop_locks]

end Sys2Proof.Machine
end

section
/-! The protection locks under every row: which rows may set one and which may clear one (R130, R135, R143, R183). -/

namespace Sys2Proof.Machine

variable (s : State)

/-! ### The ends of operations and the arbiter -/

@[simp] theorem opOver_locks : (opOver s).locks = s.locks := rfl
@[simp] theorem clearIngest_locks (p : PortId) : (clearIngest s p).locks = s.locks := by simp [clearIngest]
@[simp] theorem endIngest_locks (p : PortId) (b : Option Nat) : (endIngest s p b).locks = s.locks := by
  unfold endIngest
  split <;> simp
@[simp] theorem addBad_locks (b : Nat) : (s.modFlash (fun f => f.addBad b)).locks = s.locks := rfl
@[simp] theorem setFree_locks (r : Region) (l : List Nat) (g : Flash → List Nat) :
    (s.modFlash (fun f => f.setFree r (g f ++ l))).locks = s.locks := State.modFlash_locks s (by simp)
@[simp] theorem ingestFailed_locks (p : PortId) (b : Nat) (x : Bool) : (ingestFailed s p b x).locks = s.locks := by
  unfold ingestFailed
  dsimp only
  repeat' split
  all_goals simp
@[simp] theorem retestHeld_locks (p : PortId) : (retestHeld s p).locks = s.locks := by
  unfold retestHeld
  dsimp only
  repeat' split
  all_goals simp
@[simp] theorem sealDone_locks (p : PortId) (v : Seal) : (sealDone s p v).locks = s.locks := by
  unfold sealDone
  dsimp only
  split <;> simp
@[simp] theorem ingestPassed_locks (p : PortId) (k : ProgKind) : (ingestPassed s p k).locks = s.locks := by
  unfold ingestPassed
  dsimp only
  repeat' split
  all_goals simp
@[simp] theorem markerDone_locks (o : FlashOp) (e : OpEnd) : (markerDone s o e).locks = s.locks := by
  unfold markerDone
  repeat' split
  all_goals simp

/-- A protection program that does not succeed raises the count alone (R141, R183). -/
theorem protectionDone_locks (i l : Bool) {e : OpEnd} (h : e ≠ .pass) : (protectionDone s i l e).locks = s.locks := by
  unfold protectionDone
  dsimp only
  rw [if_neg h]
  rfl

/-- The end of a program leaves the locks, unless it is the success of a protection program (R183). -/
theorem programEnded_locks (o : FlashOp) {k : ProgKind} {e : OpEnd} (b : Bool) (h : e = .pass → ∀ i l, k ≠ .protection i l) :
    (programEnded s o k e b).locks = s.locks := by
  have hs : ∀ n, (s.modFlash (fun f => f.setIndex o.block n)).locks = s.locks := fun n => State.modFlash_locks s rfl
  unfold programEnded
  extract_lets u
  have hu : u.locks = s.locks := by
    unfold u
    repeat' split
    all_goals rfl
  have hp : ∀ i l, k = .protection i l → (protectionDone u i l e).locks = s.locks := fun i l hk =>
    (protectionDone_locks u i l fun he => h he i l hk).trans hu
  repeat' split
  all_goals first | exact hu | exact hp _ _ rfl | rw [ingestFailed_locks, hu] | rw [ingestPassed_locks, hu] | rw [markerDone_locks, hu]

@[simp] theorem consumeRequest_locks (q : Requester) : (consumeRequest s q).locks = s.locks := by
  unfold consumeRequest
  split <;> simp

/-- A grant starts an operation, or ends a program as failed: neither sets a lock. -/
theorem grant_locks (c j : Nat) (o : FlashOp) : (grant s c j o).1.locks = s.locks := by
  have hs : ∀ u : State, (u.modFlash (fun f => { f with rr := Table.set 0 f.rr c (j + 1) })).locks = u.locks := fun _ => rfl
  unfold grant
  dsimp only
  repeat' split
  · refine (State.modFlash_locks _ ?_).trans ((hs _).trans (consumeRequest_locks s _))
    simp
  · exact (programEnded_locks _ o (e := .fail) false fun h => by cases h).trans ((hs _).trans (consumeRequest_locks s _))
  · exact (State.modFlash_locks _ rfl).trans ((hs _).trans (consumeRequest_locks s _))

@[simp] theorem arbLoop_locks (k : Option Nat) (f : Nat) : (arbLoop k f s).locks = s.locks := by
  induction f generalizing s with
  | zero => rfl
  | succ f ih =>
    unfold arbLoop
    split
    · rfl
    · split
      · rfl
      · next c j o _ =>
        have hg := grant_locks s c j o
        dsimp only
        split
        · rw [ih, settle_locks, hg]
        · exact hg

@[simp] theorem rest_locks : (rest s).locks = s.locks := by rw [rest, arbLoop_locks, settle_locks]
@[simp] theorem restAfter_locks (o : FlashOp) : (restAfter o s).locks = s.locks := by
  unfold restAfter
  split
  · rw [arbLoop_locks, arbLoop_locks, settle_locks]
  · exact rest_locks s

end Sys2Proof.Machine
end

section
/-! The protection locks under the rows of packets, lanes, the merger, passing time and the flash channel (R130, R143, R183). -/

namespace Sys2Proof.Machine

variable (s : State)


/-! ### PACKET_ARRIVAL -/

@[simp] theorem advanceTo_locks (x : Nat) : (advanceTo s x).locks = s.locks := by
  rw [advanceTo_eq]
  rfl
@[simp] theorem acceptInput_locks (k : Nat) : (acceptInput s k).locks = s.locks := by
  unfold acceptInput
  dsimp only
  repeat' split
  all_goals simp
@[simp] theorem latchSearches_locks (i : Nat) : (latchSearches s i).locks = s.locks := rfl
@[simp] theorem syncTimers_locks (i : Nat) : (syncTimers s i).locks = s.locks := rfl
@[simp] theorem observePcr_locks (i : Nat) (b : Pkt) : (observePcr s i b).locks = s.locks := by
  unfold observePcr
  dsimp only
  repeat' split
  all_goals simp
@[simp] theorem leadSample_locks (i x : Nat) : (leadSample s i x).locks = s.locks := by
  unfold leadSample
  dsimp only
  repeat' split
  all_goals simp
@[simp] theorem observeComp_locks (i j : Nat) (b : Pkt) : (observeComp s i j b).locks = s.locks := by
  unfold observeComp
  dsimp only
  repeat' split
  all_goals simp
@[simp] theorem observePacket_locks (i j : Nat) (b : Pkt) : (observePacket s i j b).locks = s.locks := by
  unfold observePacket
  dsimp only
  repeat' split
  all_goals simp
@[simp] theorem fixReturn_locks (i x : Nat) : (fixReturn s i x).locks = s.locks := by
  unfold fixReturn
  repeat' split
  all_goals simp
@[simp] theorem decision_locks (i j : Nat) (x : Option Nat) : (decide_ s i j x).1.locks = s.locks := by
  unfold decide_
  extract_lets lead u
  have hu : u.locks = s.locks := by
    unfold u
    repeat' split
    all_goals simp
  repeat' split
  all_goals simp [hu]
@[simp] theorem enterFifo_locks (k : Nat) (b : Pkt) (m : Bool) : (enterFifo s k b m).1.locks = s.locks := by
  unfold enterFifo
  dsimp only
  repeat' split
  all_goals simp
@[simp] theorem enterComponent_locks (k i j : Nat) (b : Pkt) : (enterComponent s k i j b).locks = s.locks := by
  unfold enterComponent
  dsimp only
  repeat' split
  all_goals simp
@[simp] theorem componentPacket_locks (k i j : Nat) (b : Pkt) : (componentPacket s k i j b).locks = s.locks := by
  unfold componentPacket
  dsimp only
  repeat' split
  all_goals simp
@[simp] theorem outCue_locks (i : Nat) (c : CueRec) (f : Byte) : (outCue s i c f).locks = s.locks := by
  unfold outCue
  split
  · rfl
  · rw [foldl_locks]
    · simp
    · intro s e
      repeat' split
      all_goals simp
@[simp] theorem inCue_locks (i : Nat) (c : CueRec) : (inCue s i c).locks = s.locks := by
  unfold inCue
  repeat' split
  all_goals simp
@[simp] theorem cancelCue_locks (i : Nat) (c : CueRec) : (cancelCue s i c).locks = s.locks := by
  have hf : ((boundEntries s i c.id).foldl (fun s e => endEntry s e .cancelled) s).locks = s.locks :=
    foldl_locks s (fun s e => endEntry_locks s e .cancelled) _
  unfold cancelCue
  dsimp only
  split <;> simp [hf]
@[simp] theorem cuePacket_locks (i : Nat) (b : Pkt) : (cuePacket s i b).locks = s.locks := by
  unfold cuePacket
  dsimp only
  repeat' split
  all_goals simp
@[simp] theorem cuePidPacket_locks (k i : Nat) (b : Pkt) : (cuePidPacket s k i b).locks = s.locks := by
  unfold cuePidPacket
  dsimp only
  repeat' split
  all_goals simp
@[simp] theorem classifyPacket_locks (k : Nat) (b : Pkt) : (classifyPacket s k b).locks = s.locks := by
  unfold classifyPacket
  dsimp only
  repeat' split
  all_goals simp
@[simp] theorem packetArrival_locks (k : Nat) (b : Pkt) : (packetArrival s k b).locks = s.locks := by
  unfold packetArrival
  dsimp only
  repeat' split
  all_goals simp
@[simp] theorem inputLost_locks (k : Nat) : (inputLost s k).locks = s.locks := by
  unfold inputLost
  extract_lets l
  split
  · split
    · rfl
    · exact (State.pushAll_locks _ _).trans ((State.setLane_locks _ _ _).trans (advanceTo_locks s _))
  · rfl
@[simp] theorem pcrLossTimeout_locks (i : Nat) : (pcrLossTimeout s i).locks = s.locks := by
  unfold pcrLossTimeout
  repeat' split
  all_goals simp

/-! ### The merger -/

@[simp] theorem dropHead_locks (i : Nat) : (dropHead s i).locks = s.locks := by simp [dropHead]
@[simp] theorem lateTests_locks (f k i x : Nat) : (lateTests f s k i x).locks = s.locks := by
  induction f generalizing s with
  | zero => rfl
  | succ f ih =>
    unfold lateTests
    repeat' split
    all_goals simp [ih]
@[simp] theorem handBack_locks (k q : Nat) : (handBack s k q).locks = s.locks := by
  unfold handBack
  dsimp only
  repeat' split
  all_goals simp
@[simp] theorem sendChoice_locks (k : Nat) (c : Choice) : (sendChoice s k c).locks = s.locks := by
  unfold sendChoice sendNetwork sendClip
  dsimp only
  repeat' split
  all_goals simp
@[simp] theorem slot_locks (k : Nat) : (slot s k).locks = s.locks := by
  have hl : ∀ (l : List Nat) (u : State) (x : Nat),
      (l.foldl (fun s i => lateTests lateBound s k i x) u).locks = u.locks := fun l u x =>
    foldl_locks u (fun s i => lateTests_locks s _ k i x) l
  unfold slot
  dsimp only
  split
  · rfl
  · rw [rest_locks, State.setLane_locks, sendChoice_locks, hl, advanceTo_locks]

/-! ### The rows of passing time -/

@[simp] theorem timeTrigger_locks (n : Nat) : (timeTrigger s n).locks = s.locks := by
  unfold timeTrigger
  repeat' split
  all_goals simp
@[simp] theorem searchOverdue_locks (i : Nat) : (searchOverdue s i).locks = s.locks := by
  unfold searchOverdue
  repeat' split
  all_goals simp
@[simp] theorem latchReturn_locks (i : Nat) : (latchReturn s i).locks = s.locks := by
  unfold latchReturn
  dsimp only
  repeat' split
  all_goals simp
@[simp] theorem seekTimerExpiry_locks (i : Nat) : (seekTimerExpiry s i).locks = s.locks := by
  unfold seekTimerExpiry
  dsimp only
  repeat' split
  all_goals simp
@[simp] theorem returnOverdue_locks (i : Nat) : (returnOverdue s i).locks = s.locks := by
  unfold returnOverdue
  dsimp only
  repeat' split
  all_goals simp
@[simp] theorem alertExpiry_locks (r : Nat) : (alertExpiry s r).locks = s.locks := by
  unfold alertExpiry
  dsimp only
  repeat' split
  all_goals simp

/-! ### Lanes (R2 to R5) -/

@[simp] theorem cancelAll_locks (i : Nat) : (cancelAll s i).locks = s.locks := by
  refine foldl_locks s (fun s n => ?_) _
  split <;> simp
@[simp] theorem startLane_locks (k : Nat) (c : LaneSettings) : (startLane s k c).locks = s.locks := by
  unfold startLane
  rw [poolFreed_locks, foldl_locks]
  · rfl
  · exact fun _ _ => rfl
@[simp] theorem stopLane_locks (k : Nat) (c : LaneSettings) : (stopLane s k c).locks = s.locks := by
  unfold stopLane
  rw [foldl_locks]
  · rfl
  · simp
@[simp] theorem adjustLane_locks (k : Nat) (c : LaneSettings) : (adjustLane s k c).locks = s.locks := by
  unfold adjustLane
  dsimp only
  split
  · rfl
  · split
    · simp
    · rw [foldl_locks _ fireDue_locks]
      simp
@[simp] theorem runConfigureLane_locks (a : LaneArgs) : (runConfigureLane a s).s.locks = s.locks := by
  rcases runConfigureLane_cases a s with h | h | h | ⟨-, h⟩ <;> rw [h]
  all_goals simp

/-! ### The flash channel -/

@[simp] theorem checkRelease_locks : (checkRelease s).locks = s.locks := by
  unfold checkRelease
  repeat' split
  all_goals rfl
@[simp] theorem jobBlock_locks (j : Option Nat) (b : Bool) : (jobBlock s j b).locks = s.locks := by
  unfold jobBlock
  dsimp only
  repeat' split
  all_goals simp
/-- The count of a release leaves the record (R185). -/
@[simp] theorem Flash.releaseCount_prot (f : Flash) (r : Region) (b : Bool) : (f.releaseCount r b).prot = f.prot := by
  unfold Flash.releaseCount
  split <;> rfl
@[simp] theorem eraseEnded_locks (r : Region) (b : Nat) (e : OpEnd) : (eraseEnded s r b e).locks = s.locks := by
  unfold eraseEnded
  dsimp only
  split
  · rfl
  · simp
  · simp
@[simp] theorem clearPreload_locks (j : Nat) : (clearPreload s j).locks = s.locks := by
  unfold clearPreload
  dsimp only
  repeat' split
  all_goals simp
@[simp] theorem readAheadDone_locks (o : FlashOp) (i : Nat) (x : Role) (r : ReadOutcome) : (readAheadDone s o i x r).locks = s.locks := by
  unfold readAheadDone
  repeat' split
  all_goals simp
@[simp] theorem preloadDone_locks (o : FlashOp) (j : Nat) (r : ReadOutcome) : (preloadDone s o j r).locks = s.locks := by
  unfold preloadDone
  dsimp only
  repeat' split
  all_goals simp
@[simp] theorem checksumDone_locks (o : FlashOp) (p : PortId) (r : ReadOutcome) : (checksumDone s o p r).locks = s.locks := by
  unfold checksumDone
  dsimp only
  repeat' split
  all_goals simp
@[simp] theorem orphanRead_locks (o : FlashOp) (r : ReadOutcome) : (orphanRead s o r).locks = s.locks := by
  unfold orphanRead
  repeat' split
  all_goals simp
@[simp] theorem readEnded_locks {o : FlashOp} (h : o.req ≠ .scan) (r : ReadOutcome) (m : Byte) : (readEnded s o r m).locks = s.locks := by
  unfold readEnded
  repeat' split
  case h_4 hq => exact absurd hq h
  all_goals simp

/-! ### The pins -/

@[simp] theorem holdLocked_locks (l : List Nat) : (holdLocked l s).locks = s.locks := by
  induction l generalizing s with
  | nil => rfl
  | cons i r ih => exact (ih _).trans (raiseIf_locks s _ i .hold)

end Sys2Proof.Machine
end

section
/-! The protection locks under the commands, the links, the pins and the flash channel's completions (R130, R135, R143, R183). -/

namespace Sys2Proof.Machine

variable (s : State)


/-! ### Commands (section 17) -/

@[simp] theorem ok_s (b : List Byte) : (ok s b).s = s := rfl
@[simp] theorem err_s (r : Status) : (err s r).s = s := rfl
@[simp] theorem toHunt_locks (p : PortId) : (toHunt s p).locks = s.locks := rfl
@[simp] theorem refuseFrame_locks (p : PortId) (c : Byte) (r : Status) : (refuseFrame s p c r).locks = s.locks := by
  unfold refuseFrame
  dsimp only
  repeat' split
  all_goals simp
@[simp] theorem openExchange_locks (p : PortId) (c : Nat) : (openExchange s p c).locks = s.locks := by
  rw [openExchange_eq]
  rfl
theorem Ans.done_locks (a : Ans) (p : PortId) : (a.done p).locks = a.s.locks := by
  unfold Ans.done
  split <;> simp
/-- A command leaves the locks when its owning rule does. -/
theorem command_locks (p : PortId) (c : Nat) {run : State → Ans} (h : ∀ u, (run u).s.locks = u.locks) :
    (command p c s run).locks = s.locks := by
  rcases command_cases s p c run with ⟨-, e⟩ | ⟨-, st, -, e⟩ | ⟨-, -, e⟩ <;> rw [e]
  · exact refuseFrame_locks s p _ st
  · rw [Ans.done_locks, h, openExchange_locks]
@[simp] theorem runIdentify_locks (p : PortId) (x : Nat) : (runIdentify p x s).s.locks = s.locks := by
  unfold runIdentify
  repeat' split
  all_goals simp
@[simp] theorem runReadStatus_locks (p : PortId) (x : Nat) : (runReadStatus p x s).s.locks = s.locks := by
  have hc : ∀ (u : State) (k : Nat), (clearOverrun u k).locks = u.locks := fun _ _ => rfl
  unfold runReadStatus
  split
  · rfl
  · simp [hc]
@[simp] theorem runPortRate_locks (p : PortId) (r x : Nat) : (runPortRate p r x s).s.locks = s.locks := by
  unfold runPortRate
  repeat' split
  all_goals simp
@[simp] theorem runReadEvents_locks (p : PortId) (n x : Nat) : (runReadEvents p n x s).s.locks = s.locks := by
  unfold runReadEvents
  repeat' split
  all_goals simp
@[simp] theorem runWatch_locks (p : PortId) (m : BitVec 48) (x : Nat) : (runWatch p m x s).s.locks = s.locks := by
  unfold runWatch
  repeat' split
  all_goals simp
@[simp] theorem restoreOld_locks (i : Nat) : (restoreOld s i).locks = s.locks := by
  unfold restoreOld
  repeat' split
  all_goals simp
@[simp] theorem removeService_locks (a : ServiceArgs) : (removeService a s).s.locks = s.locks := by
  unfold removeService
  repeat' split
  all_goals simp
@[simp] theorem runConfigureService_locks (a : ServiceArgs) : (runConfigureService a s).s.locks = s.locks := by
  unfold runConfigureService
  dsimp only
  repeat' split
  all_goals simp
@[simp] theorem runSetMasks_locks (i : Nat) (m : BitVec 16) (x : Nat) : (runSetMasks i m x s).s.locks = s.locks := by
  unfold runSetMasks
  repeat' split
  all_goals simp
@[simp] theorem runClearConditions_locks (i : Nat) (m : BitVec 16) (x : Nat) : (runClearConditions i m x s).s.locks = s.locks := by
  unfold runClearConditions
  repeat' split
  all_goals simp
@[simp] theorem runReadService_locks (i x : Nat) : (runReadService i x s).s.locks = s.locks := by
  unfold runReadService
  repeat' split
  all_goals simp
@[simp] theorem plainClear_locks (i : Nat) : (plainClear s i).locks = s.locks := rfl
@[simp] theorem stopSplice_locks (i : Nat) : (stopSplice s i).locks = s.locks := by
  unfold stopSplice
  simp
@[simp] theorem forcedReset_locks (i : Nat) : (forcedReset s i).locks = s.locks := by
  unfold forcedReset
  repeat' split
  all_goals simp
@[simp] theorem forcedClear_locks (i : Nat) : (forcedClear s i).locks = s.locks := by
  unfold forcedClear
  extract_lets s1 s2 s3 s4 s5
  have h2 : s2.locks = s.locks := by
    unfold s2
    split <;> simp [s1]
  have h4 : s4.locks = s.locks := by
    unfold s4
    split <;> simp [s3, h2]
  split <;> simp [s5, h4]
@[simp] theorem runClearService_locks (p : PortId) (i f x : Nat) : (runClearService p i f x s).s.locks = s.locks := by
  unfold runClearService
  dsimp only
  repeat' split
  all_goals simp
@[simp] theorem applyTrigger_locks (n : Nat) : (applyTrigger s n).locks = s.locks := by
  unfold applyTrigger
  repeat' split
  all_goals simp
@[simp] theorem runAddEntry_locks (p : PortId) (a : EntryArgs) : (runAddEntry p a s).s.locks = s.locks := by
  have hr : ∀ l : List Nat, (l.foldl State.addRef s).locks = s.locks := foldl_locks s State.addRef_locks
  unfold runAddEntry
  dsimp only
  repeat' split
  all_goals simp [hr]
@[simp] theorem cancelActive_locks (e : Entry) : (cancelActive s e).locks = s.locks := by
  unfold cancelActive
  dsimp only
  repeat' split
  all_goals simp
@[simp] theorem runCancelEntry_locks (p : PortId) (n x : Nat) : (runCancelEntry p n x s).s.locks = s.locks := by
  unfold runCancelEntry
  repeat' split
  all_goals simp
@[simp] theorem runReadEntry_locks (n x : Nat) : (runReadEntry n x s).s.locks = s.locks := by
  unfold runReadEntry
  repeat' split
  all_goals simp
@[simp] theorem runIngestOpen_locks (p : PortId) (a : IngestArgs) : (runIngestOpen p a s).s.locks = s.locks := by
  unfold runIngestOpen openIngest
  repeat' split
  all_goals simp
@[simp] theorem runIngestData_locks (p : PortId) (d : List Byte) : (runIngestData p d s).s.locks = s.locks := by
  unfold runIngestData takeData
  dsimp only
  repeat' split
  all_goals simp
@[simp] theorem runIngestClose_locks (p : PortId) (c d x : Nat) : (runIngestClose p c d x s).s.locks = s.locks := by
  unfold runIngestClose closeIngest
  dsimp only
  repeat' split
  all_goals simp
@[simp] theorem runIngestAbort_locks (p : PortId) (x : Nat) : (runIngestAbort p x s).s.locks = s.locks := by
  unfold runIngestAbort
  repeat' split
  all_goals simp
@[simp] theorem eraseClip_locks (p : PortId) (r : ClipRec) : (eraseClip s p r).locks = s.locks := by
  unfold eraseClip
  simp
@[simp] theorem runClipErase_locks (p : PortId) (c x : Nat) : (runClipErase p c x s).s.locks = s.locks := by
  unfold runClipErase
  repeat' split
  all_goals simp
@[simp] theorem runClipChecksum_locks (p : PortId) (c x : Nat) : (runClipChecksum p c x s).s.locks = s.locks := by
  unfold runClipChecksum
  repeat' split
  all_goals simp
@[simp] theorem runListDirectory_locks (c x : Nat) : (runListDirectory c x s).s.locks = s.locks := by
  unfold runListDirectory
  repeat' split
  all_goals simp
@[simp] theorem runReadClip_locks (c x : Nat) : (runReadClip c x s).s.locks = s.locks := by
  unfold runReadClip
  repeat' split
  all_goals simp
@[simp] theorem setPreloadClip_locks (j : Nat) (c : Option Nat) : (setPreloadClip s j c).locks = s.locks := by
  unfold setPreloadClip
  dsimp only
  repeat' split
  all_goals simp
@[simp] theorem runAlertPreload_locks (j n c x : Nat) : (runAlertPreload j n c x s).s.locks = s.locks := by
  unfold runAlertPreload
  dsimp only
  repeat' split
  all_goals simp
@[simp] theorem placeTarget_locks (r i : Nat) : (placeTarget s r i).locks = s.locks := by
  unfold placeTarget
  dsimp only
  repeat' split
  all_goals simp
@[simp] theorem activateAlert_locks (r : Nat) (a : AlertArgs) : (activateAlert s r a).locks = s.locks := by
  unfold activateAlert
  rw [foldl_locks _ fun s i => placeTarget_locks s r i]
  rfl
@[simp] theorem runAlertActivate_locks (a : AlertArgs) : (runAlertActivate a s).s.locks = s.locks := by
  unfold runAlertActivate
  dsimp only
  repeat' split
  all_goals simp
@[simp] theorem runAlertCancel_locks (i x : Nat) : (runAlertCancel i x s).s.locks = s.locks := by
  unfold runAlertCancel
  dsimp only
  repeat' split
  all_goals simp
@[simp] theorem runProtectionSet_locks (l : BitVec 8) (x : Nat) : (runProtectionSet l x s).s.locks = s.locks := by
  unfold runProtectionSet
  dsimp only
  repeat' split
  all_goals simp
@[simp] theorem startRelease_locks : (startRelease s).locks = s.locks := by
  unfold startRelease
  refine (State.modFlash_locks _ ?_).trans (foldl_locks s (fun s r => State.removeClip_locks s r _ _) _)
  simp
@[simp] theorem runProtectionRelease_locks (x : Nat) : (runProtectionRelease x s).s.locks = s.locks := by
  unfold runProtectionRelease
  dsimp only
  repeat' split
  all_goals simp
@[simp] theorem runReadProtection_locks (x : Nat) : (runReadProtection x s).s.locks = s.locks := by
  unfold runReadProtection
  dsimp only
  repeat' split
  all_goals simp
@[simp] theorem runTaken_locks (c : Instr) : (runTaken c s).s.locks = s.locks := by
  cases c
  all_goals simp [runTaken]

/-! ### The rows of the links -/

@[simp] theorem frameGap_locks (p : PortId) : (frameGap s p).locks = s.locks := by
  unfold frameGap
  extract_lets l
  split
  · rfl
  · exact (toHunt_locks _ p).trans (advanceTo_locks s _)
@[simp] theorem framingError_locks (p : PortId) : (framingError s p).locks = s.locks := by
  unfold framingError
  repeat' split
  all_goals simp
@[simp] theorem frameRefused_locks (p : PortId) (b : List Byte) (c : Byte) : (frameRefused s p b c).locks = s.locks := by
  unfold frameRefused
  repeat' split
  all_goals simp
@[simp] theorem replySent_locks (p : PortId) : (replySent s p).locks = s.locks := by
  unfold replySent
  repeat' split
  all_goals simp
@[simp] theorem receiveByte_locks (p : PortId) (b : Byte) : (receiveByte s p b).locks = s.locks := by
  unfold receiveByte completeFrame
  dsimp only
  repeat' split
  all_goals simp [Ans.done_locks]

/-! ### The pins and the flash channel -/

@[simp] theorem refLost_locks : (refLost s).locks = s.locks := by
  unfold refLost
  split
  · rfl
  · rw [holdLocked_locks, State.pushAll_locks]
    rfl
@[simp] theorem refRestored_locks : (refRestored s).locks = s.locks := by
  unfold refRestored restored
  repeat' split
  · rfl
  · rw [State.pushAll_locks]
    rfl
  · rfl
@[simp] theorem restoreCountGap_locks : (restoreCountGap s).locks = s.locks := by
  unfold restoreCountGap
  split <;> rfl
@[simp] theorem resetnAssert_locks : (resetnAssert s).locks = s.locks := by
  unfold resetnAssert
  rw [foldl_locks _ fun s p => State.setLink_locks s p _]
  rfl
/-- An erase that does not succeed leaves the locks (R142, R143). -/
theorem erased_locks (o : FlashOp) {e : OpEnd} (h : e ≠ .pass) : (erased s o e).locks = s.locks := by
  unfold erased
  split
  · exact eraseEnded_locks s _ _ _
  · cases e with
    | pass => exact absurd rfl h
    | fail => exact checkRelease_locks _
    | abort => rfl
  · rfl
@[simp] theorem supplyAbort_locks : (supplyAbort s).locks = s.locks := by
  unfold supplyAbort
  repeat' split
  · rfl
  · rw [programEnded_locks _ _ _ (fun h => by cases h), opOver_locks]
  · rw [erased_locks _ _ (by decide), opOver_locks]
  · rfl
@[simp] theorem lowsupplyAssert_locks : (lowsupplyAssert s).locks = s.locks := by
  unfold lowsupplyAssert
  repeat' split
  · rfl
  · rfl
  · rw [rest_locks, supplyAbort_locks, State.pushAll_locks]
    rfl
@[simp] theorem lowsupplyRelease_locks : (lowsupplyRelease s).locks = s.locks := by
  unfold lowsupplyRelease
  repeat' split
  · rfl
  · rfl
  · rw [rest_locks, State.pushAll_locks]
    rfl
@[simp] theorem eraseComplete_locks (b : Bool) : (eraseComplete s b).locks = s.locks := by
  unfold eraseComplete
  repeat' split
  all_goals simp
theorem opEnd_eq_pass (b : Bool) : opEnd b = .pass ↔ b = true := by cases b <;> simp [opEnd]

/-- The end of a program, unless a protection program succeeds. -/
theorem programComplete_locks {b : Bool}
    (h : b = true → ∀ o i e, s.flash.op = some o → o.kind ≠ .program (.protection i e)) : (programComplete s b).locks = s.locks := by
  unfold programComplete
  split
  · next o ho =>
    split
    · next k hk =>
      have hp := programEnded_locks (opOver s) o (k := k) (e := opEnd b) true fun he i l hkl =>
        h ((opEnd_eq_pass b).1 he) o i l ho (hk.trans (by rw [hkl]))
      rw [rest_locks, hp, opOver_locks]
    · rfl
  · rfl

/-- A protection program sets locks and clears none (R183). -/
theorem programComplete_lock {b i l : Bool} {o : FlashOp} (ho : s.flash.op = some o) (hk : o.kind = .program (.protection i l)) :
    ((s.locks).1 = true → ((programComplete s b).locks).1 = true) ∧ ((s.locks).2 = true → ((programComplete s b).locks).2 = true) := by
  have hp : programComplete s b = rest (programEnded (opOver s) o (.protection i l) (opEnd b) true) := by
    simp only [programComplete, ho, hk]
  have hk : Kept (opOver s) (programEnded (opOver s) o (.protection i l) (opEnd b) true) := by simp
  rw [hp, rest_locks]
  exact ⟨hk.flash.ingestLock, hk.flash.eraseLock⟩

theorem pageReadComplete_locks (h : ∀ o, s.flash.op = some o → o.req ≠ .scan) (r : ReadOutcome) (m : Byte) :
    (pageReadComplete s r m).locks = s.locks := by
  unfold pageReadComplete
  split
  · next o ho =>
    split
    · rw [restAfter_locks, readEnded_locks _ (h o ho), opOver_locks]
    · rfl
  · rfl

theorem flashOpTimeout_locks (h : ∀ o, s.flash.op = some o → o.req ≠ .scan) : (flashOpTimeout s).locks = s.locks := by
  unfold flashOpTimeout
  split
  · next o ho =>
    rw [restAfter_locks]
    unfold opTimedOut
    split
    · rw [if_neg (h o ho), readEnded_locks _ (h o ho), opOver_locks, advanceTo_locks]
    · rw [programEnded_locks _ _ _ (fun he => by cases he), opOver_locks, advanceTo_locks]
    · rw [erased_locks _ _ (by decide), opOver_locks, advanceTo_locks]
  · rfl

/-- The erase of block 0 clears both locks, or leaves them (R143). -/
theorem block0EraseComplete_locks (b : Bool) :
    (block0EraseComplete s b).locks = s.locks ∨ (block0EraseComplete s b).locks = (false, false) := by
  unfold block0EraseComplete
  split
  · split
    · rw [rest_locks]
      cases b with
      | true => exact .inr (checkRelease_locks _)
      | false => exact .inl (checkRelease_locks _)
    · exact .inl rfl
  · exact .inl rfl

/-- RESETN's release leaves both locks clear until the scan has read the record (R130). -/
theorem resetnRelease_locks : (resetnRelease s).locks = (false, false) := by
  unfold resetnRelease
  dsimp only
  rw [rest_locks]
  split
  · rw [State.pushAll_locks]
    rfl
  · rfl

variable {s}

/-- Every row leaves the locks but RESETN's release, the erase of block 0, a protection program's success and a read or time limit
of the scan. -/
theorem exec_locks {c : Instr} {t : State} (hr : c ≠ .resetnRelease) (h0 : ∀ b, c ≠ .block0EraseComplete b)
    (hp : c = .programComplete true → ∀ o i e, s.flash.op = some o → o.kind ≠ .program (.protection i e))
    (hs : (∃ o m, c = .pageReadComplete o m) ∨ c = .flashOpTimeout → ∀ o, s.flash.op = some o → o.req ≠ .scan)
    (h : exec c s = .next t) : t.locks = s.locks := by
  cases c <;> cases h
  case resetnRelease => exact absurd rfl hr
  case block0EraseComplete b => exact absurd rfl (h0 b)
  case programComplete b => exact programComplete_locks s fun hb => hp (by rw [hb])
  case pageReadComplete r m => exact pageReadComplete_locks s (hs (.inl ⟨r, m, rfl⟩)) r m
  case flashOpTimeout => exact flashOpTimeout_locks s (hs (.inr rfl))
  case resetnAssert => exact resetnAssert_locks s
  case lowsupplyAssert => exact lowsupplyAssert_locks s
  case lowsupplyRelease => exact lowsupplyRelease_locks s
  case refLost => exact refLost_locks s
  case refRestored => exact refRestored_locks s
  case restoreCountGap => exact restoreCountGap_locks s
  case packetArrival => exact packetArrival_locks s _ _
  case inputLost => exact inputLost_locks s _
  case pcrLossTimeout => exact pcrLossTimeout_locks s _
  case slot => exact slot_locks s _
  case timeTrigger => exact timeTrigger_locks s _
  case searchOverdue => exact searchOverdue_locks s _
  case seekTimerExpiry => exact seekTimerExpiry_locks s _
  case returnOverdue => exact returnOverdue_locks s _
  case alertExpiry => exact alertExpiry_locks s _
  case eraseComplete => exact eraseComplete_locks s _
  case frameRefused => exact frameRefused_locks s _ _ _
  case frameGap => exact frameGap_locks s _
  case framingError => exact framingError_locks s _
  case replySent => exact replySent_locks s _
  case receiveByte => exact receiveByte_locks s _ _
  case identify => exact command_locks s _ _ fun u => runIdentify_locks u _ _
  case readStatus => exact command_locks s _ _ fun u => runReadStatus_locks u _ _
  case portRate => exact command_locks s _ _ fun u => runPortRate_locks u _ _ _
  case readEvents => exact command_locks s _ _ fun u => runReadEvents_locks u _ _ _
  case watch => exact command_locks s _ _ fun u => runWatch_locks u _ _ _
  case configureLane => exact command_locks s _ _ fun u => runConfigureLane_locks u _
  case configureService => exact command_locks s _ _ fun u => runConfigureService_locks u _
  case setMasks => exact command_locks s _ _ fun u => runSetMasks_locks u _ _ _
  case clearConditions => exact command_locks s _ _ fun u => runClearConditions_locks u _ _ _
  case readService => exact command_locks s _ _ fun u => runReadService_locks u _ _
  case clearService => exact command_locks s _ _ fun u => runClearService_locks u _ _ _ _
  case addEntry => exact command_locks s _ _ fun u => runAddEntry_locks u _ _
  case cancelEntry => exact command_locks s _ _ fun u => runCancelEntry_locks u _ _ _
  case readEntry => exact command_locks s _ _ fun u => runReadEntry_locks u _ _
  case ingestOpen => exact command_locks s _ _ fun u => runIngestOpen_locks u _ _
  case ingestData => exact command_locks s _ _ fun u => runIngestData_locks u _ _
  case ingestClose => exact command_locks s _ _ fun u => runIngestClose_locks u _ _ _ _
  case ingestAbort => exact command_locks s _ _ fun u => runIngestAbort_locks u _ _
  case clipErase => exact command_locks s _ _ fun u => runClipErase_locks u _ _ _
  case clipChecksum => exact command_locks s _ _ fun u => runClipChecksum_locks u _ _ _
  case listDirectory => exact command_locks s _ _ fun u => runListDirectory_locks u _ _
  case readClip => exact command_locks s _ _ fun u => runReadClip_locks u _ _
  case alertPreload => exact command_locks s _ _ fun u => runAlertPreload_locks u _ _ _ _
  case alertActivate => exact command_locks s _ _ fun u => runAlertActivate_locks u _
  case alertCancel => exact command_locks s _ _ fun u => runAlertCancel_locks u _ _
  case protectionSet => exact command_locks s _ _ fun u => runProtectionSet_locks u _ _
  case protectionRelease => exact command_locks s _ _ fun u => runProtectionRelease_locks u _
  case readProtection => exact command_locks s _ _ fun u => runReadProtection_locks u _

/-! ### The obligation -/

/-- Every row but Configure Lane, bytes that may carry it and RESETN's release leaves modes and settings (R1 to R5). -/
theorem exec_lane_settings {c : Instr} {t : State} (hl : ∀ p a, c ≠ .configureLane p a) (hb : ∀ p b, c ≠ .receiveByte p b)
    (hr : c ≠ .resetnRelease) (h : exec c s = .next t) (k : Nat) : (t.lane k).mode = (s.lane k).mode ∧ (t.lane k).cfg = (s.lane k).cfg := by
  by_cases hk : ∃ j, c = .slot j
  · obtain ⟨j, rfl⟩ := hk
    cases h
    rcases slot_cases s j with e | ⟨-, u, hu, e⟩
    · rw [e]
      exact ⟨rfl, rfl⟩
    · have hlk := hu.lane k
      have hj : (slot s j).lane k = if k = j then (u.lane j).nextSlot else u.lane k := by
        rw [e, Kept.lane (Kept.rest (Kept.refl _)) k, State.lane_setLane]
      show ((slot s j).lane k).mode = _ ∧ ((slot s j).lane k).cfg = _
      rw [hj]
      split
      · next hkj =>
        subst hkj
        exact ⟨hlk.mode, hlk.cfg⟩
      · exact ⟨hlk.mode, hlk.cfg⟩
  · have hf := (exec_rowFrame hl hb (fun j e => hk ⟨j, e⟩) hr h).lane k
    exact ⟨hf.mode, hf.cfg⟩

/-- Settles O11: modes and settings by `exec_lane_settings`, the locks row by row (`exec_locks`, and the rows that it leaves out). -/
theorem laneSettingsAndLocksChangeOnlyByTheirCommands : Obligations.LaneSettingsAndLocksChangeOnlyByTheirCommands := by
  refine ⟨fun c s t => exec_lane_settings, fun c s t h0 hr hp hf h => ?_, fun c s t hp hs h => ?_⟩
  · by_cases hc : ∃ o i e, c = .programComplete true ∧ s.flash.op = some o ∧ o.kind = .program (.protection i e)
    · obtain ⟨o, i, e, rfl, ho, hk⟩ := hc
      cases h
      exact programComplete_lock s ho hk
    · have hl := exec_locks hr h0 (fun hc' o i e ho hk => hc ⟨o, i, e, hc', ho, hk⟩)
        (fun hc' => hc'.elim (fun ⟨o, m, e⟩ => absurd e (hp o m)) fun e => absurd e hf) h
      obtain ⟨hi, he⟩ := Prod.mk.inj hl
      exact ⟨fun x => hi.trans x, fun x => he.trans x⟩
  · have hl : t.locks = s.locks ∨ t.locks = (false, false) := by
      by_cases h0 : ∃ b, c = .block0EraseComplete b
      · obtain ⟨b, rfl⟩ := h0
        cases h
        exact block0EraseComplete_locks s b
      by_cases hr : c = .resetnRelease
      · subst hr
        cases h
        exact .inr (resetnRelease_locks s)
      · exact .inl (exec_locks hr (fun b e => h0 ⟨b, e⟩) hp hs h)
    rcases hl with hl | hl
    · obtain ⟨hi, he⟩ := Prod.mk.inj hl
      exact ⟨fun x => hi.symm.trans x, fun x => he.symm.trans x⟩
    · obtain ⟨hi, he⟩ := Prod.mk.inj hl
      exact ⟨fun x => absurd (hi.symm.trans x) (by decide), fun x => absurd (he.symm.trans x) (by decide)⟩

end Sys2Proof.Machine
end

section
/-! A service without instances and entries is left as it stands by all that `rest` does: every act of the splice engine, the
scheduler and the alert unit is one for another service, or reaches a service through an entry of it. -/

namespace Sys2Proof.Machine

/-- Service `i` is as `v` says, and no entry of the schedule is one of its. -/
structure State.Quiet (s : State) (i : Nat) (v : Service) : Prop where
  svc : s.svc i = v
  entries : ∀ e ∈ s.schedule, e.svc ≠ i

theorem Table.mem_vals_set {α : Type} [DecidableEq α] {t : Table (Option α)} {k : Nat} {x : Option α} {v : α}
    (h : v ∈ Table.vals (Table.set none t k x)) : v ∈ Table.vals t ∨ x = some v := by
  obtain ⟨⟨j, w⟩, hm, rfl⟩ := List.mem_filterMap.mp h
  have hold : (j, some v) ∈ t.filter (fun e => e.1 != k) → v ∈ Table.vals t := fun hf =>
    List.mem_filterMap.mpr ⟨_, (List.mem_filter.mp hf).1, rfl⟩
  unfold Table.set at hm
  dsimp only at hm
  split at hm
  · exact .inl (hold hm)
  · rcases Table.mem_insert _ _ _ _ hm with hm | hm
    · exact .inr (Prod.mk.inj hm).2.symm
    · exact .inl (hold hm)

namespace State.Quiet

variable {s : State} {i j : Nat} {v : Service}

/-! ### The basic updates -/

theorem of_tables {t : State} (h : s.Quiet i v) (hs : t.services = s.services) (he : t.entries = s.entries) : t.Quiet i v where
  svc := by
    rw [← h.svc]
    simp [State.svc, hs]
  entries e hm := h.entries e (by simpa [State.schedule, he] using hm)

theorem entry (h : s.Quiet i v) {n : Nat} {e : Entry} (he : s.entry n = some e) : e.svc ≠ i := h.entries e (mem_schedule_of_entry he)
theorem armed (h : s.Quiet i v) {e : Entry} (he : armedEntry s j = some e) : e.svc ≠ i :=
  h.entries e ((mem_entriesOf s j e).1 (List.mem_of_find?_eq_some he)).1
theorem active (h : s.Quiet i v) {e : Entry} (he : activeEntry s j = some e) : e.svc ≠ i :=
  h.entries e ((mem_entriesOf s j e).1 (List.mem_of_find?_eq_some he)).1

theorem iff_of_tables {t : State} (hs : t.services = s.services) (he : t.entries = s.entries) : t.Quiet i v ↔ s.Quiet i v :=
  ⟨fun h => h.of_tables hs.symm he.symm, fun h => h.of_tables hs he⟩

@[simp] theorem modSvc_iff (hj : j ≠ i) (f : Service → Service) : (s.modSvc j f).Quiet i v ↔ s.Quiet i v := by
  have hs : (s.modSvc j f).svc i = s.svc i := by rw [State.svc_modSvc, if_neg (Ne.symm hj)]
  exact ⟨fun h => ⟨hs.symm.trans h.svc, h.entries⟩, fun h => ⟨hs.trans h.svc, h.entries⟩⟩
@[simp] theorem modSp_iff (hj : j ≠ i) (f : SpliceRec → SpliceRec) : (s.modSp j f).Quiet i v ↔ s.Quiet i v := modSvc_iff hj _
@[simp] theorem setLane_iff (k : Nat) (l : Lane) : (s.setLane k l).Quiet i v ↔ s.Quiet i v := iff_of_tables rfl rfl
@[simp] theorem setClip_iff (c : Nat) (r : Option ClipRec) : (s.setClip c r).Quiet i v ↔ s.Quiet i v := iff_of_tables rfl rfl
@[simp] theorem setAlert_iff (r : Nat) (a : AlertRec) : (s.setAlert r a).Quiet i v ↔ s.Quiet i v := iff_of_tables rfl rfl
@[simp] theorem modAlert_iff (r : Nat) (f : AlertRec → AlertRec) : (s.modAlert r f).Quiet i v ↔ s.Quiet i v := iff_of_tables rfl rfl
@[simp] theorem modFlash_iff (f : Flash → Flash) : (s.modFlash f).Quiet i v ↔ s.Quiet i v := iff_of_tables rfl rfl
@[simp] theorem setIngest_iff (p : PortId) (g : Ingest) : (s.setIngest p g).Quiet i v ↔ s.Quiet i v := iff_of_tables rfl rfl
@[simp] theorem push_iff (p : PortId) (e : Event) : (s.push p e).Quiet i v ↔ s.Quiet i v := iff_of_tables rfl rfl
@[simp] theorem fresh_iff : s.fresh.2.Quiet i v ↔ s.Quiet i v := iff_of_tables rfl rfl
@[simp] theorem answer_iff (p : PortId) (r : Status) (b : List Byte) : (answer s p r b).Quiet i v ↔ s.Quiet i v := iff_of_tables rfl rfl
@[simp] theorem dropRef_iff (c : Nat) : (s.dropRef c).Quiet i v ↔ s.Quiet i v := iff_of_tables rfl rfl
@[simp] theorem removeClip_iff (r : ClipRec) (l : List Nat) (x : Option Nat) : (s.removeClip r l x).Quiet i v ↔ s.Quiet i v :=
  iff_of_tables rfl rfl
@[simp] theorem foldl_dropRef_iff (l : List Nat) : (l.foldl State.dropRef s).Quiet i v ↔ s.Quiet i v := by
  induction l generalizing s with
  | nil => rfl
  | cons c r ih => exact ih.trans (dropRef_iff c)
@[simp] theorem raise_iff (hj : j ≠ i) (c : Cond) : (raise s j c).Quiet i v ↔ s.Quiet i v := by
  have hs : (raise s j c).svc i = s.svc i := by rw [raise_svc, if_neg (Ne.symm hj)]
  have he : (raise s j c).schedule = s.schedule := by simp [State.schedule]
  exact ⟨fun h => ⟨hs.symm.trans h.svc, he ▸ h.entries⟩, fun h => ⟨hs.trans h.svc, he ▸ h.entries⟩⟩
@[simp] theorem raiseIf_iff (hj : j ≠ i) (b : Bool) (c : Cond) : (raiseIf b s j c).Quiet i v ↔ s.Quiet i v := by
  cases b
  · rfl
  · exact raise_iff hj c
@[simp] theorem setEntry_none (h : s.Quiet i v) (n : Nat) : (s.setEntry n none).Quiet i v where
  svc := h.svc
  entries e he := (Table.mem_vals_set (t := s.entries) (k := n) (x := none) he).elim (h.entries e) fun hx => by cases hx
@[simp] theorem setEntry_some (h : s.Quiet i v) (n : Nat) {x : Entry} (hx : x.svc ≠ i) : (s.setEntry n (some x)).Quiet i v where
  svc := h.svc
  entries e he := (Table.mem_vals_set (t := s.entries) (k := n) (x := some x) he).elim (h.entries e) fun he' => Option.some.inj he' ▸ hx

/-! ### The splice engine's basic acts and the scheduler -/

@[simp] theorem discardRole_iff (hj : j ≠ i) (r : Role) : (discardRole s j r).Quiet i v ↔ s.Quiet i v := by
  simp [discardRole, hj]
@[simp] theorem discardSeeking_iff (hj : j ≠ i) (o : Owner) : (discardSeeking s j o).Quiet i v ↔ s.Quiet i v := by
  unfold discardSeeking
  repeat' split
  all_goals simp [hj]
@[simp] theorem placeInst_iff (hj : j ≠ i) (q : InstReq) : (placeInst s j q).Quiet i v ↔ s.Quiet i v := by
  unfold placeInst
  repeat' split
  all_goals simp [hj]
@[simp] theorem requestNext_iff (hj : j ≠ i) (q : InstReq) : (requestNext s j q).Quiet i v ↔ s.Quiet i v := by
  unfold requestNext
  repeat' split
  all_goals simp [hj]
@[simp] theorem handE_iff (hj : j ≠ i) (e : Nat) : (handE s j e).Quiet i v ↔ s.Quiet i v := by
  unfold handE
  split <;> simp [hj]
@[simp] theorem endEntry (h : s.Quiet i v) {e : Entry} (he : e.svc ≠ i) (r : EntryResult) : (endEntry s e r).Quiet i v := by
  unfold Machine.endEntry
  refine setEntry_none ((foldl_dropRef_iff _).2 ?_) _
  split <;> simp [h, he]
@[simp] theorem demote (h : s.Quiet i v) {e : Entry} (he : e.svc ≠ i) : (demote s e).Quiet i v := by
  simp [Machine.demote, h, he]
@[simp] theorem armRun (h : s.Quiet i v) (n : Nat) : (armRun s n).1.Quiet i v := by
  unfold Machine.armRun
  split
  · exact h
  · next e he =>
    have hs := h.entry he
    dsimp only
    repeat' split
    all_goals simp [h, hs]
    all_goals next l hl _ => simp [h, h.armed hl, hs]
@[simp] theorem arbiterPass (h : s.Quiet i v) (l : List Nat) (d : Bool) : (arbiterPass l s d).1.Quiet i v := by
  induction l generalizing s d with
  | nil => exact h
  | cons n r ih =>
    unfold Machine.arbiterPass
    split
    · dsimp only
      split
      · exact h.armRun n
      · exact ih (h.armRun n) _
    · exact ih h _
@[simp] theorem poolFreed (h : s.Quiet i v) (k : Nat) : (poolFreed s k).Quiet i v := by
  have hl : ∀ (f : Nat) {s : State}, s.Quiet i v → (arbiterLoop f s k).Quiet i v := by
    intro f
    induction f with
    | zero => exact id
    | succ f ih =>
      intro s h
      unfold arbiterLoop
      dsimp only
      split
      · exact ih (h.arbiterPass _ _)
      · exact h.arbiterPass _ _
  exact hl _ h
@[simp] theorem armAndArbitrate (h : s.Quiet i v) (n : Nat) : (armAndArbitrate s n).Quiet i v := by
  unfold Machine.armAndArbitrate
  dsimp only
  split
  · exact (h.armRun n).poolFreed _
  · exact h.armRun n
@[simp] theorem reeval (h : s.Quiet i v) (j : Nat) (c : WaitCause) : (reeval s j c).Quiet i v := by
  have hl : ∀ (l : List Nat) {s : State}, s.Quiet i v → (reevalList c l s).Quiet i v := by
    intro l
    induction l with
    | nil => exact id
    | cons n r ih =>
      intro s h
      refine ih ?_
      split
      · exact h.armAndArbitrate n
      · exact h
  exact hl _ h
@[simp] theorem endAndRelease (h : s.Quiet i v) {e : Entry} (he : e.svc ≠ i) (r : EntryResult) : (endAndRelease s e r).Quiet i v := by
  unfold Machine.endAndRelease afterEnd
  dsimp only
  split
  · exact ((h.endEntry he r).poolFreed _).reeval _ _
  · exact h.endEntry he r
@[simp] theorem setE (h : s.Quiet i v) (n e : Nat) : (setE s n e).Quiet i v := by
  unfold Machine.setE
  split
  · next x hx => simp [h, h.entry hx]
  · exact h
@[simp] theorem activate (h : s.Quiet i v) (n x d : Nat) (w : Seal) : (activate s n x d w).Quiet i v := by
  unfold Machine.activate
  split
  · exact h
  · next e he =>
    have hs := h.entry he
    extract_lets i' one lower s1 s2 s3 s4
    have h1 : s1.Quiet i v := by
      unfold s1
      cases hl : lower with
      | some l => simp [h, h.active hl, i', hs]
      | none => exact h
    have h3 : s3.Quiet i v := setEntry_some ((modSp_iff hs _).2 h1) n hs
    have h4 : s4.Quiet i v := by
      unfold s4
      repeat' split
      all_goals simp [h3]
    split
    · exact h4.poolFreed _
    · exact h4
@[simp] theorem podAdvance (h : s.Quiet i v) (n d : Nat) (w : Seal) : (podAdvance s n d w).Quiet i v := by
  unfold Machine.podAdvance
  split
  · exact h
  · next e he =>
    have hs := h.entry he
    dsimp only
    split <;> simp [h, hs]
@[simp] theorem podEnd (h : s.Quiet i v) (n d : Nat) (w : Seal) : (podEnd s n d w).Quiet i v := by
  unfold Machine.podEnd keepAwaiting
  split
  · next e he =>
    have hs := h.entry he
    dsimp only
    split <;> simp [h, hs]
  · exact h
@[simp] theorem returnEnded (h : s.Quiet i v) {e : Entry} (he : e.svc ≠ i) (b : Bool) (p : Option Nat) : (returnEnded s e b p).Quiet i v := by
  unfold Machine.returnEnded
  dsimp only
  repeat' split
  all_goals simp [h, he]

/-! ### The alert unit -/

@[simp] theorem takeService (h : s.Quiet i v) (hj : j ≠ i) (r : Nat) : (takeService s r j).Quiet i v := by
  have hh : (holdTarget s r j).Quiet i v := (modAlert_iff _ _).2 h
  unfold Machine.takeService
  dsimp only
  split
  · next e he => simp [hh, hh.armed he, hj]
  · simp [hh, hj]
@[simp] theorem testRecord (h : s.Quiet i v) (r : Nat) : (testRecord s r).Quiet i v := by
  unfold Machine.testRecord endRecord
  dsimp only
  repeat' split
  all_goals simp [h]
@[simp] theorem passOn (h : s.Quiet i v) (hj : j ≠ i) : (passOn s j).Quiet i v := by
  unfold Machine.passOn
  repeat' split
  all_goals simp [h, hj]
@[simp] theorem depart (h : s.Quiet i v) (hj : j ≠ i) (r : Nat) (b : Bool) : (depart s r j b).Quiet i v := by
  simp [Machine.depart, leaveHeld, h, hj]
@[simp] theorem alertCut (h : s.Quiet i v) (hj : j ≠ i) (r : Nat) : (alertCut s r j).Quiet i v := by
  unfold Machine.alertCut
  dsimp only
  repeat' split
  · exact h
  · next e he =>
    exact State.Quiet.poolFreed ((modSp_iff hj _).2 (endEntry ((modSp_iff hj _).2 ((modAlert_iff _ _).2 h)) (h.active he) _)) _
  · simp [h, hj]
  · exact h
@[simp] theorem alertE (h : s.Quiet i v) (hj : j ≠ i) (r e : Nat) : (alertE s r j e).Quiet i v := by simp [Machine.alertE, h, hj]

/-! ### Cuts and returns -/

@[simp] theorem reportCut (h : s.Quiet i v) (hj : j ≠ i) (o : Owner) (x d : Nat) (w : Seal) : (reportCut s j o x d w).Quiet i v := by
  unfold Machine.reportCut
  repeat' split
  all_goals simp [h, hj]
@[simp] theorem beginReturn (h : s.Quiet i v) (hj : j ≠ i) : (beginReturn s j).Quiet i v := by
  unfold Machine.beginReturn
  dsimp only
  repeat' split
  all_goals simp [h, hj]
@[simp] theorem finishReturn (h : s.Quiet i v) (hj : j ≠ i) : (finishReturn s j).Quiet i v := by
  unfold Machine.finishReturn
  extract_lets p em pt s0 s1
  have h1 : s1.Quiet i v := by
    unfold s1 s0
    split <;> simp [h, hj]
  repeat' split
  · next e he => simp [h1, h1.entry he]
  all_goals simp [h1, hj]
@[simp] theorem clipCut (h : s.Quiet i v) (hj : j ≠ i) (c : Nat) (n : Inst) (x w : Nat) : (clipCut s j c n x w).Quiet i v := by
  simp [Machine.clipCut, h, hj]
@[simp] theorem exhaustCut (h : s.Quiet i v) (hj : j ≠ i) (o n : Inst) : (exhaustCut s j o n).Quiet i v := by
  unfold Machine.exhaustCut
  dsimp only
  split <;> simp [h, hj]
@[simp] theorem startEmergency (h : s.Quiet i v) (hj : j ≠ i) (o : Owner) : (startEmergency s j o).Quiet i v := by
  unfold Machine.startEmergency
  dsimp only
  repeat' split
  all_goals simp [h, hj]
@[simp] theorem handClipEnd (h : s.Quiet i v) (hj : j ≠ i) (r : Nat) (c : Inst) : (handClipEnd s r j c).Quiet i v := by
  simp [Machine.handClipEnd, keepAwaiting, h, hj]

/-! ### The emission head and `settle` -/

theorem examineCur (h : s.Quiet i v) (hj : j ≠ i) {n : Inst} {b : Pkt} {d : Nat} {u : State} (hu : examineCur s j n b d = some u) :
    u.Quiet i v := by
  unfold Machine.examineCur at hu
  dsimp only at hu
  repeat' split at hu
  all_goals first | cases hu; simp [stopCur, h, hj] | cases hu
theorem examineNext (h : s.Quiet i v) (hj : j ≠ i) {n : Inst} {b : Pkt} {u : State} (hu : examineNext s j n b = some u) :
    u.Quiet i v := by
  unfold Machine.examineNext at hu
  repeat' split at hu
  all_goals first | cases hu; simp [h, hj] | cases hu
@[simp] theorem placeHead (h : s.Quiet i v) (hj : j ≠ i) (r : Role) (n : Inst) (b : Pkt) (d : Nat) : (placeHead s j r n b d).Quiet i v := by
  unfold Machine.placeHead
  repeat' split
  all_goals simp [h, hj]
@[simp] theorem exhaust (h : s.Quiet i v) (hj : j ≠ i) : (exhaust s j).Quiet i v := by
  unfold Machine.exhaust
  repeat' split
  all_goals simp [h, hj]
@[simp] theorem repeatEnd (h : s.Quiet i v) (hj : j ≠ i) : (repeatEnd s j).Quiet i v := by
  rcases repeatEnd_cases s j with e | ⟨o, nx, r, -, -, -, -, -, -, -, e⟩ <;> rw [e]
  · exact h
  · exact h.handClipEnd hj r o
@[simp] theorem takePacket (h : s.Quiet i v) (hj : j ≠ i) (r : Role) (n : Inst) (b : Pkt) : (takePacket s j r n b).Quiet i v := by
  unfold Machine.takePacket
  extract_lets due wrapped src m u
  have hu : u.Quiet i v := (raiseIf_iff hj _ _).2 ((modSp_iff hj _).2 h)
  cases r with
  | current =>
    dsimp only
    refine exhaust (repeatEnd ?_ hj) hj
    cases hx : Machine.examineCur u j m b due with
    | some w => exact hu.examineCur hj hx
    | none => exact hu.placeHead hj _ _ _ _
  | next =>
    dsimp only
    cases hx : Machine.examineNext u j m b with
    | some w => exact hu.examineNext hj hx
    | none => exact hu.placeHead hj _ _ _ _

/-- An act of `settle` for another service. -/
theorem svcStep (h : s.Quiet i v) (hj : j ≠ i) {u : State} (hu : svcStep s j = some u) : u.Quiet i v := by
  simp only [Machine.svcStep, Option.or_eq_some_iff] at hu
  rcases hu with hu | ⟨-, hu | ⟨-, hu | ⟨-, hu | ⟨-, hu | ⟨-, hu | ⟨-, hu⟩⟩⟩⟩⟩⟩
  · unfold serveWaiting at hu
    split at hu <;> cases hu
    simp [h, hj]
  · unfold clipEndStep ownerStep podStep loopStep at hu
    dsimp only at hu
    repeat' split at hu
    all_goals first | cases hu; simp [h, hj] | cases hu
  · unfold lateExhaust at hu
    repeat' split at hu
    all_goals first | cases hu; simp [h, hj] | cases hu
  · unfold finishOrPromote at hu
    dsimp only at hu
    repeat' split at hu
    all_goals first | cases hu; simp [h, hj] | cases hu
  · split at hu <;> cases hu
    exact h.finishReturn hj
  · unfold fillHead at hu
    dsimp only at hu
    repeat' split at hu
    all_goals first | cases hu; simp [h, hj] | cases hu
  · unfold choose at hu
    repeat' split at hu
    all_goals first | cases hu; simp [h, hj] | cases hu

/-- A service without instances, searches and requests has no act due. -/
theorem svcStep_self (h : s.Quiet i v) {n : Nat} (hv : v.sp = SpliceRec.reset n) : Machine.svcStep s i = none := by
  have hp : s.sp i = SpliceRec.reset n := by rw [State.sp, h.svc, hv]
  simp [Machine.svcStep, serveWaiting, clipEndStep, lateExhaust, finishOrPromote, returnDone, fillHead, offerCur, offerNext, choose,
    choosePage, hp, SpliceRec.reset]

@[simp] theorem settle (h : s.Quiet i v) {n : Nat} (hv : v.sp = SpliceRec.reset n) : (settle s).Quiet i v := by
  have ha : ∀ (l : List Nat) {s u : State}, s.Quiet i v → anyStep s l = some u → u.Quiet i v := by
    intro l
    induction l with
    | nil =>
      intro s u _ hu
      simp [anyStep] at hu
    | cons j r ih =>
      intro s u h hu
      unfold anyStep at hu
      split at hu
      · next hj =>
        cases hu
        refine h.svcStep ?_ hj
        rintro rfl
        rw [h.svcStep_self hv] at hj
        cases hj
      · exact ih h hu
  have hl : ∀ (f : Nat) {s : State}, s.Quiet i v → (settleLoop f s).Quiet i v := by
    intro f
    induction f with
    | zero => exact id
    | succ f ih =>
      intro s h
      unfold settleLoop
      split
      · next hu => exact ih (ha _ h hu)
      · exact h
  exact hl _ h

/-! ### The arbiter -/

@[simp] theorem clearIngest_iff (p : PortId) : (clearIngest s p).Quiet i v ↔ s.Quiet i v := by simp [clearIngest]
@[simp] theorem endIngest_iff (p : PortId) (b : Option Nat) : (endIngest s p b).Quiet i v ↔ s.Quiet i v := by
  unfold endIngest
  split <;> simp
@[simp] theorem programFailed (h : s.Quiet i v) (o : FlashOp) (k : ProgKind) : (programEnded s o k .fail false).Quiet i v := by
  unfold programEnded ingestFailed markerDone protectionDone
  dsimp only
  repeat' split
  all_goals simp [h]

/-- The request that a grant consumes: the service has none to lose. -/
@[simp] theorem consumeRequest (h : s.Quiet i v) (hv : v.sp.raReq = none) (q : Requester) : (consumeRequest s q).Quiet i v := by
  unfold Machine.consumeRequest
  split
  · next j _ =>
    by_cases hj : j = i
    · subst hj
      refine ⟨?_, h.entries⟩
      rw [State.modSp, State.svc_modSvc, if_pos rfl, h.svc, ← hv]
    · simp [h, hj]
  all_goals simp [h]

theorem grant (h : s.Quiet i v) (hv : v.sp.raReq = none) (c j : Nat) (o : FlashOp) : (grant s c j o).1.Quiet i v := by
  have hc := h.consumeRequest hv o.req
  unfold Machine.grant
  dsimp only
  repeat' split
  all_goals simp [hc]

/-- All that `rest` does leaves such a service. -/
theorem rest (h : s.Quiet i v) {n : Nat} (hv : v.sp = SpliceRec.reset n) : (rest s).Quiet i v := by
  have hl : ∀ (f : Nat) {s : State}, s.Quiet i v → (arbLoop none f s).Quiet i v := by
    intro f
    induction f with
    | zero => exact id
    | succ f ih =>
      intro s h
      unfold arbLoop
      split
      · exact h
      · split
        · exact h
        · have hg := h.grant (by rw [hv]; rfl)
          dsimp only
          split
          · exact ih ((hg _ _ _).settle hv)
          · exact hg _ _ _
  exact hl _ (h.settle hv)

end State.Quiet

end Sys2Proof.Machine
end

section
/-! Configure Service (R8, R9). -/

namespace Sys2Proof.Machine

/-! ### The checks of R8 -/

theorem restZero_iff (n : Nat) (l : List CompPos) : restZero n l = true ↔ ∀ x ∈ l.drop n, x.pid = 0 ∧ x.kind = 0 := by
  simp [restZero]

/-- Check 1 (R8). -/
theorem serviceArgsOk_iff (a : ServiceArgs) : serviceArgsOk a = true ↔ a.svc ≤ 47 ∧ a.lane ≤ 3 ∧ a.count ≤ 8 ∧ a.handling ≤ 1
    ∧ a.ceiling ≤ 20000 ∧ a.res = 0 ∧ ∀ x ∈ a.positions.drop a.count, x.pid = 0 ∧ x.kind = 0 := by
  simp [serviceArgsOk, restZero_iff, and_assoc]

theorem badPid_eq_false_iff (q : Nat) : badPid q = false ↔ 16 ≤ q ∧ q < 0x1FFF := by
  simp [badPid]

theorem firstIdx_spec {α : Type} {f : α → Bool} {l : List α} {m j : Nat} (h : firstIdx f l m = some j) :
    ∃ x, m ≤ j ∧ l[j - m]? = some x ∧ f x = true := by
  induction l generalizing m with
  | nil => cases h
  | cons x r ih =>
    unfold firstIdx at h
    split at h
    · next hx =>
      cases h
      exact ⟨x, le_refl _, by simp, hx⟩
    · obtain ⟨y, hm, hy, hf⟩ := ih h
      refine ⟨y, by omega, ?_, hf⟩
      rw [show j - m = j - (m + 1) + 1 by omega, List.getElem?_cons_succ]
      exact hy

theorem firstIdx_isSome_iff {α : Type} {f : α → Bool} {l : List α} {m : Nat} : (firstIdx f l m).isSome = true ↔ ∃ x ∈ l, f x = true := by
  induction l generalizing m with
  | nil => simp [firstIdx]
  | cons x r ih =>
    unfold firstIdx
    split
    · next hx => simp [hx]
    · next hx => simp [ih, hx]

/-- The lead's index is that of a component (R9). -/
theorem leadIdx_spec {cs : List Comp} {j : Nat} (h : leadIdx cs = some j) : ∃ x, cs[j]? = some x := by
  unfold leadIdx at h
  split at h
  · next k hk =>
    cases h
    obtain ⟨x, -, hx, -⟩ := firstIdx_spec hk
    exact ⟨x, hx⟩
  · obtain ⟨x, -, hx, -⟩ := firstIdx_spec h
    exact ⟨x, hx⟩

theorem hasLead_iff (cs : List Comp) : hasLead cs = true ↔ ∃ x ∈ cs, x.kind = .video ∨ x.kind = .audio := by
  have hv := @firstIdx_isSome_iff Comp (fun c => c.kind == .video) cs 0
  have ha := @firstIdx_isSome_iff Comp (fun c => c.kind == .audio) cs 0
  simp only [beq_iff_eq] at hv ha
  unfold hasLead leadIdx
  split
  · next j hj =>
    obtain ⟨x, hx, hk⟩ := hv.1 (by rw [hj]; rfl)
    exact ⟨fun _ => ⟨x, hx, .inl hk⟩, fun _ => rfl⟩
  · next hj =>
    have hn : ∀ x ∈ cs, x.kind ≠ .video := fun x hx hk => by
      have := hv.2 ⟨x, hx, hk⟩
      rw [hj] at this
      cases this
    rw [ha]
    exact ⟨fun ⟨x, hx, hk⟩ => ⟨x, hx, .inr hk⟩, fun ⟨x, hx, hk⟩ => ⟨x, hx, hk.resolve_left (hn x hx)⟩⟩

/-- Checks 2 to 4 (R8; log 30). -/
theorem definitionOk_iff (a : ServiceArgs) (cs : List Comp) : definitionOk (defOf a cs) = true ↔
    (∀ q ∈ cs.map (·.pid) ++ a.cuePid.toList ++ [a.pcrPid], 16 ≤ q ∧ q < 0x1FFF) ∧ (cs.map (·.pid)).Nodup ∧ a.pcrPid ∈ cs.map (·.pid)
      ∧ (∀ q, a.cuePid = some q → q ∉ cs.map (·.pid)) ∧ ∃ x ∈ cs, x.kind = .video ∨ x.kind = .audio := by
  have hb : ((∀ c ∈ cs, badPid c.pid = false) ∧ badPid a.pcrPid = false ∧ ∀ q ∈ a.cuePid.toList, badPid q = false) ↔
      ∀ q ∈ cs.map (·.pid) ++ a.cuePid.toList ++ [a.pcrPid], 16 ≤ q ∧ q < 0x1FFF := by
    simp only [badPid_eq_false_iff, List.mem_append, List.mem_map, List.mem_singleton]
    constructor
    · rintro ⟨hc, hp, hq⟩ q ((⟨c, hc', rfl⟩ | hq') | rfl)
      · exact hc c hc'
      · exact hq q hq'
      · exact hp
    · exact fun h => ⟨fun c hc => h _ (.inl (.inl ⟨c, hc, rfl⟩)), h _ (.inr rfl), fun q hq => h q (.inl (.inr hq))⟩
  rw [← hb, ← hasLead_iff]
  have hn : distinctPids cs = true ↔ (cs.map (·.pid)).Nodup := decide_eq_true_iff
  simp [definitionOk, defOf, hn, and_assoc]

variable (s : State)

/-- Check 5 (R8). -/
theorem pidTaken_iff (i : Nat) (a : ServiceArgs) (cs : List Comp) : pidTaken s i (defOf a cs) = true ↔
    ∃ j d, j ≠ i ∧ j ∈ s.servicesOf a.lane ∧ (s.svc j).defn = some d
      ∧ ∃ q ∈ d.comps.map (·.pid) ++ d.cuePid.toList, q ∈ cs.map (·.pid) ++ a.cuePid.toList := by
  simp only [pidTaken, List.any_eq_true, Bool.and_eq_true, bne_iff_ne]
  constructor
  · rintro ⟨j, hj, hne, hm⟩
    split at hm
    · next d hd =>
      obtain ⟨q, hq, hc⟩ := List.any_eq_true.mp hm
      exact ⟨j, d, hne, hj, hd, q, hq, List.contains_iff_mem.mp hc⟩
    · cases hm
  · rintro ⟨j, d, hne, hj, hd, q, hq, hc⟩
    refine ⟨j, hj, hne, ?_⟩
    rw [hd]
    exact List.any_eq_true.mpr ⟨q, hq, List.contains_iff_mem.mpr hc⟩

/-- Check 6 (R8). -/
theorem claimed_iff (i : Nat) : claimed s i = true ↔ (∃ e ∈ s.schedule, e.svc = i) ∨ ∃ r, r < 4 ∧ (s.alert r).holds i = true := by
  unfold claimed holdingAlert
  rw [Bool.or_eq_true, List.find?_isSome]
  refine or_congr ?_ (by simp)
  simp [entriesOf]

/-! ### The PIDs of the old definition (R9) -/

theorem Lane.pid_setPid (l : Lane) (p q : Nat) (e : PidEntry) : (l.setPid p e).pid q = if q = p then e else l.pid q :=
  Table.get_set _ _ _ _ _

theorem Lane.restorePids_pid (l : Lane) (qs : List Nat) (q : Nat) :
    (l.restorePids qs).pid q = if q ∈ qs then (l.pid q).restored else l.pid q := by
  unfold Lane.restorePids
  induction qs generalizing l with
  | nil => simp
  | cons p r ih =>
    rw [List.foldl_cons, ih, Lane.pid_setPid]
    by_cases hq : q = p
    · subst hq
      simp [PidEntry.restored]
    · simp [hq]

theorem restoreOld_lane {i : Nat} {d : ServiceDef} (hd : (s.svc i).defn = some d) :
    (restoreOld s i).lane d.lane = (s.lane d.lane).restorePids (d.pids ++ [d.pcrPid]) := by
  unfold restoreOld
  rw [hd]
  exact State.lane_setLane_self _ _ _

@[simp] theorem restoreOld_svc (i j : Nat) : (restoreOld s i).svc j = s.svc j := by
  unfold restoreOld
  split <;> rfl
@[simp] theorem restoreOld_entries (i : Nat) : (restoreOld s i).entries = s.entries := by
  unfold restoreOld
  split <;> rfl
@[simp] theorem restoreOld_links (i : Nat) : (restoreOld s i).links = s.links := by
  unfold restoreOld
  split <;> rfl

/-- The context that Configure Service puts in its place: the old PIDs restored, service `i` as `v`, and then what `rest` does. -/
def redefine (s : State) (i : Nat) (v : Service) : State := rest ((restoreOld s i).setSvc i v)

theorem redefine_kept (i : Nat) (v : Service) : Kept ((restoreOld s i).setSvc i v) (redefine s i v) := Kept.rest (Kept.refl _)

theorem redefine_restored {i : Nat} {v : Service} {d : ServiceDef} (hd : (s.svc i).defn = some d) {q : Nat}
    (hq : q ∈ d.comps.map (·.pid) ++ d.cuePid.toList ++ [d.pcrPid]) :
    ((redefine s i v).lane d.lane).pid q = { PidEntry.entry with lastCC := ((s.lane d.lane).pid q).lastCC } := by
  rw [(redefine_kept s i v).lane, State.setSvc_lane, restoreOld_lane s hd, Lane.restorePids_pid]
  refine (if_pos ?_).trans ?_
  · exact hq
  · rfl

theorem redefine_others {i j : Nat} {v : Service} (hj : j ≠ i) :
    ((redefine s i v).svc j).defn = (s.svc j).defn ∧ ((redefine s i v).svc j).clk = (s.svc j).clk := by
  have hs : ((restoreOld s i).setSvc i v).svc j = s.svc j := by rw [State.svc_setSvc, if_neg hj, restoreOld_svc]
  exact ⟨by rw [(redefine_kept s i v).defn, hs], by rw [(redefine_kept s i v).clk, hs]⟩

/-- No act of `rest` falls to a service that no entry and no `Inst` claims. -/
theorem redefine_svc {i n : Nat} {v : Service} (h : claimed s i = false) (hv : v.sp = SpliceRec.reset n) :
    (redefine s i v).svc i = v := by
  have hq : ((restoreOld s i).setSvc i v).Quiet i v := by
    refine ⟨by rw [State.svc_setSvc, if_pos rfl], fun e he hsvc => ?_⟩
    have he' : e ∈ s.schedule := by simpa [State.schedule] using he
    rw [(claimed_iff s i).2 (.inl ⟨e, he', hsvc⟩)] at h
    cases h
  exact (hq.rest hv).svc

/-! ### The command -/

variable {s} {a : ServiceArgs} {p : PortId}

/-- A command that fails check 1 (R8). -/
theorem runConfigureService_unsound (h0 : a.count ≠ 0) (h : serviceArgsOk a = false ∨ takeComps a.count a.positions = none) :
    runConfigureService a s = err s .badparam := by
  unfold runConfigureService
  rw [if_neg h0]
  cases hs : serviceArgsOk a with
  | false => rfl
  | true =>
    rw [h.resolve_left (by simp [hs])]
    rfl

/-- Checks 2 to 7 of R8, and the definition that passes them. -/
theorem runConfigureService_sound {cs : List Comp} (h0 : a.count ≠ 0) (hs : serviceArgsOk a = true)
    (hcs : takeComps a.count a.positions = some cs) : runConfigureService a s =
      if definitionOk (defOf a cs) = false ∨ pidTaken s a.svc (defOf a cs) = true then err s .badparam
      else if claimed s a.svc then err s .inuse
      else if laneFull s a.svc a.lane then err s .full
      else ok (redefine s a.svc { Service.reset with defn := some (defOf a cs), sp := SpliceRec.reset cs.length }) (leadBytesOf cs) := by
  unfold runConfigureService
  rw [if_neg h0, hs, hcs]
  dsimp only
  cases definitionOk (defOf a cs) with
  | false => rfl
  | true => cases pidTaken s a.svc (defOf a cs) with
    | true => simp
    | false =>
      simp only [Bool.not_true, Bool.false_eq_true, Bool.true_eq_false, or_self, if_false]
      rfl

/-- The checks of a removal, and its effect (R9; log 29). -/
theorem runConfigureService_removal (h0 : a.count = 0) : runConfigureService a s =
    if removalArgsOk a = false then err s .badparam
    else if claimed s a.svc then err s .inuse
    else ok (redefine s.fresh.2 a.svc Service.reset) (freeBytes 2 s.fresh.1 0 ++ freeBytes 1 s.fresh.1 1) := by
  unfold runConfigureService removeService
  rw [if_pos h0]
  cases removalArgsOk a <;> rfl

theorem removalArgsOk_iff (h0 : a.count = 0) : removalArgsOk a = true ↔
    a.svc ≤ 47 ∧ a.res = 0 ∧ ∀ x ∈ a.positions.drop a.count, x.pid = 0 ∧ x.kind = 0 := by
  simp [removalArgsOk, restZero_iff, h0, and_assoc]

/-- The reply of a definition names its lead (R9). -/
theorem leadBytesOf_of_hasLead {cs : List Comp} (h : hasLead cs = true) : ∃ j x, leadIdx cs = some j ∧ cs[j]? = some x
    ∧ leadBytesOf cs = leBytes 2 x.pid ++ [byte1 x.kind.code] := by
  obtain ⟨j, hj⟩ := Option.isSome_iff_exists.mp h
  obtain ⟨x, hx⟩ := leadIdx_spec hj
  exact ⟨j, x, hj, hx, by simp [leadBytesOf, hj, hx]⟩

/-! ### The obligation -/

/-- A taken Configure Service runs on the opened exchange. -/
theorem exec_configureService (h : s.takes p) :
    exec (.configureService p a) s = .next ((runConfigureService a (openExchange s p 0x11)).done p) := by
  have ha : admitted p 0x11 = true := by cases p <;> rfl
  exact congrArg Host.Outcome.next (command_taken s p 0x11 (runConfigureService a) h ha)

/-- A refusal answers and does nothing else. -/
theorem configureService_refused (h : s.takes p) {st : Status}
    (hr : runConfigureService a (openExchange s p 0x11) = err (openExchange s p 0x11) st) :
    ∃ t, exec (.configureService p a) s = .next t ∧ s.onlyAnswers t p 0x11#8 st [] := by
  refine ⟨_, exec_configureService h, ?_⟩
  rw [hr, err_done]
  exact answer_onlyAnswers p 0x11 s (openExchange s p 0x11) st [] rfl (openExchange_frame s p 0x11)

/-- A command that redefines a service answers, and leaves what `redefine` leaves. -/
theorem configureService_done (h : s.takes p) {v : Service} {b : List Byte} {w : State}
    (hr : runConfigureService a (openExchange s p 0x11) = ok (redefine w a.svc v) b) (hw : w.links = (openExchange s p 0x11).links) :
    ∃ t, exec (.configureService p a) s = .next t ∧ t.replied p 0x11#8 .ok b
      ∧ (∀ i, t.svc i = (redefine w a.svc v).svc i) ∧ ∀ k, t.lane k = (redefine w a.svc v).lane k := by
  refine ⟨_, exec_configureService h, ?_, ?_⟩
  · rw [hr, ok_done]
    refine answer_replied_of_kept (u := s) (code := 0x11) .ok b ?_ (redefine_kept w a.svc v)
    exact (restoreOld_links w a.svc).trans hw
  · rw [hr, ok_done]
    exact ⟨answer_svc _ _ _ _, answer_lane _ _ _ _⟩

/-- Settles O46: the checks of R8 in order as `↔`s, and what stands after a definition or a removal. -/
theorem configureServiceDefinesService : Obligations.ConfigureServiceDefinesService := by
  intro s p a h i answers zeros sound busy restored
  let u := openExchange s p 0x11
  have hlist : u.servicesOf a.lane = s.servicesOf a.lane := by
    unfold u
    rw [openExchange_frame s p 0x11]
    rfl
  have hb : claimed u i = true ↔ busy := by
    rw [claimed_iff]
    simp [u, busy, State.schedule]
  have hrestored : ∀ {t w : State} {v : Service}, (∀ j, w.svc j = s.svc j) → (∀ k, w.lane k = s.lane k) →
      (∀ k, t.lane k = (redefine w i v).lane k) → restored t := by
    intro t w v hw hl ht d hd q hq
    rw [ht, redefine_restored w (hw i ▸ hd) hq, hl]
  have hothers : ∀ {t w : State} {v : Service}, (∀ j, w.svc j = s.svc j) → (∀ j, t.svc j = (redefine w i v).svc j) →
      ∀ j, j ≠ i → (t.svc j).defn = (s.svc j).defn ∧ (t.svc j).clk = (s.svc j).clk := by
    intro t w v hw ht j hj
    rw [ht, (redefine_others w hj).1, (redefine_others w hj).2, hw]
    exact ⟨rfl, rfl⟩
  refine ⟨fun h0 => ⟨fun hbad => ?_, fun cs hs hcs => ?_⟩, fun h0 => ⟨fun hbad => ?_, fun hi hr hz hc => ?_, fun hi hr hz hc => ?_⟩⟩
  · refine configureService_refused h (runConfigureService_unsound h0 (hbad.imp_left fun hn => ?_))
    exact Bool.eq_false_iff.mpr fun hs => hn ((serviceArgsOk_iff a).1 hs)
  · intro pids named taken full
    have hrun := runConfigureService_sound (s := u) h0 ((serviceArgsOk_iff a).2 hs) hcs
    have hnamed : definitionOk (defOf a cs) = true ↔ named := definitionOk_iff a cs
    have htaken : pidTaken u i (defOf a cs) = true ↔ taken := by
      rw [pidTaken_iff, hlist]
      simp only [u, openExchange_svc]
      rfl
    have hfull : laneFull u i a.lane = true ↔ full := by
      rw [laneFull, hlist]
      exact decide_eq_true_iff
    have hpass : named → ¬taken → ¬(definitionOk (defOf a cs) = false ∨ pidTaken u a.svc (defOf a cs) = true) := by
      rintro hn ht (hd | hd)
      · rw [hnamed.2 hn] at hd
        cases hd
      · exact ht (htaken.1 hd)
    refine ⟨fun hbad => ?_, fun hn ht hc => ?_, fun hn ht hc hf => ?_, fun hn ht hc hf => ?_⟩
    · refine configureService_refused h (hrun.trans (if_pos (hbad.imp (fun hn => ?_) htaken.2)))
      exact Bool.eq_false_iff.mpr fun hd => hn (hnamed.1 hd)
    · refine configureService_refused h (hrun.trans ((if_neg (hpass hn ht)).trans (if_pos (hb.2 hc))))
    · refine configureService_refused h
        (hrun.trans ((if_neg (hpass hn ht)).trans ((if_neg fun x => hc (hb.1 x)).trans (if_pos (hfull.2 hf)))))
    · rw [if_neg (hpass hn ht), if_neg fun x => hc (hb.1 x), if_neg fun x => hf (hfull.1 x)] at hrun
      obtain ⟨t, ht, hreply, hsvc, hlane⟩ := configureService_done h hrun rfl
      obtain ⟨j, x, hj, hx, hbytes⟩ := leadBytesOf_of_hasLead ((hasLead_iff cs).2 hn.2.2.2.2)
      have hi : t.svc i = { Service.reset with defn := some (defOf a cs), sp := SpliceRec.reset cs.length } :=
        (hsvc i).trans (redefine_svc u (Bool.eq_false_iff.mpr fun x => hc (hb.1 x)) rfl)
      refine ⟨t, j, x, ht, hj, hx, hbytes ▸ hreply, ?_, ?_, ?_, ?_, ?_, ?_⟩
      · rw [hi]
        rfl
      · rw [hi]
        rfl
      · rw [hi]
        rfl
      · rw [hi]
        rfl
      · exact hrestored (openExchange_svc s p 0x11) (openExchange_lane s p 0x11) hlane
      · exact hothers (openExchange_svc s p 0x11) hsvc
  · refine configureService_refused h ((runConfigureService_removal h0).trans (if_pos ?_))
    exact Bool.eq_false_iff.mpr fun hd => hbad ((removalArgsOk_iff h0).1 hd)
  · have hok : ¬removalArgsOk a = false := by simp [(removalArgsOk_iff h0).2 ⟨hi, hr, hz⟩]
    exact configureService_refused h ((runConfigureService_removal h0).trans ((if_neg hok).trans (if_pos (hb.2 hc))))
  · have hok : ¬removalArgsOk a = false := by simp [(removalArgsOk_iff h0).2 ⟨hi, hr, hz⟩]
    have hnc : ¬claimed u a.svc = true := fun x => hc (hb.1 x)
    obtain ⟨t, ht, hreply, hsvc, hlane⟩ :=
      configureService_done h ((runConfigureService_removal h0).trans ((if_neg hok).trans (if_neg hnc))) rfl
    refine ⟨t, _, ht, hreply, by simp [freeBytes, leBytes_length], ?_, ?_, ?_⟩
    · exact (hsvc i).trans (redefine_svc u.fresh.2 (Bool.eq_false_iff.mpr hnc) rfl)
    · exact hrestored (w := u.fresh.2) (openExchange_svc s p 0x11) (openExchange_lane s p 0x11) hlane
    · exact hothers (w := u.fresh.2) (openExchange_svc s p 0x11) hsvc

end Sys2Proof.Machine
end

section
/-! SLOT (R13 to R18). -/

namespace Sys2Proof.Machine

variable (s : State)

/-! ### What the merger leaves -/

@[simp] theorem settle_lanes : (settle s).lanes = s.lanes := (Kept.settle (Kept.refl s)).lanes
@[simp] theorem rest_lanes : (rest s).lanes = s.lanes := (Kept.rest (Kept.refl s)).lanes
@[simp] theorem dropHead_lanes (i : Nat) : (dropHead s i).lanes = s.lanes := by simp [dropHead]

@[simp] theorem lateTests_lanes (n k i x : Nat) : (lateTests n s k i x).lanes = s.lanes := by
  induction n generalizing s with
  | zero => rfl
  | succ n ih =>
    by_cases hl : ∃ g, considered s k i x = some g ∧ tooLate s k x g = true
    · obtain ⟨g, hg, hlate⟩ := hl
      rw [lateTests_of_late s k i x g hg hlate, ih, settle_lanes, dropHead_lanes]
    · rw [lateTests_of_none_late s k i x fun g hg => Bool.eq_false_iff.mpr fun hlate => hl ⟨g, hg, hlate⟩]

theorem foldl_lateTests_lanes (n k x : Nat) (l : List Nat) : (l.foldl (fun s i => lateTests n s k i x) s).lanes = s.lanes := by
  induction l generalizing s with
  | nil => rfl
  | cons i r ih => rw [List.foldl_cons, ih, lateTests_lanes]

@[simp] theorem handBack_lanes (k q : Nat) : (handBack s k q).lanes = s.lanes := by
  unfold handBack
  dsimp only
  repeat' split
  all_goals simp

/-! ### The choice (R14) -/

/-- The candidate of the FIFO: its head, when due (R13, R14). -/
theorem candidates_eq (k x : Nat) : ∃ net, candidates s k x =
      net ++ (s.servicesOf k).filterMap (fun i => (considered s k i x).map (fun h => (Choice.clip i, h.due)))
    ∧ (∀ c ∈ net, ∃ e r, (s.lane k).fifo = e :: r ∧ c = (Choice.network, addMod nClk e.stamp (msTicks (s.lane k).cfg.delay))
        ∧ atOrAfter nClk x c.2 = true)
    ∧ ∀ e r, (s.lane k).fifo = e :: r → atOrAfter nClk x (addMod nClk e.stamp (msTicks (s.lane k).cfg.delay)) = true →
      net = [(Choice.network, addMod nClk e.stamp (msTicks (s.lane k).cfg.delay))] := by
  refine ⟨_, rfl, ?_, ?_⟩
  · intro c hc
    split at hc
    · next e r hf =>
      dsimp only at hc
      split at hc
      · next hd =>
        rw [List.mem_singleton.mp hc]
        exact ⟨e, r, hf, rfl, hd⟩
      · simp at hc
    · simp at hc
  · intro e r hf hd
    rw [hf]
    dsimp only
    rw [dueAt, if_pos hd]

/-- What the earliest of some candidates is among. -/
theorem earliestOf_mem (x : Nat) (l : List (Choice × Nat)) (b : Choice × Nat) : ∃ c ∈ b :: l, earliestOf x l b = c.1 := by
  induction l generalizing b with
  | nil => exact ⟨b, by simp, rfl⟩
  | cons c r ih =>
    unfold earliestOf
    split
    · obtain ⟨y, hy, he⟩ := ih c
      exact ⟨y, by simp [List.mem_cons.mp hy], he⟩
    · obtain ⟨y, hy, he⟩ := ih b
      refine ⟨y, ?_, he⟩
      rcases List.mem_cons.mp hy with h | h
      · simp [h]
      · simp [h]

/-- The first candidate stays chosen when no later one is due before it. -/
theorem earliestOf_first {x : Nat} {l : List (Choice × Nat)} {b : Choice × Nat} (h : ∀ c ∈ l, sdiff nClk x c.2 ≤ sdiff nClk x b.2) :
    earliestOf x l b = b.1 := by
  induction l with
  | nil => rfl
  | cons c r ih =>
    unfold earliestOf
    rw [if_neg (not_lt.mpr (h c (by simp))), ih fun d hd => h d (by simp [hd])]

/-- A candidate later in the list is chosen when those before it are due after it, and none behind it is due before it. -/
theorem earliestOf_later {x : Nat} {l r : List (Choice × Nat)} {b c : Choice × Nat} (hb : sdiff nClk x b.2 < sdiff nClk x c.2)
    (hl : ∀ d ∈ l, sdiff nClk x d.2 < sdiff nClk x c.2) (hr : ∀ d ∈ r, sdiff nClk x d.2 ≤ sdiff nClk x c.2) :
    earliestOf x (l ++ c :: r) b = c.1 := by
  induction l generalizing b with
  | nil =>
    rw [List.nil_append, earliestOf, if_pos hb]
    exact earliestOf_first hr
  | cons d t ih =>
    rw [List.cons_append, earliestOf]
    split
    · exact ih (hl d (by simp)) fun y hy => hl y (by simp [hy])
    · exact ih hb fun y hy => hl y (by simp [hy])

/-- What is chosen has something to send. -/
theorem chooseSlot_network {k x : Nat} (h : chooseSlot s k x = .network) : ∃ e r, (s.lane k).fifo = e :: r := by
  obtain ⟨net, hc, hn, -⟩ := candidates_eq s k x
  unfold chooseSlot at h
  split at h
  · next c r hl =>
    obtain ⟨y, hy, he⟩ := earliestOf_mem x r c
    rw [h] at he
    rw [← hl, hc, List.mem_append] at hy
    rcases hy with hy | hy
    · obtain ⟨e, r, hf, -⟩ := hn y hy
      exact ⟨e, r, hf⟩
    · obtain ⟨i, -, hi⟩ := List.mem_filterMap.mp hy
      obtain ⟨g, -, rfl⟩ := Option.map_eq_some_iff.mp hi
      cases he
  · cases h

theorem chooseSlot_clip {k x i : Nat} (h : chooseSlot s k x = .clip i) : ∃ g, (s.sp i).head = some g := by
  obtain ⟨net, hc, hn, -⟩ := candidates_eq s k x
  unfold chooseSlot at h
  split at h
  · next c r hl =>
    obtain ⟨y, hy, he⟩ := earliestOf_mem x r c
    rw [h] at he
    rw [← hl, hc, List.mem_append] at hy
    rcases hy with hy | hy
    · obtain ⟨e, r, -, rfl, -⟩ := hn y hy
      cases he
    · obtain ⟨j, -, hj⟩ := List.mem_filterMap.mp hy
      obtain ⟨g, hg, rfl⟩ := Option.map_eq_some_iff.mp hj
      cases he
      exact ⟨g, ((considered_iff s k _ x g).1 hg).1⟩
  · cases h

/-! ### The send -/

/-- The lane that has sent a packet of its FIFO's head (R12, R18). -/
def Lane.sentNetwork (l : Lane) (e : FifoElem) (r : List FifoElem) : Lane :=
  { l with fifo := r, out := some (setCC e.pkt (networkCC ((l.pid (pktPid e.pkt)).afterNetwork e.resume) e.pkt e.resume).1) }.setPid
    (pktPid e.pkt) (networkCC ((l.pid (pktPid e.pkt)).afterNetwork e.resume) e.pkt e.resume).2

/-- The lane that has sent a clip packet (R17). -/
def Lane.sentClip (l : Lane) (h : HeadPkt) : Lane :=
  { l with out := some (setCC h.pkt (clipCC (l.pid h.pid) h.pkt).1) }.setPid h.pid (clipCC (l.pid h.pid) h.pkt).2

variable {s}

/-- The FIFO's head is sent, and a marked one with the tail at 0 hands its PID back (R16). -/
theorem sendNetwork_eq {k : Nat} {e : FifoElem} {r : List FifoElem} (hf : (s.lane k).fifo = e :: r) : sendNetwork s k =
    if e.resume = true ∧ ((s.lane k).pid (pktPid e.pkt)).tail = 0 then handBack (s.setLane k ((s.lane k).sentNetwork e r)) k (pktPid e.pkt)
    else s.setLane k ((s.lane k).sentNetwork e r) := by
  unfold sendNetwork
  dsimp only
  rw [hf]
  rfl

theorem sendNetwork_lanes {k : Nat} {e : FifoElem} {r : List FifoElem} (hf : (s.lane k).fifo = e :: r) :
    (sendNetwork s k).lanes = (s.setLane k ((s.lane k).sentNetwork e r)).lanes := by
  rw [sendNetwork_eq hf]
  split
  · exact handBack_lanes _ _ _
  · rfl

theorem sendClip_lane {k i : Nat} {h : HeadPkt} (hh : (s.sp i).head = some h) (j : Nat) :
    (sendClip s k i).lane j = (s.setLane k ((s.lane k).sentClip h)).lane j := by
  rw [sendClip_eq s k i h hh]
  rfl

/-- The send leaves the other lanes. -/
theorem sendChoice_lane_ne {k j : Nat} (hj : j ≠ k) (c : Choice) : (sendChoice s k c).lane j = s.lane j := by
  have hl : ∀ l, (s.setLane k l).lane j = s.lane j := fun l => by rw [State.lane_setLane, if_neg hj]
  cases c with
  | network =>
    show (sendNetwork s k).lane j = _
    cases hf : (s.lane k).fifo with
    | nil => simp [sendNetwork, hf]
    | cons e r => rw [State.lane, sendNetwork_lanes hf]; exact hl _
  | clip i =>
    show (sendClip s k i).lane j = _
    cases hh : (s.sp i).head with
    | none => simp [sendClip, hh]
    | some h => rw [sendClip_lane hh]; exact hl _
  | idle => exact hl _

/-- The lane that has sent something: its output is a packet, and its slot registers and settings stand. -/
structure Lane.Sent (l m : Lane) : Prop where
  out : m.out.isSome = true
  slotNo : m.slotNo = l.slotNo
  slotRem : m.slotRem = l.slotRem
  slotTime : m.slotTime = l.slotTime
  base : m.base = l.base
  mode : m.mode = l.mode
  cfg : m.cfg = l.cfg

theorem sendChoice_network {k x : Nat} (hc : chooseSlot s k x = .network) : ∃ e r, (s.lane k).fifo = e :: r
    ∧ (sendChoice s k .network).lane k = (s.lane k).sentNetwork e r := by
  obtain ⟨e, r, hf⟩ := chooseSlot_network s hc
  refine ⟨e, r, hf, ?_⟩
  show (sendNetwork s k).lane k = _
  rw [State.lane, sendNetwork_lanes hf]
  exact State.lane_setLane_self s k _

theorem sendChoice_clip {k x i : Nat} (hc : chooseSlot s k x = .clip i) : ∃ h, (s.sp i).head = some h
    ∧ (sendChoice s k (.clip i)).lane k = (s.lane k).sentClip h := by
  obtain ⟨h, hh⟩ := chooseSlot_clip s hc
  exact ⟨h, hh, (sendClip_lane hh k).trans (State.lane_setLane_self s k _)⟩

theorem sendChoice_idle (k : Nat) : (sendChoice s k .idle).lane k = { s.lane k with out := some nullPacket } :=
  State.lane_setLane_self s k _

/-- Every choice sends a packet (R13, R14). -/
theorem sendChoice_sent (k x : Nat) : (s.lane k).Sent ((sendChoice s k (chooseSlot s k x)).lane k) := by
  cases hc : chooseSlot s k x with
  | network =>
    obtain ⟨e, r, -, hl⟩ := sendChoice_network hc
    rw [hl]
    exact ⟨rfl, rfl, rfl, rfl, rfl, rfl, rfl⟩
  | clip i =>
    obtain ⟨h, -, hl⟩ := sendChoice_clip hc
    rw [hl]
    exact ⟨rfl, rfl, rfl, rfl, rfl, rfl, rfl⟩
  | idle =>
    rw [sendChoice_idle]
    exact ⟨rfl, rfl, rfl, rfl, rfl, rfl, rfl⟩

/-! ### SLOT -/

/-- The state in which a slot chooses: the count at the slot, and the late tests made (R15). -/
def State.tested (s : State) (k x : Nat) : State := (s.servicesOf k).foldl (fun s i => lateTests lateBound s k i x) (advanceTo s x)

/-- The state after the send, the accumulator at the next slot (R13). -/
def State.slotSent (s : State) (k x : Nat) : State :=
  (sendChoice s k (chooseSlot s k x)).setLane k ((sendChoice s k (chooseSlot s k x)).lane k).nextSlot

theorem advanceTo_servicesOf (k x : Nat) : (advanceTo s x).servicesOf k = s.servicesOf k := by
  rw [advanceTo_eq]
  rfl
theorem advanceTo_lane (j x : Nat) : (advanceTo s x).lane j = s.lane j := by
  rw [advanceTo_eq]
  rfl
theorem advanceTo_svc (j x : Nat) : (advanceTo s x).svc j = s.svc j := by
  rw [advanceTo_eq]
  rfl

theorem slot_eq {k : Nat} (hr : s.resetAsserted = false) (hm : (s.lane k).mode = .running) :
    slot s k = rest ((s.tested k (s.lane k).slotTime).slotSent k (s.lane k).slotTime) := by
  unfold slot
  dsimp only
  rw [if_neg (by simp [hr, hm]), advanceTo_servicesOf]
  rfl

theorem tested_lane (k x j : Nat) : (s.tested k x).lane j = s.lane j := by
  rw [State.lane, State.tested, foldl_lateTests_lanes]
  exact advanceTo_lane j x

/-- With no packet too late, nothing but the count has changed when the slot chooses. -/
theorem tested_of_none_late {k x : Nat} (h : ∀ i ∈ s.servicesOf k, ∀ g, considered s k i x = some g → tooLate s k x g = false) :
    s.tested k x = advanceTo s x := by
  refine lateTests_foldl _ k x _ _ fun i hi g hg => ?_
  have hc : considered (advanceTo s x) k i x = considered s k i x := by rw [advanceTo_eq]; rfl
  have ht : tooLate (advanceTo s x) k x g = tooLate s k x g := by rw [advanceTo_eq]; rfl
  rw [ht]
  exact h i hi g (hc ▸ hg)

theorem slotSent_lane (k x : Nat) : (s.slotSent k x).lane k = ((sendChoice s k (chooseSlot s k x)).lane k).nextSlot :=
  State.lane_setLane_self _ _ _

theorem slotSent_lane_ne {k j : Nat} (hj : j ≠ k) (x : Nat) : (s.slotSent k x).lane j = s.lane j := by
  rw [State.slotSent, State.lane_setLane, if_neg hj, sendChoice_lane_ne hj]

/-- With no candidate at the slot the choice is the null packet (R14). -/
theorem chooseSlot_idle {k x : Nat}
    (hf : ∀ e r, (s.lane k).fifo = e :: r → atOrAfter nClk x (addMod nClk e.stamp (msTicks (s.lane k).cfg.delay)) = false)
    (hc : ∀ i ∈ s.servicesOf k, considered s k i x = none) : chooseSlot s k x = .idle := by
  obtain ⟨net, he, hn, -⟩ := candidates_eq s k x
  have hnet : net = [] := List.eq_nil_iff_forall_not_mem.mpr fun c hm => by
    obtain ⟨e, r, hq, rfl, hd⟩ := hn c hm
    exact Bool.false_ne_true ((hf e r hq).symm.trans hd)
  have hsv : (s.servicesOf k).filterMap (fun i => (considered s k i x).map (fun h => (Choice.clip i, h.due))) = [] :=
    List.filterMap_eq_nil_iff.mpr fun i hi => by rw [hc i hi]; rfl
  rw [chooseSlot, he, hnet, hsv]
  rfl

/-- Settles O22: the slot's lane by what was chosen, the rest by the frames of the late tests, the send and `rest`. -/
theorem slotSendsOnePacketAndAdvances : Obligations.SlotSendsOnePacketAndAdvances := by
  intro s k hr hm at_ u l
  have hu : u = s.tested k.val at_ := rfl
  have hl : l = s.lane k.val := tested_lane k.val at_ k.val
  have hk : ∀ j, (rest (u.slotSent k.val at_)).lane j = (u.slotSent k.val at_).lane j := Kept.lane (Kept.rest (Kept.refl _))
  have hsent : (s.lane k.val).Sent ((sendChoice u k.val (chooseSlot u k.val at_)).lane k.val) := hl ▸ sendChoice_sent k.val at_
  have hlane := (hk k.val).trans (slotSent_lane k.val at_)
  refine ⟨rest (u.slotSent k.val at_), congrArg Host.Outcome.next (slot_eq hr hm), ?_, ?_, ?_, ?_, ?_, ?_, ?_, ?_, ?_, ?_⟩
  · rw [hlane]
    cases hc : chooseSlot u k.val at_ with
    | network =>
      obtain ⟨e, r, hf, he⟩ := sendChoice_network hc
      rw [he]
      dsimp only [l]
      rw [hf]
      rfl
    | clip i =>
      obtain ⟨h, hh, he⟩ := sendChoice_clip hc
      rw [he]
      dsimp only
      rw [hh]
      rfl
    | idle =>
      rw [sendChoice_idle]
      rfl
  · rw [hlane]
    exact hsent.out
  · rw [hlane, ← hsent.slotNo]
    rfl
  · rw [hlane, ← hsent.slotRem, ← hsent.cfg]
    rfl
  · rw [hlane, ← hsent.slotRem, ← hsent.cfg, ← hsent.slotTime]
    rfl
  · rw [hlane, ← hsent.base]
    rfl
  · rw [hlane, ← hm, ← hsent.mode]
    rfl
  · rw [hlane, ← hsent.cfg]
    rfl
  · intro j hj
    rw [hk, slotSent_lane_ne hj, hu, tested_lane]
  · intro hf hc
    have ha : u = advanceTo s at_ := tested_of_none_late fun i hi g hg => by rw [hc i hi] at hg; cases hg
    have hidle : chooseSlot u k.val at_ = .idle := by
      rw [ha]
      refine chooseSlot_idle (by rw [advanceTo_lane]; exact hf) fun i hi => ?_
      rw [advanceTo_servicesOf] at hi
      rw [← hc i hi, advanceTo_eq]
      rfl
    rw [hlane, hidle, sendChoice_idle]
    have : u.lane k.val = s.lane k.val := hl
    rw [this]
    exact ⟨rfl, rfl, rfl⟩

end Sys2Proof.Machine
end

section
/-! SLOT sends the FIFO's head (R14, R16, R18). -/

namespace Sys2Proof.Machine

/-- The counter of a network packet and the entry of its PID after it (R16, R18). -/
theorem networkCC_afterNetwork (p : PidEntry) (b : Pkt) (resume : Bool) :
    let last := p.lastCC.getD 15#4
    let input := pktCC b
    let offset := if resume then (if hasPayload b then last + 1#4 - input else last - input) else p.offset
    let duplicate := !resume && hasPayload b && p.prevIn == some input
    let cc := if duplicate then last else input + offset
    networkCC (p.afterNetwork resume) b resume = (cc,
      { lastCC := if hasPayload b && !duplicate then some cc else p.lastCC
        prevIn := if hasPayload b then some input else p.prevIn
        offset := offset
        tail := p.tail - 1
        owner := if resume && p.tail == 0 then .network else p.owner }) := by
  have ha : p.afterNetwork resume = { p with tail := p.tail - 1, owner := if resume && p.tail == 0 then .network else p.owner } := by
    unfold PidEntry.afterNetwork
    obtain ⟨lastCC, prevIn, offset, owner, tail⟩ := p
    cases tail <;> cases resume <;> rfl
  rw [ha]
  unfold networkCC PidEntry.readLast
  cases resume <;> cases hb : hasPayload b
  · simp
  · by_cases hp : p.prevIn = some (pktCC b) <;> simp [hp]
  · simp
  · simp

theorem sentNetwork_pid (l : Lane) (e : FifoElem) (r : List FifoElem) (q : Nat) : (l.sentNetwork e r).nextSlot.pid q =
    if q = pktPid e.pkt then (networkCC ((l.pid (pktPid e.pkt)).afterNetwork e.resume) e.pkt e.resume).2 else l.pid q :=
  Lane.pid_setPid { l with fifo := r, out := some _ } _ _ _

variable (s : State)

/-- A condition does not read the lanes. -/
theorem raise_setLane (i : Nat) (c : Cond) (k : Nat) (l : Lane) : raise (s.setLane k l) i c = (raise s i c).setLane k l := by
  have ho : ∀ (u : State) (p : PortId), offerCondition (u.setLane k l) i c p = (offerCondition u i c p).setLane k l :=
    fun u p => by
    unfold offerCondition
    rw [apply_ite (fun x : State => x.setLane k l)]
    rfl
  unfold raise
  dsimp only
  rw [apply_ite (fun x : State => x.setLane k l), ← ho, ← ho, ← ho]
  rfl

theorem setLane_setLane (k : Nat) (l m : Lane) : (s.setLane k l).setLane k m = s.setLane k m := by
  simp [State.setLane]

variable {s}

/-- The slot that sends the FIFO's head, before the accumulator goes on. -/
theorem slotSent_of_network {k x : Nat} {e : FifoElem} {r : List FifoElem} (hf : (s.lane k).fifo = e :: r)
    (hc : chooseSlot s k x = .network) : s.slotSent k x = (sendNetwork s k).setLane k ((s.lane k).sentNetwork e r).nextSlot := by
  have hl : (sendNetwork s k).lane k = (s.lane k).sentNetwork e r := by
    rw [State.lane, sendNetwork_lanes hf]
    exact State.lane_setLane_self s k _
  unfold State.slotSent
  rw [hc]
  show (sendNetwork s k).setLane k ((sendNetwork s k).lane k).nextSlot = _
  rw [hl]

/-- What a slot leaves that sends the FIFO's head: the lane after it and, in `d`, the splice record of a PID handed back; `u` is `d`
but for DROP, raised when a clip packet of that PID stood at the head (R16, R99). -/
theorem slotSent_network {k x : Nat} {e : FifoElem} {r : List FifoElem} (hf : (s.lane k).fifo = e :: r)
    (hc : chooseSlot s k x = .network) : ∃ (v : Table Service) (u d : State), s.slotSent k x = u ∧ u.lanes = d.lanes
      ∧ d = { s.setLane k ((s.lane k).sentNetwork e r).nextSlot with services := v }
      ∧ (e.resume = false ∨ ((s.lane k).pid (pktPid e.pkt)).tail ≠ 0
          ∨ (∀ i, serviceOfPid s k (pktPid e.pkt) = some i → compIndex (s.svc i) (pktPid e.pkt) = none) →
          u = d ∧ d.services = s.services)
      ∧ ∀ i j, e.resume = true → ((s.lane k).pid (pktPid e.pkt)).tail = 0 → serviceOfPid s k (pktPid e.pkt) = some i →
          compIndex (s.svc i) (pktPid e.pkt) = some j →
          let back := { s.sp i with comps := (s.sp i).comps.modify j (fun x => { x with unsent := false, handedBack := true }) }
          (∀ l, l ≠ i → d.svc l = s.svc l)
          ∧ (∀ h, (s.sp i).head = some h → h.pid = pktPid e.pkt →
              d.svc i = { s.svc i with sp := { back with head := none } } ∧ u = raise d i .drop)
          ∧ ((∀ h, (s.sp i).head = some h → h.pid ≠ pktPid e.pkt) → d.svc i = { s.svc i with sp := back } ∧ u = d) := by
  have hslot := slotSent_of_network hf hc
  have hset : (s.setLane k ((s.lane k).sentNetwork e r)).setLane k ((s.lane k).sentNetwork e r).nextSlot =
    s.setLane k ((s.lane k).sentNetwork e r).nextSlot := setLane_setLane s k _ _
  rw [sendNetwork_eq hf] at hslot
  by_cases hb : e.resume = true ∧ ((s.lane k).pid (pktPid e.pkt)).tail = 0
      ∧ ∃ i j, serviceOfPid s k (pktPid e.pkt) = some i ∧ compIndex (s.svc i) (pktPid e.pkt) = some j
  · obtain ⟨hr, ht, i, j, hi, hj⟩ := hb
    have hh := handBack_eq (s.setLane k ((s.lane k).sentNetwork e r)) k i (pktPid e.pkt) j hi hj
    rw [if_pos ⟨hr, ht⟩, hh] at hslot
    have hnot : ¬(e.resume = false ∨ ((s.lane k).pid (pktPid e.pkt)).tail ≠ 0
        ∨ (∀ i, serviceOfPid s k (pktPid e.pkt) = some i → compIndex (s.svc i) (pktPid e.pkt) = none)) := by
      rintro (h | h | h)
      · rw [hr] at h
        cases h
      · exact h ht
      · rw [h i hi] at hj
        cases hj
    have hsp : (s.setLane k ((s.lane k).sentNetwork e r)).sp i = s.sp i := rfl
    let back : SpliceRec → SpliceRec := fun p =>
      { p with comps := p.comps.modify j (fun x => { x with unsent := false, handedBack := true }) }
    have hsame : ∀ {a b : Nat}, serviceOfPid s k (pktPid e.pkt) = some a → compIndex (s.svc a) (pktPid e.pkt) = some b → a = i ∧ b = j := by
      intro a b ha hb
      obtain rfl := Option.some.inj (ha.symm.trans hi)
      exact ⟨rfl, Option.some.inj (hb.symm.trans hj)⟩
    by_cases hd : ∃ h, (s.sp i).head = some h ∧ h.pid = pktPid e.pkt
    · obtain ⟨h, hhead, hpid⟩ := hd
      rw [hsp, hhead] at hslot
      dsimp only at hslot
      rw [if_pos hpid, dropHead, ← raise_setLane] at hslot
      refine ⟨((s.modSp i back).modSp i (fun p => { p with head := none })).services, _, (((s.setLane k ((s.lane k).sentNetwork e r)).modSp i
        back).modSp i (fun p => { p with head := none })).setLane k ((s.lane k).sentNetwork e r).nextSlot, hslot, ?_, ?_, fun hn => absurd hn hnot,
        fun a b _ _ ha hb => ?_⟩
      · rw [raise_lanes]
      · rw [← hset]
        rfl
      · obtain ⟨rfl, rfl⟩ := hsame ha hb
        refine ⟨fun l hl => ?_, fun g hg hgp => ⟨?_, rfl⟩, fun hn => absurd hpid (hn h hhead)⟩
        · simp [State.modSp, State.svc_modSvc, hl]
        · simp [State.modSp, State.svc_modSvc, State.sp, back]
    · have hm : (match (s.sp i).head with
          | some h => if h.pid = pktPid e.pkt then dropHead ((s.setLane k ((s.lane k).sentNetwork e r)).modSp i back) i
            else (s.setLane k ((s.lane k).sentNetwork e r)).modSp i back
          | none => (s.setLane k ((s.lane k).sentNetwork e r)).modSp i back) =
          (s.setLane k ((s.lane k).sentNetwork e r)).modSp i back := by
        split
        · next h hhead => exact if_neg fun hp => hd ⟨h, hhead, hp⟩
        · rfl
      have hslot' := hslot.trans (congrArg (fun u => State.setLane u k ((s.lane k).sentNetwork e r).nextSlot) hm)
      refine ⟨(s.modSp i back).services, _, _, hslot', rfl, ?_, fun hn => absurd hn hnot, fun a b _ _ ha hb => ?_⟩
      · rw [← hset]
        rfl
      · obtain ⟨rfl, rfl⟩ := hsame ha hb
        refine ⟨fun l hl => ?_, fun g hg hgp => absurd ⟨g, hg, hgp⟩ hd, fun _ => ⟨?_, rfl⟩⟩
        · simp [State.modSp, State.svc_modSvc, hl]
        · simp [State.modSp, State.svc_modSvc, State.sp, back]
  · have hs : s.slotSent k x = s.setLane k ((s.lane k).sentNetwork e r).nextSlot := by
      rw [hslot, ← hset]
      congr 1
      split
      · next hc =>
        refine handBack_of_none _ _ _ fun i hi => ?_
        cases hj : compIndex ((s.setLane k ((s.lane k).sentNetwork e r)).svc i) (pktPid e.pkt) with
        | none => rfl
        | some j => exact absurd ⟨hc.1, hc.2, i, j, hi, hj⟩ hb
      · rfl
    exact ⟨s.services, _, _, hs, rfl, rfl, fun _ => ⟨rfl, rfl⟩, fun i j hr ht hi hj => absurd ⟨hr, ht, i, j, hi, hj⟩ hb⟩

/-- The FIFO's head is chosen when no clip packet was due before it: at equal due times the network goes first (R14). -/
theorem chooseSlot_network_of_first {k x : Nat} {e : FifoElem} {r : List FifoElem} (hf : (s.lane k).fifo = e :: r)
    (hd : atOrAfter nClk x (addMod nClk e.stamp (msTicks (s.lane k).cfg.delay)) = true)
    (hc : ∀ i ∈ s.servicesOf k, ∀ h, considered s k i x = some h →
      sdiff nClk x h.due ≤ sdiff nClk x (addMod nClk e.stamp (msTicks (s.lane k).cfg.delay))) : chooseSlot s k x = .network := by
  obtain ⟨net, he, -, hn⟩ := candidates_eq s k x
  rw [chooseSlot, he, hn e r hf hd]
  refine earliestOf_first fun c hm => ?_
  obtain ⟨i, hi, hci⟩ := List.mem_filterMap.mp hm
  obtain ⟨g, hg, rfl⟩ := Option.map_eq_some_iff.mp hci
  exact hc i hi g hg

/-- Settles O23: the choice falls on the FIFO's head, and the slot is `slotSent_network` from the state with the count at the slot. -/
theorem slotSendsNetworkPacketWithItsCounter : Obligations.SlotSendsNetworkPacketWithItsCounter := by
  intro s k e r hr hm hf at_ due hdue hnone pid p last input offset duplicate cc
  have hcons : ∀ i g, considered (advanceTo s at_) k i at_ = some g ↔ considered s k i at_ = some g := fun i g => by
    rw [advanceTo_eq]
    rfl
  have hl : (advanceTo s at_).lane k = s.lane k := advanceTo_lane k at_
  have htest : s.tested k at_ = advanceTo s at_ := tested_of_none_late fun i hi g hg => (hnone i hi g hg).1
  have hfa : ((advanceTo s at_).lane k).fifo = e :: r := hl ▸ hf
  have hchoice : chooseSlot (advanceTo s at_) k at_ = .network := by
    refine chooseSlot_network_of_first hfa (hl ▸ hdue) fun i hi g hg => ?_
    rw [advanceTo_servicesOf] at hi
    rw [hl]
    exact (hnone i hi g ((hcons i g).1 hg)).2
  obtain ⟨v, u, d, hslot, hlanes, hd, hsame, hback⟩ := slotSent_network hfa hchoice
  have hnet := networkCC_afterNetwork p e.pkt e.resume
  have hdl : d.lane k = ((s.lane k).sentNetwork e r).nextSlot := by
    rw [hd, ← hl]
    exact State.lane_setLane_self _ _ _
  refine ⟨d, u, ?_, ?_, hlanes, ?_, ?_, fun j hj => ?_, ?_, ?_, fun q hq => ?_, ?_, ?_⟩
  · rw [← hslot, ← htest]
    exact congrArg Host.Outcome.next (slot_eq hr hm)
  · exact rest_lanes u
  · rw [hd, advanceTo_eq]
    rfl
  · rw [hd, advanceTo_eq]
    rfl
  · have : d.lane j = (advanceTo s at_).lane j := by
      rw [hd]
      exact (State.lane_setLane _ _ _ _).trans (if_neg hj)
    rw [this, advanceTo_lane]
  · rw [hdl]
    have hcc : cc = (networkCC (p.afterNetwork e.resume) e.pkt e.resume).1 := (congrArg Prod.fst hnet).symm
    rw [hcc]
    rfl
  · rw [hdl, sentNetwork_pid, if_pos rfl]
    exact congrArg Prod.snd hnet
  · rw [hdl, sentNetwork_pid, if_neg hq]
  · intro h
    have ha : (advanceTo s at_).services = s.services := by rw [advanceTo_eq]
    rw [← ha]
    refine hsame ?_
    rw [hl]
    refine h.imp_right (Or.imp_right fun hn i hi => ?_)
    rw [advanceTo_svc]
    refine hn i ?_
    rw [← hi, advanceTo_eq]
    rfl
  · intro i j hres htail hi hj
    have hai : serviceOfPid (advanceTo s at_) k pid = some i := by
      rw [← hi, advanceTo_eq]
      rfl
    have h := hback i j hres (hl ▸ htail) hai ((advanceTo_svc i at_).symm ▸ hj)
    simp only [advanceTo_svc, State.sp] at h ⊢
    exact h

end Sys2Proof.Machine
end

section
/-! SLOT sends or drops a clip packet (R14 to R17). -/

namespace Sys2Proof.Machine

variable {s : State}

/-! ### The choice of a clip packet (R14) -/

/-- The candidate is chosen that those before it are due after, and none behind it before. -/
theorem chooseSlot_of_split {k x : Nat} {l r : List (Choice × Nat)} {c : Choice × Nat} (h : candidates s k x = l ++ c :: r)
    (hl : ∀ d ∈ l, sdiff nClk x d.2 < sdiff nClk x c.2) (hr : ∀ d ∈ r, sdiff nClk x d.2 ≤ sdiff nClk x c.2) :
    chooseSlot s k x = c.1 := by
  rw [chooseSlot, h]
  cases l with
  | nil => exact earliestOf_first hr
  | cons b t => exact earliestOf_later (hl b (by simp)) (fun d hd => hl d (by simp [hd])) hr

/-- The services of a lane stand in rising order (R14). -/
theorem servicesOf_pairwise (hw : Table.wf Service.reset s.services = true) (k : Nat) : (s.servicesOf k).Pairwise (· < ·) :=
  (List.pairwise_map.mpr ((Table.wf_iff _ _).1 hw).1).filter _

/-- A clip packet is chosen that was due before the network's and every other service's, or at the same time as a service's of a
higher number (R14). -/
theorem chooseSlot_clip_of_earliest {k x i : Nat} {h : HeadPkt} (hw : Table.wf Service.reset s.services = true) (hi : i ∈ s.servicesOf k)
    (hh : considered s k i x = some h)
    (hnet : ∀ e r, (s.lane k).fifo = e :: r → atOrAfter nClk x (addMod nClk e.stamp (msTicks (s.lane k).cfg.delay)) = false
      ∨ sdiff nClk x (addMod nClk e.stamp (msTicks (s.lane k).cfg.delay)) < sdiff nClk x h.due)
    (hothers : ∀ j ∈ s.servicesOf k, ∀ g, j ≠ i → considered s k j x = some g →
      sdiff nClk x g.due < sdiff nClk x h.due ∨ sdiff nClk x g.due = sdiff nClk x h.due ∧ i < j) : chooseSlot s k x = .clip i := by
  obtain ⟨net, he, hn, -⟩ := candidates_eq s k x
  obtain ⟨l, r, hsplit⟩ := List.append_of_mem hi
  have hp := servicesOf_pairwise hw k
  rw [hsplit, List.pairwise_append, List.pairwise_cons] at hp
  obtain ⟨-, ⟨hr, -⟩, hl⟩ := hp
  rw [hsplit, List.filterMap_append, List.filterMap_cons_some (b := (Choice.clip i, h.due)) (by rw [hh]; rfl), ← List.append_assoc] at he
  refine chooseSlot_of_split he (fun c hc => ?_) fun c hc => ?_
  · rcases List.mem_append.mp hc with hc | hc
    · obtain ⟨e, t, hf, rfl, hd⟩ := hn c hc
      exact (hnet e t hf).resolve_left fun hx => Bool.false_ne_true (hx.symm.trans hd)
    · obtain ⟨j, hj, hcj⟩ := List.mem_filterMap.mp hc
      obtain ⟨g, hg, rfl⟩ := Option.map_eq_some_iff.mp hcj
      have hlt : j < i := hl j hj i (by simp)
      exact (hothers j (by simp [hsplit, hj]) g hlt.ne hg).resolve_right fun hx => absurd hx.2 (by omega)
  · obtain ⟨j, hj, hcj⟩ := List.mem_filterMap.mp hc
    obtain ⟨g, hg, rfl⟩ := Option.map_eq_some_iff.mp hcj
    have hlt : i < j := hr j hj
    rcases hothers j (by simp [hsplit, hj]) g hlt.ne' hg with hx | hx
    · exact hx.le
    · exact hx.1.le

/-! ### The send -/

/-- The counter of a clip packet and the entry of its PID after it (R17). -/
theorem clipCC_eq (p : PidEntry) (b : Pkt) :
    let cc := if hasPayload b then p.lastCC.getD 15#4 + 1#4 else p.lastCC.getD 15#4
    clipCC p b = (cc, { p with lastCC := if hasPayload b then some cc else p.lastCC }) := by
  unfold clipCC PidEntry.readLast
  cases hasPayload b <;> rfl

theorem sentClip_pid (l : Lane) (h : HeadPkt) (q : Nat) :
    (l.sentClip h).nextSlot.pid q = if q = h.pid then (clipCC (l.pid h.pid) h.pkt).2 else l.pid q :=
  Lane.pid_setPid { l with out := some _ } _ _ _

/-- The slot that sends a clip packet, before `rest`. -/
theorem slotSent_of_clip {k x i : Nat} {h : HeadPkt} (hh : (s.sp i).head = some h) (hc : chooseSlot s k x = .clip i) :
    s.slotSent k x = (s.setLane k ((s.lane k).sentClip h).nextSlot).modSp i (fun p => { p with head := none }) := by
  have hl : (sendClip s k i).lane k = (s.lane k).sentClip h := (sendClip_lane hh k).trans (State.lane_setLane_self s k _)
  unfold State.slotSent
  rw [hc]
  show (sendClip s k i).setLane k ((sendClip s k i).lane k).nextSlot = _
  rw [hl, sendClip_eq s k i h hh]
  exact congrArg (fun u : State => u.modSp i (fun p => { p with head := none })) (setLane_setLane s k _ _)

/-! ### The late tests (R15) -/

theorem tooLate_iff (k x : Nat) (h : HeadPkt) : tooLate s k x h = true ↔
    atOrAfter nClk h.due h.w = true ∧ ((s.lane k).cfg.lateLimit * 27000 : Nat) < sdiff nClk x h.due := by
  simp [tooLate, msTicks]

theorem dropHead_kept (i : Nat) : Kept s (dropHead s i) := Kept.raise (Kept.modSp (Kept.refl s) i _) i .drop

theorem lateTests_kept (n k i x : Nat) : Kept s (lateTests n s k i x) := by
  induction n generalizing s with
  | zero => exact Kept.refl s
  | succ n ih =>
    by_cases hl : ∃ g, considered s k i x = some g ∧ tooLate s k x g = true
    · obtain ⟨g, hg, hlate⟩ := hl
      rw [lateTests_of_late s k i x g hg hlate]
      exact (dropHead_kept i).settle.trans ih
    · rw [lateTests_of_none_late s k i x fun g hg => Bool.eq_false_iff.mpr fun hlate => hl ⟨g, hg, hlate⟩]
      exact Kept.refl s

theorem foldl_lateTests_kept (n k x : Nat) (l : List Nat) : Kept s (l.foldl (fun s i => lateTests n s k i x) s) := by
  induction l generalizing s with
  | nil => exact Kept.refl s
  | cons i r ih => exact (lateTests_kept n k i x).trans ih

/-- The send clears no flag. -/
theorem sendChoice_flags {k i : Nat} (c : Choice) {n : Nat} (h : (s.svc i).cond.flags.getLsbD n = true) :
    ((sendChoice s k c).svc i).cond.flags.getLsbD n = true := by
  have hm : ∀ (u : State) (j : Nat) (f : SpliceRec → SpliceRec), (u.svc i).cond.flags.getLsbD n = true →
      ((u.modSp j f).svc i).cond.flags.getLsbD n = true := fun u j f => (Kept.modSp (Kept.refl u) j f).flags i n
  cases c with
  | network =>
    show ((sendNetwork s k).svc i).cond.flags.getLsbD n = true
    cases hf : (s.lane k).fifo with
    | nil => simpa [sendNetwork, hf] using h
    | cons e r =>
      rw [sendNetwork_eq hf]
      split
      · unfold handBack
        dsimp only
        repeat' split
        · exact h
        · exact h
        · exact (dropHead_kept _).flags i n (hm _ _ _ h)
        · exact hm _ _ _ h
        · exact hm _ _ _ h
      · exact h
  | clip j =>
    show ((sendClip s k j).svc i).cond.flags.getLsbD n = true
    cases hh : (s.sp j).head with
    | none => simpa [sendClip, hh] using h
    | some g =>
      rw [sendClip_eq s k j g hh]
      exact hm _ _ _ h
  | idle => exact h

/-- A packet that is too late is dropped with DROP (R15). -/
theorem lateTests_drop {k i x : Nat} {h : HeadPkt} (hc : considered s k i x = some h) (hl : tooLate s k x h = true) (n : Nat) :
    ((lateTests (n + 1) s k i x).svc i).cond.flags.getLsbD Cond.drop.pos = true := by
  rw [lateTests_of_late s k i x h hc hl]
  exact (lateTests_kept n k i x).flags i _ ((Kept.settle (Kept.refl _)).flags i _ (raise_flag _ i .drop))

theorem foldl_lateTests_drop {k i x : Nat} {h : HeadPkt} (hc : considered s k i x = some h) (hl : tooLate s k x h = true) (n : Nat)
    {l : List Nat} (hi : i ∈ l) (ho : ∀ j ∈ l, j ≠ i → (s.sp j).head = none) :
    ((l.foldl (fun s i => lateTests (n + 1) s k i x) s).svc i).cond.flags.getLsbD Cond.drop.pos = true := by
  induction l with
  | nil => simp at hi
  | cons j r ih =>
    rw [List.foldl_cons]
    by_cases hj : j = i
    · subst hj
      exact (foldl_lateTests_kept (n + 1) k x r).flags j _ (lateTests_drop hc hl n)
    · have hnone : lateTests (n + 1) s k j x = s := by
        refine lateTests_of_none_late s k j x (fun g hg => ?_) (n + 1)
        have hhead := ((considered_iff s k j x g).1 hg).1
        rw [ho j (by simp) hj] at hhead
        cases hhead
      rw [hnone]
      exact ih ((List.mem_cons.mp hi).resolve_left (Ne.symm hj)) fun a ha => ho a (by simp [ha])

theorem lateBound_succ : ∃ n, lateBound = n + 1 := ⟨4294967295, by decide⟩

/-- Settles O24: the choice and the send of a clip packet, a packet that is too late, and one late test. -/
theorem slotSendsClipPacketWithNextCounter : Obligations.SlotSendsClipPacketWithNextCounter := by
  constructor
  on_goal 1 =>
    intro s k i h hr hm hi hh at_ hdue howner htail late last cc
    refine ⟨fun hlate hw hnet hothers => ?_, fun hw hlate hf ho => ?_⟩
  on_goal 3 =>
    intro s k i at_ n tested late
    refine ⟨fun hn => ?_, fun h ht hl => ?_⟩
  · have hc : considered s k i at_ = some h := (considered_iff s k i at_ h).2 ⟨hh, hdue, howner, htail⟩
    have hl : (advanceTo s at_).lane k = s.lane k := advanceTo_lane k at_
    have hcons : ∀ j, considered (advanceTo s at_) k j at_ = considered s k j at_ := fun j => by
      rw [advanceTo_eq]
      rfl
    have hnl : tooLate s k at_ h = false := Bool.eq_false_iff.mpr fun hx => by
      obtain ⟨hx1, hx2⟩ := (tooLate_iff k at_ h).1 hx
      rcases hlate with hy | hy
      · rw [hx1] at hy
        cases hy
      · simp only [late] at hy
        push_cast at hx2
        omega
    have htest : s.tested k at_ = advanceTo s at_ := tested_of_none_late fun j hj g hg => by
      by_cases hji : j = i
      · subst hji
        obtain rfl := Option.some.inj (hg.symm.trans hc)
        exact hnl
      · exact (hothers j hj g hji hg).1
    have hserv : (advanceTo s at_).services = s.services := by rw [advanceTo_eq]
    have hha : ((advanceTo s at_).sp i).head = some h := by rw [State.sp, advanceTo_svc]; exact hh
    have hchoice : chooseSlot (advanceTo s at_) k at_ = .clip i := by
      refine chooseSlot_clip_of_earliest (hserv ▸ hw) (by rw [advanceTo_servicesOf]; exact hi) ((hcons i).trans hc) ?_ ?_
      · rw [hl]
        exact hnet
      · intro j hj g hji hg
        rw [advanceTo_servicesOf] at hj
        exact (hothers j hj g hji ((hcons j).symm.trans hg)).2
    have hslot := slotSent_of_clip hha hchoice
    rw [hl] at hslot
    have hcc := clipCC_eq ((s.lane k).pid h.pid) h.pkt
    refine ⟨(advanceTo s at_).slotSent k at_, ?_, rest_lanes _, ?_, ?_, fun j hj => ?_, ?_, fun j hj => ?_, ?_, ?_, fun q hq => ?_⟩
    · rw [← htest]
      exact congrArg Host.Outcome.next (slot_eq hr hm)
    · rw [hslot, advanceTo_eq]
      rfl
    · rw [hslot, advanceTo_eq]
      rfl
    · rw [hslot, State.modSp, State.svc_modSvc, if_neg hj]
      exact advanceTo_svc j at_
    · rw [hslot, State.modSp, State.svc_modSvc, if_pos rfl, State.setLane_svc, advanceTo_svc]
      rfl
    · rw [slotSent_lane_ne hj, advanceTo_lane]
    all_goals rw [hslot, State.modSp_lane, State.lane_setLane_self]
    · have hc1 : cc = (clipCC ((s.lane k).pid h.pid) h.pkt).1 := (congrArg Prod.fst hcc).symm
      rw [hc1]
      rfl
    · rw [sentClip_pid, if_pos rfl]
      exact congrArg Prod.snd hcc
    · rw [sentClip_pid, if_neg hq]
  · have hc : considered (advanceTo s at_) k i at_ = some h := by
      have : considered (advanceTo s at_) k i at_ = considered s k i at_ := by
        rw [advanceTo_eq]
        rfl
      rw [this]
      exact (considered_iff s k i at_ h).2 ⟨hh, hdue, howner, htail⟩
    have hl : tooLate (advanceTo s at_) k at_ h = true := by
      refine (tooLate_iff k at_ h).2 ⟨hw, ?_⟩
      rw [advanceTo_lane]
      push_cast
      exact hlate
    obtain ⟨n, hn⟩ := lateBound_succ
    have hflag := foldl_lateTests_drop hc hl n hi fun j hj hji => by
      rw [State.sp, advanceTo_svc]
      exact ho j hj hji
    rw [← hn] at hflag
    refine ⟨slot s k, rfl, ?_⟩
    rw [slot_eq hr hm]
    exact (Kept.rest (Kept.refl _)).flags i _ (sendChoice_flags _ hflag)
  · refine lateTests_of_none_late s k i at_ (fun g hg => ?_) n
    exact Bool.eq_false_iff.mpr fun hx => hn g ((considered_iff s k i at_ g).1 hg) ((tooLate_iff k at_ g).1 hx)
  · refine ⟨s.modSp i (fun p => { p with head := none }), ?_, rfl, fun j hj => ?_, ?_, raise_flag _ i .drop⟩
    · exact lateTests_of_late s k i at_ h ((considered_iff s k i at_ h).2 ht) ((tooLate_iff k at_ h).2 hl) n
    · rw [State.modSp, State.svc_modSvc, if_neg hj]
    · rw [State.modSp, State.svc_modSvc, if_pos rfl]
      rfl

end Sys2Proof.Machine
end

section
/-! Rebasing a packet (R88): writing times into a packet's bytes and reading them back (R207). -/

namespace Sys2Proof.Machine

/-! ### Bytes of a packet -/

theorem putAt_length {b : Pkt} {o : Nat} {v : List Byte} (h : o + v.length ≤ b.length) : (putAt b o v).length = b.length := by
  simp [putAt]
  omega

/-- What a byte reads after some were replaced. -/
theorem byteAt_putAt {b : Pkt} {o : Nat} {v : List Byte} (h : o + v.length ≤ b.length) (j : Nat) :
    byteAt (putAt b o v) j = if o ≤ j ∧ j < o + v.length then byteAt v (j - o) else byteAt b j := by
  have ho : (b.take o).length = o := by
    simp
    omega
  simp only [byteAt, putAt, List.append_assoc, List.getD_eq_getElem?_getD]
  by_cases h1 : j < o
  · rw [List.getElem?_append_left (by omega), if_neg (by omega), List.getElem?_take_of_lt h1]
  · rw [List.getElem?_append_right (by omega), ho]
    by_cases h2 : j < o + v.length
    · rw [List.getElem?_append_left (by omega), if_pos (by omega)]
    · rw [List.getElem?_append_right (by omega), if_neg (by omega), List.getElem?_drop]
      congr 2
      omega

/-- A field of bits under a mask reads the value put there. -/
theorem masked_toNat_div_two {x : Byte} {m : Nat} (hm : m < 128) : (((x &&& 0x01#8) ||| BitVec.ofNat 8 (m * 2)).toNat) / 2 = m := by
  refine Nat.eq_of_testBit_eq fun i => ?_
  have h1 : (0x01#8).getLsbD (i + 1) = false := by
    rcases i with _ | _ | _ | _ | _ | _ | _ | i <;> simp [BitVec.getLsbD_of_ge]
  rw [Nat.testBit_div_two, BitVec.testBit_toNat, BitVec.getLsbD_or, BitVec.getLsbD_and, h1, Bool.and_false, Bool.false_or,
    BitVec.getLsbD_ofNat, ← Nat.pow_one 2, Nat.testBit_mul_two_pow]
  by_cases hi : i + 1 < 8
  · simp [hi]
  · have : m < 2 ^ i := lt_of_lt_of_le (show m < 2 ^ 7 from hm) (Nat.pow_le_pow_right (by omega) (by omega))
    simp [hi, Nat.testBit_lt_two_pow this]

theorem masked_toNat_div_two_mod {x : Byte} {m : Nat} (hm : m < 8) :
    (((x &&& 0xF1#8) ||| BitVec.ofNat 8 (m * 2)).toNat) / 2 % 8 = m := by
  refine Nat.eq_of_testBit_eq fun i => ?_
  refine (Nat.testBit_mod_two_pow (_ / 2) 3 i).trans ?_
  rw [Nat.testBit_div_two, BitVec.testBit_toNat, BitVec.getLsbD_or, BitVec.getLsbD_and]
  by_cases hi : i < 3
  · have h1 : (0xF1#8).getLsbD (i + 1) = false := by
      rcases i with _ | _ | _ | i
      · rfl
      · rfl
      · rfl
      · omega
    rw [h1, BitVec.getLsbD_ofNat, ← Nat.pow_one 2, Nat.testBit_mul_two_pow]
    simp [hi, show i + 1 < 8 by omega]
  · have : m < 2 ^ i := lt_of_lt_of_le (show m < 2 ^ 3 from hm) (Nat.pow_le_pow_right (by omega) (by omega))
    simp [hi, Nat.testBit_lt_two_pow this]

/-- A PES time written reads back (R207). -/
theorem stampAt_setStamp {b : Pkt} {o v : Nat} (h : o + 5 ≤ b.length) (hv : v < nPts) : stampAt (setStamp b o v) o = v := by
  have hn : nPts = 8589934592 := rfl
  have hr : ∀ j, byteAt (setStamp b o v) j = _ := byteAt_putAt (o := o) (v := [_, _, _, _, _]) h
  have h0 := hr o
  have h1 := hr (o + 1)
  have h2 := hr (o + 2)
  have h3 := hr (o + 3)
  have h4 := hr (o + 4)
  simp only [List.length_cons, List.length_nil] at h0 h1 h2 h3 h4
  rw [if_pos (by omega)] at h0 h1 h2 h3 h4
  simp only [Nat.sub_self, Nat.add_sub_cancel_left, byteAt, List.getD_cons_zero, List.getD_cons_succ] at h0 h1 h2 h3 h4
  have m0 := masked_toNat_div_two_mod (x := byteAt b o) (m := v / 1073741824 % 8) (by omega)
  have m2 := masked_toNat_div_two (x := byteAt b (o + 2)) (m := v / 32768 % 128) (by omega)
  have m4 := masked_toNat_div_two (x := byteAt b (o + 4)) (m := v % 128) (by omega)
  simp only [byteAt] at m0 m2 m4
  simp only [stampAt, byteAt, h0, h1, h2, h3, h4, m0, m2, m4, BitVec.toNat_ofNat]
  omega

/-- The bits of a PCR's fifth byte: the last of the base and the first of the extension (R207). -/
theorem pcrByte_toNat {x : Byte} {p q : Nat} (hp : p < 2) (hq : q < 2) :
    ((x &&& 0x7E#8) ||| BitVec.ofNat 8 (p * 128 + q)).toNat / 128 = p ∧ ((x &&& 0x7E#8) ||| BitVec.ofNat 8 (p * 128 + q)).toNat % 2 = q := by
  have hlow : ∀ y : Byte, y.toNat % 2 = (y.getLsbD 0).toNat := fun y => by
    rw [← BitVec.testBit_toNat, Nat.testBit_zero]
    rcases Nat.mod_two_eq_zero_or_one y.toNat with h | h <;> simp [h]
  have hhigh : ∀ y : Byte, y.toNat / 128 = (y.getLsbD 7).toNat := fun y => by
    have hy := y.isLt
    rw [← BitVec.testBit_toNat, Nat.testBit_eq_decide_div_mod_eq, show 2 ^ 7 = 128 from rfl]
    have : y.toNat / 128 = 0 ∨ y.toNat / 128 = 1 := by omega
    rcases this with h | h <;> simp [h]
  rw [hhigh, hlow]
  have hp' : p = 0 ∨ p = 1 := by omega
  have hq' : q = 0 ∨ q = 1 := by omega
  rcases hp' with rfl | rfl <;> rcases hq' with rfl | rfl <;> simp

theorem pcrBase_eq {b : Pkt} (h : 10 ≤ b.length) : pcrBase b = (((byteAt b 6).toNat * 256 + (byteAt b 7).toNat) * 256
    + (byteAt b 8).toNat) * 512 + (byteAt b 9).toNat * 2 + (byteAt b 10).toNat / 128 := by
  have hs : slice b 6 4 = [byteAt b 6, byteAt b 7, byteAt b 8, byteAt b 9] := by
    refine List.ext_getElem (by simp [slice]; omega) fun j hj _ => ?_
    have hj4 : j < 4 := by
      simp [slice] at hj
      omega
    have : j = 0 ∨ j = 1 ∨ j = 2 ∨ j = 3 := by omega
    rcases this with rfl | rfl | rfl | rfl <;> simp [slice, byteAt, List.getD_eq_getElem?_getD,
      show 6 < b.length by omega, show 7 < b.length by omega, show 8 < b.length by omega, show 9 < b.length by omega]
  rw [pcrBase, hs]
  simp only [beVal, List.foldl_cons, List.foldl_nil]
  omega

/-- A PCR written reads back (R207). -/
theorem pcr_setPcr {b : Pkt} {v : Nat} (h : 12 ≤ b.length) (hv : v < nClk) : pcrBase (setPcr b v) * 300 + pcrExt (setPcr b v) = v := by
  have hn : nClk = 2576980377600 := rfl
  have hr : ∀ j, byteAt (setPcr b v) j = _ := byteAt_putAt (o := 6) (v := [_, _, _, _, _, _]) h
  have hl : (setPcr b v).length = b.length := putAt_length (v := [_, _, _, _, _, _]) h
  have h6 := hr 6
  have h7 := hr 7
  have h8 := hr 8
  have h9 := hr 9
  have h10 := hr 10
  have h11 := hr 11
  simp only [List.length_cons, List.length_nil] at h6 h7 h8 h9 h10 h11
  rw [if_pos (by omega)] at h6 h7 h8 h9 h10 h11
  obtain ⟨hp, hq⟩ := pcrByte_toNat (x := byteAt b 10) (p := v / 300 % 2) (q := v % 300 / 256) (by omega) (by omega)
  have e6 : byteAt (setPcr b v) 6 = BitVec.ofNat 8 (v / 300 / 33554432) := h6
  have e7 : byteAt (setPcr b v) 7 = BitVec.ofNat 8 (v / 300 / 131072) := h7
  have e8 : byteAt (setPcr b v) 8 = BitVec.ofNat 8 (v / 300 / 512) := h8
  have e9 : byteAt (setPcr b v) 9 = BitVec.ofNat 8 (v / 300 / 2) := h9
  have e10 : byteAt (setPcr b v) 10 = ((byteAt b 10) &&& 0x7E#8) ||| BitVec.ofNat 8 (v / 300 % 2 * 128 + v % 300 / 256) := h10
  have e11 : byteAt (setPcr b v) 11 = BitVec.ofNat 8 (v % 300) := h11
  rw [pcrBase_eq (by omega), pcrExt, e6, e7, e8, e9, e10, e11, hp, hq]
  simp only [BitVec.toNat_ofNat]
  omega

/-! ### Where a packet's fields stand -/

theorem pktAfc_congr {b c : Pkt} (h3 : byteAt c 3 = byteAt b 3) : pktAfc c = pktAfc b := by rw [pktAfc, h3, pktAfc]

theorem pktAfLen_congr {b c : Pkt} (h3 : byteAt c 3 = byteAt b 3) (h4 : byteAt c 4 = byteAt b 4) : pktAfLen c = pktAfLen b := by
  rw [pktAfLen, pktAfc_congr h3, h4, pktAfLen]

theorem payloadAt_congr {b c : Pkt} (h3 : byteAt c 3 = byteAt b 3) (h4 : byteAt c 4 = byteAt b 4) : payloadAt c = payloadAt b := by
  rw [payloadAt, pktAfc_congr h3, pktAfLen_congr h3 h4, payloadAt]

theorem hasPayload_congr {b c : Pkt} (h3 : byteAt c 3 = byteAt b 3) (h4 : byteAt c 4 = byteAt b 4) : hasPayload c = hasPayload b := by
  rw [hasPayload, pktAfc_congr h3, pktAfLen_congr h3 h4, hasPayload]

theorem hasPcr_congr {b c : Pkt} (h3 : byteAt c 3 = byteAt b 3) (h4 : byteAt c 4 = byteAt b 4) (h5 : byteAt c 5 = byteAt b 5) :
    hasPcr c = hasPcr b := by
  rw [hasPcr, hasAfFlags, pktAfc_congr h3, pktAfLen_congr h3 h4, h5, hasPcr, hasAfFlags]

/-- Whether a packet has a PES header with times, and whether with a DTS (R207). -/
def pesShape (b : Pkt) : Option Bool :=
  if pktPusi b && hasPesPrefix b && decide (9 + (byteAt b (payloadAt b + 8)).toNat ≤ 188 - payloadAt b) then
    if (byteAt b (payloadAt b + 7)).toNat / 64 = 2 ∧ 5 ≤ (byteAt b (payloadAt b + 8)).toNat then some false
    else if (byteAt b (payloadAt b + 7)).toNat / 64 = 3 ∧ 10 ≤ (byteAt b (payloadAt b + 8)).toNat then some true
    else none
  else none

theorem pktPes_eq (b : Pkt) : pktPes b = (pesShape b).map (fun d =>
    { pts := stampAt b (payloadAt b + 9), dts := if d then some (stampAt b (payloadAt b + 14)) else none }) := by
  unfold pktPes pesShape
  dsimp only
  repeat' split
  all_goals rfl

theorem pesShape_congr {b c : Pkt} (hl : c.length = b.length) (h1 : byteAt c 1 = byteAt b 1) (h3 : byteAt c 3 = byteAt b 3)
    (h4 : byteAt c 4 = byteAt b 4) (h : ∀ j, j < 9 → byteAt c (payloadAt b + j) = byteAt b (payloadAt b + j)) :
    pesShape c = pesShape b := by
  have h0 := h 0 (by omega)
  rw [Nat.add_zero] at h0
  rw [pesShape, pktPusi, hasPesPrefix, hasPayload_congr h3 h4, payloadAt_congr h3 h4, h1, h0, h 1 (by omega), h 2 (by omega),
    h 7 (by omega), h 8 (by omega), hl, pesShape, pktPusi, hasPesPrefix]

/-- A PES header with times lies within the packet. -/
theorem pesShape_fits {b : Pkt} {d : Bool} (h : pesShape b = some d) : 4 ≤ payloadAt b ∧ payloadAt b + 14 ≤ 188
    ∧ (d = true → payloadAt b + 19 ≤ 188) := by
  have h4 : 4 ≤ payloadAt b := by
    unfold payloadAt
    split <;> omega
  unfold pesShape at h
  split at h
  · next hc =>
    simp only [Bool.and_eq_true, decide_eq_true_eq] at hc
    obtain ⟨-, hfit⟩ := hc
    split at h
    · next hk => exact ⟨h4, by omega, fun hd => by cases h; cases hd⟩
    · split at h
      · next hk => exact ⟨h4, by omega, fun _ => by omega⟩
      · cases h
  · cases h

/-! ### Rebasing (R88) -/

theorem setStamp_length {b : Pkt} {o v : Nat} (h : o + 5 ≤ b.length) : (setStamp b o v).length = b.length :=
  putAt_length (v := [_, _, _, _, _]) h

theorem byteAt_setStamp {b : Pkt} {o v j : Nat} (h : o + 5 ≤ b.length) (hj : j < o ∨ o + 5 ≤ j) :
    byteAt (setStamp b o v) j = byteAt b j :=
  (byteAt_putAt (v := [_, _, _, _, _]) h j).trans (if_neg (by simp only [List.length_cons, List.length_nil]; omega))

theorem setPcr_length {b : Pkt} {v : Nat} (h : 12 ≤ b.length) : (setPcr b v).length = b.length :=
  putAt_length (v := [_, _, _, _, _, _]) h

theorem byteAt_setPcr {b : Pkt} {v j : Nat} (h : 12 ≤ b.length) (hj : j < 6 ∨ 12 ≤ j) : byteAt (setPcr b v) j = byteAt b j :=
  (byteAt_putAt (v := [_, _, _, _, _, _]) h j).trans (if_neg (by simp only [List.length_cons, List.length_nil]; omega))

theorem stampAt_congr {b c : Pkt} {o : Nat} (h : ∀ j, o ≤ j → j < o + 5 → byteAt c j = byteAt b j) : stampAt c o = stampAt b o := by
  rw [stampAt, h o (by omega) (by omega), h (o + 1) (by omega) (by omega), h (o + 2) (by omega) (by omega), h (o + 3) (by omega) (by omega),
    h (o + 4) (by omega) (by omega), stampAt]

/-- The packet with the times of its PES header rebased. -/
def rebaseTimes (b : Pkt) (delta : Nat) : Pkt :=
  match pesShape b with
  | none => b
  | some false => setStamp b (payloadAt b + 9) (addMod nPts (stampAt b (payloadAt b + 9)) delta)
  | some true => setStamp (setStamp b (payloadAt b + 9) (addMod nPts (stampAt b (payloadAt b + 9)) delta)) (payloadAt b + 14)
      (addMod nPts (stampAt b (payloadAt b + 14)) delta)

/-- Rebasing writes the times of the PES header, then the PCR. -/
theorem rebase_eq (b : Pkt) (delta : Nat) : rebase b delta =
    if hasPcr b then setPcr (rebaseTimes b delta) (addMod nClk (pcrBase b * 300 + pcrExt b) (300 * delta)) else rebaseTimes b delta := by
  unfold rebase rebaseTimes
  rw [pktPes_eq, pktPcr]
  rcases pesShape b with _ | _ | _ <;> cases hasPcr b <;> rfl

theorem addMod_lt (n a b : Nat) (h : 0 < n) : addMod n a b < n := Nat.mod_lt _ h

/-- The times of the header are rebased, and no byte before them changes. -/
theorem rebaseTimes_spec {b : Pkt} (hb : b.length = 188) (delta : Nat) : (rebaseTimes b delta).length = 188
    ∧ (∀ j, j < payloadAt b + 9 → byteAt (rebaseTimes b delta) j = byteAt b j)
    ∧ (∀ d, pesShape b = some d →
        stampAt (rebaseTimes b delta) (payloadAt b + 9) = addMod nPts (stampAt b (payloadAt b + 9)) delta
        ∧ (d = true → stampAt (rebaseTimes b delta) (payloadAt b + 14) = addMod nPts (stampAt b (payloadAt b + 14)) delta)) := by
  have hlt : ∀ a, addMod nPts a delta < nPts := fun a => addMod_lt _ _ _ (by decide)
  unfold rebaseTimes
  split
  · next h => exact ⟨hb, fun _ _ => rfl, fun d hd => by rw [h] at hd; cases hd⟩
  · next h =>
    obtain ⟨-, h14, -⟩ := pesShape_fits h
    have hfit : payloadAt b + 9 + 5 ≤ b.length := by omega
    refine ⟨(setStamp_length hfit).trans hb, fun j hj => byteAt_setStamp hfit (.inl hj), fun d hd => ?_⟩
    rw [h] at hd
    cases hd
    exact ⟨stampAt_setStamp hfit (hlt _), fun h => by cases h⟩
  · next h =>
    obtain ⟨-, h14, h19⟩ := pesShape_fits h
    have hfit : payloadAt b + 9 + 5 ≤ b.length := by omega
    have hl := (setStamp_length (v := addMod nPts (stampAt b (payloadAt b + 9)) delta) hfit).trans hb
    have hfit2 : payloadAt b + 14 + 5 ≤ (setStamp b (payloadAt b + 9) (addMod nPts (stampAt b (payloadAt b + 9)) delta)).length := by
      have := h19 rfl
      omega
    refine ⟨(setStamp_length hfit2).trans hl, fun j hj => ?_, fun d hd => ⟨?_, fun _ => stampAt_setStamp hfit2 (hlt _)⟩⟩
    · rw [byteAt_setStamp hfit2 (.inl (by omega)), byteAt_setStamp hfit (.inl hj)]
    · rw [stampAt_congr fun j _ hj => byteAt_setStamp hfit2 (.inl (by omega)), stampAt_setStamp hfit (hlt _)]

/-- A PCR stands before the payload when the adaptation field has room for it (R207). -/
theorem payloadAt_of_pcr {b : Pkt} (h : hasPcr b = true) (ha : 7 ≤ pktAfLen b) : 12 ≤ payloadAt b := by
  have hne : pktAfc b ≠ 1 := by
    intro h1
    simp [hasPcr, hasAfFlags, h1] at h
  rw [payloadAt, if_neg hne]
  omega

/-- Rebasing adds Δ to every time of the PES header and 300 Δ to the PCR, and keeps PID and length (R88). -/
theorem rebase_spec {b : Pkt} (hb : b.length = 188) (delta : Nat) (hp : pktPcr b = none ∨ 7 ≤ pktAfLen b) :
    pktPes (rebase b delta) = (pktPes b).map (fun q =>
        { pts := (q.pts + delta) % nPts, dts := q.dts.map (fun d => (d + delta) % nPts) })
    ∧ (pktPcr (rebase b delta)).map (fun x => x.1 * 300 + x.2) = (pktPcr b).map (fun x => (x.1 * 300 + x.2 + 300 * delta) % nClk)
    ∧ pktPid (rebase b delta) = pktPid b ∧ (rebase b delta).length = 188 := by
  obtain ⟨hl, hsame, htimes⟩ := rebaseTimes_spec hb delta
  have h4 : 4 ≤ payloadAt b := by
    unfold payloadAt
    split <;> omega
  have hafter : ∀ j, hasPcr b = true → payloadAt b ≤ j → 12 ≤ j := fun j hpcr hj => by
    have := payloadAt_of_pcr hpcr (hp.resolve_left (by simp [pktPcr, hpcr]))
    omega
  have hkeep : ∀ j, j < 6 ∨ payloadAt b ≤ j → byteAt (rebase b delta) j = byteAt (rebaseTimes b delta) j := fun j hj => by
    rw [rebase_eq]
    split
    · next hpcr => exact byteAt_setPcr (by omega) (hj.imp_right (hafter j hpcr))
    · rfl
  have hlow : ∀ j, j < 6 → byteAt (rebase b delta) j = byteAt b j := fun j hj => by
    rw [hkeep j (.inl hj), hsame j (by omega)]
  have hlen : (rebase b delta).length = 188 := by
    rw [rebase_eq]
    split
    · rw [setPcr_length (by omega), hl]
    · exact hl
  have hpay : payloadAt (rebase b delta) = payloadAt b := payloadAt_congr (hlow 3 (by omega)) (hlow 4 (by omega))
  have hshape : pesShape (rebase b delta) = pesShape b :=
    pesShape_congr (hlen.trans hb.symm) (hlow 1 (by omega)) (hlow 3 (by omega)) (hlow 4 (by omega)) fun j hj => by
      rw [hkeep _ (.inr (by omega)), hsame _ (by omega)]
  have hstamp : ∀ o, payloadAt b ≤ o → stampAt (rebase b delta) o = stampAt (rebaseTimes b delta) o := fun o ho =>
    stampAt_congr fun j hj _ => hkeep j (.inr (by omega))
  refine ⟨?_, ?_, ?_, hlen⟩
  · rw [pktPes_eq, pktPes_eq b, hshape, hpay, hstamp _ (by omega), hstamp _ (by omega)]
    cases hs : pesShape b with
    | none => rfl
    | some d =>
      obtain ⟨hpts, hdts⟩ := htimes d hs
      rw [hpts]
      cases d with
      | false => rfl
      | true =>
        rw [hdts rfl]
        rfl
  · rw [pktPcr, pktPcr, hasPcr_congr (hlow 3 (by omega)) (hlow 4 (by omega)) (hlow 5 (by omega))]
    cases hpcr : hasPcr b with
    | false => rfl
    | true =>
      have := pcr_setPcr (b := rebaseTimes b delta) (v := addMod nClk (pcrBase b * 300 + pcrExt b) (300 * delta)) (by omega)
        (addMod_lt _ _ _ (by decide))
      rw [rebase_eq, hpcr, if_pos rfl]
      simp only [if_true, Option.map_some, this]
      rfl
  · rw [pktPid, hlow 1 (by omega), hlow 2 (by omega), pktPid]

end Sys2Proof.Machine
end

section
/-! The emission head takes a packet (R88 to R91), and what `rest` takes first (log 55). -/

namespace Sys2Proof.Machine

variable {s : State}

/-- The act due on the lowest service that has one. -/
theorem anyStep_of_split {t : State} {i : Nat} {l r : List Nat} (hl : ∀ j ∈ l, svcStep s j = none) (hi : svcStep s i = some t) :
    anyStep s (l ++ i :: r) = some t := by
  induction l with
  | nil => rw [List.nil_append, anyStep, hi]
  | cons j a ih =>
    rw [List.cons_append, anyStep, hl j (by simp)]
    exact ih fun x hx => hl x (by simp [hx])

theorem settleLoop_succ {t : State} (f : Nat) (h : anyStep s s.listed = some t) : settleLoop (f + 1) s = settleLoop f t := by
  rw [settleLoop, h]

/-- Where no earlier act is due, the current `Inst`'s packet goes to the empty head (R91). -/
theorem svcStep_takePacket {i : Nat} {n : Inst} {b : Pkt} (hcur : (s.sp i).cur = some n) (hnxt : (s.sp i).nxt = none)
    (hw : (s.sp i).waiting = none) (hret : (s.sp i).ret = .idle) (hhead : (s.sp i).head = none) (hb : n.packet = some b)
    (he : clipEndStep s i = none) (hf : finishOrPromote s i = none) : svcStep s i = some (takePacket s i .current n b) := by
  have h1 : serveWaiting s i = none := by simp [serveWaiting, hw]
  have h2 : lateExhaust s i = none := by simp [lateExhaust, hcur, hnxt]
  have h3 : returnDone s i = false := by simp [returnDone, hret]
  have h4 : fillHead s i = some (takePacket s i .current n b) := by
    simp [fillHead, hhead, offerCur, offerNext, hcur, hnxt, hb]
  simp [svcStep, h1, he, h2, hf, h3, h4]

@[simp] theorem raiseIf_sp (b : Bool) (i : Nat) (c : Cond) (j : Nat) : (raiseIf b s i c).sp j = s.sp j := by
  cases b <;> simp [raiseIf]

/-- What the emission head takes. -/
theorem placeHead_cases (i : Nat) (r : Role) (m : Inst) (b : Pkt) (x : Nat) : placeHead s i r m b x = s
    ∨ placeHead s i r m b x = raise s i .drop ∨ ∃ h, placeHead s i r m b x = s.modSp i (fun p => { p with head := some h }) := by
  unfold placeHead
  repeat' split
  · exact .inl rfl
  · exact .inr (.inl rfl)
  · exact .inr (.inr ⟨_, rfl⟩)
  · exact .inl rfl

/-- Without an `Inst` in the next role nothing follows a packet taken from the current one. -/
theorem exhaust_repeatEnd_of_alone {i : Nat} (h : (s.sp i).nxt = none) : exhaust (repeatEnd s i) i = s := by
  have hr : repeatEnd s i = s := by
    unfold repeatEnd
    rw [h]
    cases (s.sp i).cur <;> rfl
  rw [hr, exhaust, h]
  cases (s.sp i).cur <;> rfl

/-- A packet of the current `Inst` that neither a return nor a newcomer concerns is passed over when its component is unmapped, and
kept otherwise (R78). -/
theorem examineCur_of_alone {i : Nat} {m : Inst} {b : Pkt} {c : Nat} (hnxt : (s.sp i).nxt = none) (hret : (s.sp i).ret = .idle)
    (hc : m.compOf b = some c) (hst : m.isStopped c = false) (x : Nat) :
    examineCur s i m b x = if (m.mapped c).isNone then some s else none := by
  have h1 : ∀ pts, stopsAtE s i pts = false := fun pts => by simp [stopsAtE, hret]
  have h2 : ∀ pts, clipCutOf s i m c pts = none := fun pts => by simp [clipCutOf, hnxt]
  have h3 : ∀ pts, outgoingStop s i pts = none := fun pts => by simp [outgoingStop, hnxt]
  unfold examineCur
  simp [hc, hst, h1, h2, h3]

/-- The `Inst` after a packet of it has left the store (R88, R89, R148). -/
def Inst.took (n : Inst) (b : Pkt) : Inst :=
  { n.advance with wrapRaised := n.wrapRaised || (wraps b (n.delta.getD 0) && !n.wrapRaised) }

/-- The state in which a packet taken is examined: its `Inst` advanced, and WRAP tested (R88; log 22). -/
def State.took (s : State) (i : Nat) (n : Inst) (b : Pkt) : State :=
  raiseIf (wraps b (n.delta.getD 0) && !n.wrapRaised) (s.modSp i (fun p => { p with cur := some (n.took b) })) i .wrap

theorem took_sp (i : Nat) (n : Inst) (b : Pkt) : (s.took i n b).sp i = { s.sp i with cur := some (n.took b) } := by
  rw [State.took, raiseIf_sp, State.sp_modSp, if_pos rfl]

theorem took_frame (i : Nat) (n : Inst) (b : Pkt) :
    s.took i n b = { s with services := (s.took i n b).services, boxes := (s.took i n b).boxes } := by
  unfold State.took
  cases wraps b (n.delta.getD 0) && !n.wrapRaised
  · rfl
  · exact raise_frame _ i .wrap

theorem took_svc_ne {i j : Nat} (hj : j ≠ i) (n : Inst) (b : Pkt) : (s.took i n b).svc j = s.svc j := by
  unfold State.took raiseIf
  split
  · rw [raise_svc, if_neg hj, State.modSp, State.svc_modSvc, if_neg hj]
  · rw [State.modSp, State.svc_modSvc, if_neg hj]

theorem took_defn (i j : Nat) (n : Inst) (b : Pkt) : ((s.took i n b).svc j).defn = (s.svc j).defn :=
  (Kept.raiseIf (Kept.modSp (Kept.refl s) i _) _ i .wrap).defn j

/-- Where no return and no newcomer concern it, a packet of the current `Inst` goes to the head when its component is mapped, and is
passed over otherwise (R78, R91). -/
theorem takePacket_of_alone {i : Nat} {n : Inst} {b : Pkt} {c : Nat} (hnxt : (s.sp i).nxt = none) (hret : (s.sp i).ret = .idle)
    (hc : n.compOf b = some c) (hst : n.isStopped c = false) : takePacket s i .current n b =
      if (n.mapped c).isNone then s.took i n b else placeHead (s.took i n b) i .current (n.took b) b (dueOf s i n) := by
  have hn : ((s.took i n b).sp i).nxt = none := by
    rw [took_sp]
    exact hnxt
  have he := examineCur_of_alone (s := s.took i n b) (i := i) (m := n.took b) (b := b) hn (by rw [took_sp]; exact hret) hc hst (dueOf s i n)
  have hp : ((placeHead (s.took i n b) i .current (n.took b) b (dueOf s i n)).sp i).nxt = none := by
    rcases placeHead_cases (s := s.took i n b) i .current (n.took b) b (dueOf s i n) with h | h | ⟨g, h⟩ <;> rw [h]
    · exact hn
    · rw [raise_sp]
      exact hn
    · rw [State.sp_modSp, if_pos rfl]
      exact hn
  have ht : takePacket s i .current n b = exhaust (repeatEnd ((examineCur (s.took i n b) i (n.took b) b (dueOf s i n)).getD
      (placeHead (s.took i n b) i .current (n.took b) b (dueOf s i n))) i) i := by
    show exhaust (repeatEnd (match examineCur (s.took i n b) i (n.took b) b (dueOf s i n) with
      | some s1 => s1
      | none => placeHead (s.took i n b) i .current (n.took b) b (dueOf s i n)) i) i = _
    cases examineCur (s.took i n b) i (n.took b) b (dueOf s i n) <;> rfl
  have hm : (n.took b).mapped c = n.mapped c := rfl
  rw [ht, he, hm]
  split
  · exact exhaust_repeatEnd_of_alone hn
  · exact exhaust_repeatEnd_of_alone hp

/-- The head takes a packet of a mapped component, unless its PID is the network's again (R16, R88, R90). -/
theorem placeHead_mapped {i : Nat} {m : Inst} {b : Pkt} {c j : Nat} {y : CompState} {d : Comp} (hc : m.compOf b = some c)
    (hm : m.mapped c = some j) (hy : (s.sp i).comps[j]? = some y) (hd : (s.svc i).defComps[j]? = some d) (r : Role) (x : Nat) :
    placeHead s i r m b x = if y.handedBack then raise s i .drop
      else s.modSp i (fun p => { p with head := some { pkt := setPid (rebase b (m.delta.getD 0)) d.pid, comp := j, pid := d.pid, due := x,
                                                       w := m.w.getD x, role := r } }) := by
  unfold placeHead
  simp [hc, hm, hy, hd]

theorem placed_cases (i : Nat) (n : Inst) (b : Pkt) (skip : Bool) (x : Nat) :
    let t := if skip then s.took i n b else placeHead (s.took i n b) i .current (n.took b) b x
    t = s.took i n b ∨ t = raise (s.took i n b) i .drop ∨ ∃ h, t = (s.took i n b).modSp i (fun p => { p with head := some h }) := by
  cases skip
  · exact placeHead_cases i .current (n.took b) b x
  · exact .inl rfl

/-- What a packet taken leaves, wherever it goes (R88 to R91). -/
theorem taken_of_cases {t : State} {i : Nat} {n : Inst} {b : Pkt} (h : t = s.took i n b ∨ t = raise (s.took i n b) i .drop
      ∨ ∃ h, t = (s.took i n b).modSp i (fun p => { p with head := some h })) :
    t = { s with services := t.services, boxes := t.boxes } ∧ (∀ j, j ≠ i → t.svc j = s.svc j) ∧ (t.sp i).cur = some (n.took b)
    ∧ ∀ m, ((s.took i n b).svc i).cond.flags.getLsbD m = true → (t.svc i).cond.flags.getLsbD m = true := by
  have hf := took_frame (s := s) i n b
  have hcur : ((s.took i n b).sp i).cur = some (n.took b) := by rw [took_sp]
  rcases h with rfl | rfl | ⟨g, rfl⟩
  · exact ⟨hf, fun j hj => took_svc_ne hj n b, hcur, fun _ => id⟩
  · refine ⟨?_, fun j hj => ?_, by rw [raise_sp, hcur], (Kept.raise (Kept.refl _) i .drop).flags i⟩
    · rw [raise_frame]
      generalize (raise (s.took i n b) i Cond.drop).services = x
      generalize (raise (s.took i n b) i Cond.drop).boxes = y
      rw [hf]
    · rw [raise_svc, if_neg hj, took_svc_ne hj]
  · refine ⟨?_, fun j hj => ?_, ?_, (Kept.modSp (Kept.refl _) i _).flags i⟩
    · generalize hu : (s.took i n b).modSp i (fun p => { p with head := some g }) = u
      have : u = { s.took i n b with services := u.services } := by
        rw [← hu]
        rfl
      rw [this]
      generalize u.services = x
      rw [hf]
    · rw [State.modSp, State.svc_modSvc, if_neg hj, took_svc_ne hj]
    · rw [State.sp_modSp, if_pos rfl]
      exact hcur

/-- Settles O25: what `rest` takes first, the packet that the head takes, and the rebasing of a packet. -/
theorem emissionHeadTakesRebasedPacket : Obligations.EmissionHeadTakesRebasedPacket := by
  refine ⟨fun u t i l r hsplit hl hi => ?_, ?_, fun b delta hb _ hp => rebase_spec hb delta hp⟩
  · have h := settleLoop_succ 65535 (hsplit ▸ anyStep_of_split hl hi)
    rw [rest, settle]
    exact congrArg (arbLoop none 4096) h
  · intro s i n b c delta w σ p v hcur hnxt hw hret hhead hσ hdelta hwn hb hc hst he hf wrap due
    have hstep := svcStep_takePacket hcur hnxt hw hret hhead hb he hf
    rw [takePacket_of_alone hnxt hret hc hst] at hstep
    have hwrap : (wraps b (n.delta.getD 0) && !n.wrapRaised) = wrap := by
      simp only [wrap, wraps, hdelta, Option.getD_some]
      rw [Bool.and_comm]
      rcases pktPes b with _ | ⟨pts, _ | dts⟩ <;> rfl
    have hdue : dueOf s i n = due := by
      simp only [dueOf, departure, msTicks, hdelta, Option.getD_some, due]
      rw [show (s.sp i).sigmaP = some σ from hσ]
      rfl
    have hcur' : n.took b = { n with
        k := n.k + 1, accQ := n.accQ + (n.accR + 27000000) / v.rate, accR := (n.accR + 27000000) % v.rate
        pages := n.pages.filter (fun g => decide (n.k + 1 < 43 * g.no + g.pkts.length)), wrapRaised := n.wrapRaised || wrap } := by
      rw [← hwrap]
      rfl
    have hflag : wrap = true → ((s.took i n b).svc i).cond.flags.getLsbD Cond.wrap.pos = true := fun h => by
      rw [State.took, hwrap, h]
      exact raise_flag _ i .wrap
    obtain ⟨hframe, hne, hcurt, hflagt⟩ := taken_of_cases (placed_cases (s := s) i n b (n.mapped c).isNone (dueOf s i n))
    refine ⟨_, hstep, hframe, hne, hcurt.trans (congrArg some hcur'), fun h => hflagt _ (hflag h), fun hm => ?_, fun j x d hm hx hd => ?_⟩
    · rw [if_pos (by rw [hm]; rfl), took_sp]
      exact hhead
    · have hx' : ((s.took i n b).sp i).comps[j]? = some x := by
        rw [took_sp]
        exact hx
      have hd' : ((s.took i n b).svc i).defComps[j]? = some d := by
        rw [← hd, Service.defComps, took_defn]
        rfl
      rw [if_neg (by rw [hm]; simp), placeHead_mapped (m := n.took b) hc hm hx' hd', hdue]
      refine ⟨fun hb => ?_, fun hb => ?_⟩
      · rw [hb, if_neg (by decide), State.sp_modSp, if_pos rfl]
        simp only [Inst.took, Inst.advance, hdelta, hwn, Option.getD_some]
      · rw [hb, if_pos rfl]
        refine ⟨?_, raise_flag _ i .drop⟩
        rw [raise_sp, took_sp]
        exact hhead

end Sys2Proof.Machine
end

section
/-! A component packet on its way to the splice engine: what its observation takes, and what keeps the clock record
(R10, R11, R25, R29). -/

namespace Sys2Proof.Machine

variable {s t : State} {i j : Nat} {b : Pkt}

/-! ### The row of a component packet -/

theorem classifyPacket_component {k : Nat} (h : pktPid b ≠ 0x1FFF) (hs : serviceOfPid s k (pktPid b) = some i)
    (hc : compIndex (s.svc i) (pktPid b) = some j) : classifyPacket s k b = componentPacket s k i j b := by
  simp [classifyPacket, h, hs, hc]

/-- The packet is observed, the splice engine decides, and what it lets pass enters the FIFO. -/
theorem exec_arrives {k : Fin 4} (h : s.arrives k i j b) :
    exec (.packetArrival k b) s = .next (rest (componentPacket (acceptInput s k.val) k.val i j b)) := by
  refine congrArg Host.Outcome.next ((packetArrival_running h.accepted.released h.accepted.sync h.accepted.running).trans
    (congrArg rest (classifyPacket_component h.accepted.notNull ?_ ?_)))
  · rw [acceptInput_serviceOfPid, h.service]
  · rw [acceptInput_svc, h.component]

theorem exec_arrives_passed {k : Fin 4} {u : State} (h : s.arrives k i j b)
    (hd : decide_ (s.observed k i j b) i j (seenPts b) = (u, true)) :
    exec (.packetArrival k b) s = .next (rest (enterComponent u k.val i j b)) := by
  rw [exec_arrives h, componentPacket, show observePacket (acceptInput s k.val) i j b = s.observed k i j b from rfl, hd]
  rfl

theorem exec_arrives_held {k : Fin 4} {u : State} (h : s.arrives k i j b)
    (hd : decide_ (s.observed k i j b) i j (seenPts b) = (u, false)) :
    exec (.packetArrival k b) s = .next (rest u) := by
  rw [exec_arrives h, componentPacket, show observePacket (acceptInput s k.val) i j b = s.observed k i j b from rfl, hd]
  rfl

/-- The service that a packet names is one of the lane. -/
theorem laneOf_of_serviceOfPid {k q : Nat} (h : serviceOfPid s k q = some i) : s.laneOf i = some k := by
  have hm := List.mem_of_find?_eq_some h
  simpa [State.servicesOf] using (List.mem_filter.1 hm).2

theorem State.cfgOf_of_laneOf {k : Nat} (h : s.laneOf i = some k) : s.cfgOf i = (s.lane k).cfg := by
  simp [State.cfgOf, h]

theorem acceptInput_cfgOf (k x : Nat) : (acceptInput s k).cfgOf x = s.cfgOf x := by
  have hl : (acceptInput s k).laneOf x = s.laneOf x := by simp [State.laneOf]
  cases hx : s.laneOf x with
  | none => simp [State.cfgOf, hl, hx]
  | some m =>
    rw [State.cfgOf_of_laneOf (hl.trans hx), State.cfgOf_of_laneOf hx, acceptInput_lane]
    split
    · next h => rw [h]; rfl
    · rfl

theorem Kept.laneOf (h : Kept s t) (x : Nat) : t.laneOf x = s.laneOf x := by rw [State.laneOf, State.laneOf, h.defn]
theorem Kept.defComps (h : Kept s t) (x : Nat) : (t.svc x).defComps = (s.svc x).defComps := by
  rw [Service.defComps, Service.defComps, h.defn]
theorem Kept.estimate (h : Kept s t) (x : Nat) : estimate t x = estimate s x := by
  simp only [Machine.estimate, leadPoint, serviceTime, lead, h.clk, h.localCount]
theorem Kept.cfgOf (h : Kept s t) (x : Nat) : t.cfgOf x = s.cfgOf x := by
  simp only [State.cfgOf, h.laneOf, h.lane]

/-! ### What keeps every clock record -/

/-- Every service has the clock record that it had. -/
def ClockKept (s t : State) : Prop := ∀ x, (t.svc x).clk = (s.svc x).clk

namespace ClockKept
variable {u : State}

theorem refl (s : State) : ClockKept s s := fun _ => rfl
theorem of_kept (h : Kept s t) : ClockKept s t := h.clk
theorem kept (h : ClockKept s t) (k : Kept t u) : ClockKept s u := fun x => (k.clk x).trans (h x)
theorem of_services (h : ClockKept s t) (hs : u.services = t.services) : ClockKept s u := fun x => by
  rw [State.svc, hs]
  exact h x

theorem modSp (h : ClockKept s t) (x : Nat) (f : SpliceRec → SpliceRec) : ClockKept s (t.modSp x f) :=
  h.kept ((Kept.refl t).modSp x f)

theorem handOverComp (h : ClockKept s t) (x c : Nat) : ClockKept s (handOverComp t x c) := by
  unfold Machine.handOverComp
  split
  · exact h.of_services rfl
  · exact h

theorem networkCut (h : ClockKept s t) (x c : Nat) (n : Inst) (p : Nat) : ClockKept s (networkCut t x c n p) := by
  unfold Machine.networkCut
  extract_lets v delta d w clk pace n' s1 s2
  have h2 : ClockKept s s2 := (h.modSp _ _).of_services (u := s2) (State.modFlash_services s1 _)
  exact (h2.handOverComp _ _).kept ((Kept.refl _).reportCut _ _ _ _ _)

theorem componentCut (h : ClockKept s t) (x c : Nat) : ClockKept s (componentCut t x c) := (h.modSp _ _).handOverComp _ _

theorem fixReturn (h : ClockKept s t) (x p : Nat) : ClockKept s (fixReturn t x p) := by
  unfold Machine.fixReturn
  split
  · exact h.kept ((Kept.refl t).setE _ _)
  · exact h.kept ((Kept.refl t).alertE _ _ _)
  · exact h

theorem resumeComp (h : ClockKept s t) (x c : Nat) : ClockKept s (resumeComp t x c) :=
  (h.kept ((Kept.refl t).beginReturn x)).modSp _ _

theorem decide_ (h : ClockKept s t) (x c : Nat) (p : Option Nat) : ClockKept s (decide_ t x c p).1 := by
  unfold Machine.decide_
  extract_lets lead u
  have hu : ClockKept s u := by
    cases p with
    | none => exact h
    | some y =>
      dsimp only [u]
      split
      · exact h.fixReturn _ _
      · exact h
  split
  · exact hu
  · split
    · exact (hu.resumeComp _ _).modSp _ _
    · split
      · exact (hu.kept ((Kept.refl u).raiseIf _ _ _)).networkCut _ _ _ _
      · split
        · exact (hu.kept ((Kept.refl u).raiseIf _ _ _)).componentCut _ _
        · exact hu

theorem enterFifo (h : ClockKept s t) (k : Nat) (b : Pkt) (m : Bool) : ClockKept s (enterFifo t k b m).1 := by
  rw [enterFifo_frame]
  exact h.of_services rfl

theorem enterComponent (h : ClockKept s t) (k x c : Nat) (b : Pkt) : ClockKept s (enterComponent t k x c b) := by
  unfold Machine.enterComponent
  dsimp only
  split
  · exact (h.enterFifo _ _ _).modSp _ _
  · exact h.enterFifo _ _ _

theorem componentPacket (k x c : Nat) (b : Pkt) : ClockKept (observePacket s x c b) (componentPacket s k x c b) := by
  unfold Machine.componentPacket
  dsimp only
  split
  · exact ((refl _).decide_ _ _ _).enterComponent _ _ _ _
  · exact (refl _).decide_ _ _ _

end ClockKept

/-- The clock records at the end of a component packet's row are those of its observation. -/
theorem exec_arrives_clk {k : Fin 4} (h : s.arrives k i j b) :
    ∃ t, exec (.packetArrival k b) s = .next t ∧ ∀ x, (t.svc x).clk = ((s.observed k i j b).svc x).clk :=
  ⟨_, exec_arrives h, (ClockKept.componentPacket k.val i j b).kept ((Kept.refl _).rest)⟩

/-! ### The observation of a packet -/

theorem acceptInput_pastDeadline (k x y : Nat) : pastDeadline (acceptInput s k) i x y = pastDeadline s i x y := by
  simp only [pastDeadline, estimate, leadPoint, serviceTime, lead, acceptInput_svc, acceptInput_localCount]
theorem acceptInput_timerDone (k x : Nat) (y : Option Nat) : timerDone (acceptInput s k) y x = timerDone s y x := by
  have h (z : Nat) : sinceTicks (acceptInput s k) z = sinceTicks s z := by rw [sinceTicks, acceptInput_localCount, sinceTicks]
  cases y with
  | none => rfl
  | some z => rw [timerDone, timerDone, h]

/-- Searches are latched on what presence does not touch: the clock, the count and the splice record (R81). -/
theorem latchSearches_acceptInput (k : Nat) :
    (latchSearches (acceptInput s k) i).sp i = (latchSearches s i).sp i := by
  rw [latchSearches, latchSearches, State.sp_modSp, State.sp_modSp, if_pos rfl, if_pos rfl, acceptInput_sp]
  simp only [seekOverdue, stopOverdue, acceptInput_pastDeadline, acceptInput_timerDone]

theorem observed_excluded {k : Fin 4} (h : excluded b = true) :
    s.observed k i j b = latchSearches (acceptInput s k.val) i := by
  simp [State.observed, observePacket, h]

theorem observed_examined {k : Fin 4} (h : excluded b = false) :
    s.observed k i j b = syncTimers (observeComp (latchSearches (acceptInput s k.val) i) i j b) i := by
  simp [State.observed, observePacket, h]

theorem syncTimers_kept : Kept s (syncTimers s i) := (Kept.refl s).modSp _ _
theorem latchSearches_kept : Kept s (latchSearches s i) := (Kept.refl s).modSp _ _

/-- The effect of a PCR reads the clock, the count, the settings, the pacing offset and the monitor. -/
theorem pcrEffect_congr (hc : (t.svc i).clk = (s.svc i).clk) (hp : (t.sp i).sigmaP = (s.sp i).sigmaP)
    (hl : t.localCount = s.localCount) (hg : t.cfgOf i = s.cfgOf i) (hm : t.monitor = s.monitor) (v : Nat) (d : Bool) :
    pcrEffect t i v d = pcrEffect s i v d := by
  simp only [pcrEffect, hc, hp, hl, hg, hm]

/-- The record after the PCR of a packet, if it carries one of the service's (R25, R26). -/
def State.clkAfterPcr (s : State) (i : Nat) (b : Pkt) : ClockRec :=
  match pktPcr b with
  | some (base, ext) =>
    if (s.svc i).defn.map (·.pcrPid) = some (pktPid b) ∧ ext < 300 then (pcrEffect s i (base * 300 + ext) (pktDisc b)).1
    else (s.svc i).clk
  | none => (s.svc i).clk

theorem observePcr_clk : ((observePcr s i b).svc i).clk =
    match pktPcr b with
    | none => (s.svc i).clk
    | some (base, ext) => if 300 ≤ ext then (s.svc i).clk else (pcrEffect s i (base * 300 + ext) (pktDisc b)).1 := by
  unfold observePcr
  cases hp : pktPcr b with
  | none => rfl
  | some x =>
    obtain ⟨base, ext⟩ := x
    dsimp only
    split
    · rfl
    · split
      · rw [(Kept.firstLock (Kept.refl _) i).clk, State.svc_modSvc, if_pos rfl]
      · split
        · rw [(Kept.fireDue (Kept.refl _) i).clk, State.svc_modSvc, if_pos rfl]
        · rw [State.svc_modSvc, if_pos rfl]

/-- The record once a lead PES start has been sampled, the oldest of 32 samples leaving (R29, R30). -/
def ClockRec.sampled (c : ClockRec) (now pts : Nat) : ClockRec :=
  if c.st = .unlocked then c
  else { c with leads := (if 32 ≤ c.leads.length then c.leads.tail else c.leads) ++ [sdiff nPts pts (addMod nClk now c.sigma / 300)] }

/-- The record once a packet has been observed: the PCR first, then the sample of a lead PES start (R11). -/
def State.clkObserved (s : State) (i j : Nat) (b : Pkt) : ClockRec :=
  match pktPes b with
  | none => s.clkAfterPcr i b
  | some p => if leadIdx (s.svc i).defComps = some j then (s.clkAfterPcr i b).sampled s.localCount p.pts else s.clkAfterPcr i b

theorem leadSample_clk (pts : Nat) : ((leadSample s i pts).svc i).clk =
(s.svc i).clk.sampled s.localCount pts := by
  unfold leadSample serviceTime ClockRec.sampled
  by_cases hu : (s.svc i).clk.st = .unlocked
  · simp [hu]
  · rw [if_neg hu, if_neg hu]
    dsimp only
    split
    · rw [(Kept.reeval (Kept.refl _) i .clock).clk, State.svc_modSvc, if_pos rfl]
    · rw [State.svc_modSvc, if_pos rfl]

/-- What presence and the latched searches leave to the timebase unit. -/
theorem latched_clkAfterPcr (k : Nat) : (latchSearches (acceptInput s k) i).clkAfterPcr i b = s.clkAfterPcr i b := by
  have hk := @latchSearches_kept (acceptInput s k) i
  have hsp : ((latchSearches (acceptInput s k) i).sp i).sigmaP = (s.sp i).sigmaP := by
    rw [latchSearches, State.sp_modSp, if_pos rfl, acceptInput_sp]
  have hg : (latchSearches (acceptInput s k) i).cfgOf i = s.cfgOf i := by
    rw [hk.cfgOf, acceptInput_cfgOf]
  have hc : ((latchSearches (acceptInput s k) i).svc i).clk = (s.svc i).clk := by rw [hk.clk, acceptInput_svc]
  have hd : ((latchSearches (acceptInput s k) i).svc i).defn = (s.svc i).defn := by rw [hk.defn, acceptInput_svc]
  have hp := pcrEffect_congr hc hsp (by rw [hk.localCount, acceptInput_localCount]) hg (by rw [hk.monitor, acceptInput_monitor])
  simp only [State.clkAfterPcr, hd, hc, hp]

theorem observePcr_clkAfterPcr (h : (s.svc i).defn.map (·.pcrPid) = some (pktPid b)) :
    ((observePcr s i b).svc i).clk = s.clkAfterPcr i b := by
  rw [observePcr_clk]
  unfold State.clkAfterPcr
  cases pktPcr b with
  | none => rfl
  | some x => by_cases hx : x.2 < 300 <;> simp [h, hx]

theorem clkAfterPcr_of_ne (h : (s.svc i).defn.map (·.pcrPid) ≠ some (pktPid b)) : s.clkAfterPcr i b = (s.svc i).clk := by
  unfold State.clkAfterPcr
  cases pktPcr b with
  | none => rfl
  | some x => simp [h]

/-! ### What observation keeps -/

/-- The lanes, the local count and the definitions stay. -/
structure BaseKept (s t : State) : Prop where
  lanes : t.lanes = s.lanes
  localCount : t.localCount = s.localCount
  defn : ∀ x, (t.svc x).defn = (s.svc x).defn

namespace BaseKept
variable {u : State}

theorem refl (s : State) : BaseKept s s := ⟨rfl, rfl, fun _ => rfl⟩
theorem trans (h : BaseKept s t) (k : BaseKept t u) : BaseKept s u :=
  ⟨k.lanes.trans h.lanes, k.localCount.trans h.localCount, fun x => (k.defn x).trans (h.defn x)⟩
theorem of_kept (k : Kept s t) : BaseKept s t := ⟨k.lanes, k.localCount, k.defn⟩
theorem kept (h : BaseKept s t) (k : Kept t u) : BaseKept s u := h.trans (of_kept k)

theorem modSvc (x : Nat) {f : Service → Service} (h : (f (s.svc x)).defn = (s.svc x).defn) : BaseKept s (s.modSvc x f) where
  lanes := rfl
  localCount := rfl
  defn y := by
    rw [State.svc_modSvc]
    split
    · next hy => rw [h, hy]
    · rfl

theorem observePcr (s : State) (i : Nat) (b : Pkt) : BaseKept s (observePcr s i b) := by
  unfold Machine.observePcr
  cases pktPcr b with
  | none => exact refl s
  | some x =>
    dsimp only
    split
    · exact refl s
    · split
      · exact (modSvc i rfl).kept ((Kept.refl _).firstLock i)
      · split
        · exact (modSvc i rfl).kept ((Kept.refl _).fireDue i)
        · exact modSvc i rfl

theorem leadSample (s : State) (i pts : Nat) : BaseKept s (leadSample s i pts) := by
  unfold Machine.leadSample
  cases serviceTime s i with
  | none => exact refl s
  | some c =>
    dsimp only
    split
    · exact (modSvc i rfl).kept ((Kept.refl _).reeval i .clock)
    · exact modSvc i rfl

theorem observeComp (s : State) (i j : Nat) (b : Pkt) : BaseKept s (observeComp s i j b) := by
  unfold Machine.observeComp
  extract_lets v s1
  have h1 : BaseKept s s1 := by
    dsimp only [s1]
    split
    · exact observePcr s i b
    · exact refl s
  cases pktPes b with
  | none => exact h1
  | some p =>
    dsimp only
    split
    · exact h1.trans (leadSample _ _ _)
    · exact h1

theorem observed (s : State) (k : Fin 4) (i j : Nat) (b : Pkt) : BaseKept (acceptInput s k.val) (s.observed k i j b) := by
  cases he : excluded b with
  | true =>
    rw [observed_excluded he]
    exact of_kept latchSearches_kept
  | false =>
    rw [observed_examined he]
    exact ((of_kept latchSearches_kept).trans (observeComp _ _ _ _)).kept syncTimers_kept

end BaseKept

/-- The packet has been seen on its lane; nothing else of the lanes is touched before the decision. -/
theorem observed_lane {b : Pkt} (k : Fin 4) : (s.observed k i j b).lane k.val = (s.lane k.val).seen s.localCount := by
  rw [State.lane, (BaseKept.observed s k i j b).lanes]
  exact (acceptInput_lane s k.val k.val).trans (if_pos rfl)

theorem observed_localCount {b : Pkt} (k : Fin 4) : (s.observed k i j b).localCount = s.localCount := by
  rw [(BaseKept.observed s k i j b).localCount, acceptInput_localCount]

theorem observed_defn {b : Pkt} (k : Fin 4) (x : Nat) : ((s.observed k i j b).svc x).defn = (s.svc x).defn := by
  rw [(BaseKept.observed s k i j b).defn, acceptInput_svc]

theorem observed_defComps {b : Pkt} (k : Fin 4) (x : Nat) : ((s.observed k i j b).svc x).defComps = (s.svc x).defComps := by
  rw [Service.defComps, observed_defn, Service.defComps]

theorem observeComp_clk : ((observeComp s i j b).svc i).clk = s.clkObserved i j b := by
  unfold observeComp State.clkObserved
  extract_lets v s1
  have h1 : (s1.svc i).clk = s.clkAfterPcr i b := by
    dsimp only [s1]
    split
    · next h => exact observePcr_clkAfterPcr h
    · next h => rw [clkAfterPcr_of_ne h]
  have h2 : s1.localCount = s.localCount := by
    dsimp only [s1]
    split
    · exact (BaseKept.observePcr _ _ _).localCount
    · rfl
  cases pktPes b with
  | none => exact h1
  | some p =>
    by_cases hl : leadIdx (s.svc i).defComps = some j
    · simp only [v, hl, if_true, leadSample_clk, h1, h2]
    · simp only [v, hl, if_false, h1]

/-- The clock record on which the splice engine judges the packet (log 14). -/
theorem observed_clk {k : Fin 4} (h : s.examines k i j b) : ((s.observed k i j b).svc i).clk = s.clkObserved i j b := by
  rw [observed_examined h.observable, syncTimers_kept.clk, observeComp_clk]
  have hd : ((latchSearches (acceptInput s k.val) i).svc i).defComps = (s.svc i).defComps := by
    rw [Service.defComps, latchSearches_kept.defn, acceptInput_svc, Service.defComps]
  simp only [State.clkObserved, latched_clkAfterPcr, latchSearches_kept.localCount, acceptInput_localCount, hd]

end Sys2Proof.Machine
end

section
/-! The splice engine's decision on a component packet, branch by branch (R10, R79 to R82, R96). -/

namespace Sys2Proof.Machine

variable {s : State} {i j : Nat} {pts : Option Nat} {c : CompState}

/-! ### The branches of the decision -/

/-- No E is to be fixed by the packet (R97). -/
def State.nothingToFix (s : State) (i j : Nat) (pts : Option Nat) : Prop :=
  leadIdx (s.svc i).defComps = some j → (s.sp i).fixE = true → pts = none

/-- The decision once an E that was awaited has been fixed: a resume, a network cut, a component's cut, or none of them. -/
def judged (s : State) (i j : Nat) (pts : Option Nat) (c : CompState) : State × Bool :=
  if c.replaced && resumes (s.sp i) pts then
    ((resumeComp s i j).modSp i (fun p => { p with comps := p.comps.modify j (fun x => { x with mark := true }) }), true)
  else match (if leadIdx (s.svc i).defComps == some j then networkCutOf s i pts else none) with
    | some (n, sEff, forced) => (networkCut (raiseIf forced s i .forced) i j n sEff, false)
    | none => match componentCutOf s i c pts with
      | some forced => (componentCut (raiseIf forced s i .forced) i j, false)
      | none => (s, !c.replaced)

theorem decide_unfixed (h : s.nothingToFix i j pts) (hc : (s.sp i).comps[j]? = some c) :
    decide_ s i j pts = judged s i j pts c := by
  unfold decide_ judged
  extract_lets lead u
  have hu : u = s := by
    cases pts with
    | none => rfl
    | some x =>
      refine if_neg (fun hx => ?_)
      obtain ⟨hl, hf⟩ := Bool.and_eq_true_iff.1 hx
      cases h (beq_iff_eq.1 hl) hf
  simp only [hu, hc] <;> rfl

/-- A lead PES start fixes the E that is awaited, and is judged on what that leaves (R43, R97). -/
theorem decide_fixed {x : Nat} (hl : leadIdx (s.svc i).defComps = some j) (hf : (s.sp i).fixE = true)
    (hu : ((fixReturn s i x).sp i).fixE = false) :
    decide_ s i j (some x) = decide_ (fixReturn s i x) i j (some x) := by
  have hd : ((fixReturn s i x).svc i).defComps = (s.svc i).defComps := by
    unfold fixReturn
    split
    · rw [Service.defComps, (Kept.setE (Kept.refl s) _ _).defn, Service.defComps]
    · rw [Service.defComps, (Kept.alertE (Kept.refl s) _ _ _).defn, Service.defComps]
    · rfl
  unfold decide_
  simp only [hd, hl, hf, hu, beq_self_eq_true, Bool.and_true, Bool.and_false, if_true, if_false, Bool.false_eq_true]

theorem judged_resume (hr : c.replaced = true) (hp : resumes (s.sp i) pts = true) : judged s i j pts c =
    ((resumeComp s i j).modSp i (fun p => { p with comps := p.comps.modify j (fun x => { x with mark := true }) }), true) := by
  simp [judged, hr, hp]

theorem judged_networkCut {n : Inst} {x : Nat} {forced : Bool} (hr : c.replaced = false)
    (hl : leadIdx (s.svc i).defComps = some j) (hn : networkCutOf s i pts = some (n, x, forced)) :
    judged s i j pts c = (networkCut (raiseIf forced s i .forced) i j n x, false) := by
  simp [judged, hr, hl, hn]

theorem judged_componentCut {forced : Bool} (hr : c.replaced = false)
    (hn : leadIdx (s.svc i).defComps = some j → networkCutOf s i pts = none) (hx : componentCutOf s i c pts = some forced) :
    judged s i j pts c = (componentCut (raiseIf forced s i .forced) i j, false) := by
  by_cases hl : leadIdx (s.svc i).defComps = some j
  · simp [judged, hr, hl, hn hl, hx]
  · simp [judged, hr, hl, hx]

/-- A packet that neither resumes nor cuts goes on when its component is on the network (R10). -/
theorem judged_pass (hr : c.replaced = true → resumes (s.sp i) pts = false)
    (hn : leadIdx (s.svc i).defComps = some j → networkCutOf s i pts = none) (hx : componentCutOf s i c pts = none) :
    judged s i j pts c = (s, !c.replaced) := by
  have h : (c.replaced && resumes (s.sp i) pts) = false := by
    cases hc : c.replaced with
    | false => rfl
    | true => rw [hr hc]; rfl
  by_cases hl : leadIdx (s.svc i).defComps = some j
  · simp [judged, h, hl, hn hl, hx]
  · simp [judged, h, hl, hx]

theorem networkCutOf_none (h : ∀ n, (s.sp i).nxt = some n → n.phase = .seeking → searchMode (s.sp i) = .network →
    cutPoint n.overdue n pts = none) : networkCutOf s i pts = none := by
  unfold networkCutOf
  cases hn : (s.sp i).nxt with
  | none => rfl
  | some n =>
    dsimp only
    split
    · next hs => rw [h n hn hs.1 hs.2]; rfl
    · rfl

theorem networkCutOf_some {n : Inst} {x : Nat} {forced : Bool} (hn : (s.sp i).nxt = some n) (hp : n.phase = .seeking)
    (hm : searchMode (s.sp i) = .network) (hc : cutPoint n.overdue n pts = some (x, forced)) :
    networkCutOf s i pts = some (n, x, forced) := by
  simp [networkCutOf, hn, hp, hm, hc]

theorem componentCutOf_none (h : (s.sp i).cutX = none ∨ c.search = false) : componentCutOf s i c pts = none := by
  unfold componentCutOf
  rcases h with h | h
  · simp only [h]
  · cases hx : (s.sp i).cutX <;> simp [hx, h]

/-! ### A packet that goes on into the FIFO -/

/-- What the packet changes on its way into the FIFO: the lanes, and a mark that its component owed. -/
theorem enterComponent_of_room {k : Nat} {b : Pkt} (h : (s.lane k).fifo.length < 16384) :
    ∃ t, enterComponent s k i j b = t ∧ t = { s with lanes := t.lanes, services := t.services } := by
  refine ⟨_, rfl, ?_⟩
  unfold enterComponent
  dsimp only
  rw [enterFifo_of_room h]
  split <;> rfl

theorem exec_passes {k : Fin 4} {b : Pkt} (h : s.arrives k i j b)
    (hd : decide_ (s.observed k i j b) i j (seenPts b) = (s.observed k i j b, true))
    (hf : ((s.observed k i j b).lane k.val).fifo.length < 16384) :
    ∃ u, exec (.packetArrival k b) s = .next (rest u)
      ∧ u = { s.observed k i j b with lanes := u.lanes, services := u.services } := by
  obtain ⟨t, rfl, ht⟩ := @enterComponent_of_room (s.observed k i j b) i j k.val b hf
  exact ⟨_, exec_arrives_passed h hd, ht⟩

end Sys2Proof.Machine
end

section
/-! A lead PES start and the lead window (R28 to R30, R67). -/

namespace Sys2Proof.Machine

variable {s : State} {i j : Nat} {b : Pkt} {p : Pes}

theorem leastLead_spec {l : List Int} (h : l ≠ []) : ∃ m, leastLead l = some m ∧ m ∈ l ∧ ∀ y ∈ l, m ≤ y := by
  have hm : leastLead l = l.min? := by cases l <;> rfl
  obtain ⟨m, hx⟩ := Option.ne_none_iff_exists'.1 (fun hn => h (List.min?_eq_none_iff.1 hn))
  exact ⟨m, hm.trans hx, List.min?_eq_some_iff.1 hx⟩

theorem clkAfterPcr_leads (h : (s.svc i).clk.leads.length ≤ 32) : (s.clkAfterPcr i b).leads.length ≤ 32 := by
  unfold State.clkAfterPcr
  split
  · split
    · rename_i base ext _ _
      rcases pcrEffect_leads s i (base * 300 + ext) (pktDisc b) with h1 | h1 <;> simp [h1, h]
    · exact h
  · exact h

/-- Up to 32 samples the window is the last 32 of the old ones and the new one. -/
theorem ClockRec.sampled_leads {c : ClockRec} (h : c.leads.length ≤ 32) (hu : c.st ≠ .unlocked) (now pts : Nat) :
    c.sampled now pts = { c with
      leads := (c.leads ++ [sdiff nPts pts (addMod nClk now c.sigma / 300)]).drop (c.leads.length + 1 - 32) } := by
  rw [sampled, if_neg hu]
  by_cases hl : 32 ≤ c.leads.length
  · have h32 : c.leads.length = 32 := by omega
    obtain ⟨x, l, hx⟩ := List.exists_cons_of_length_eq_add_one h32
    simp [hx, show l.length = 31 by simpa [hx] using h32]
  · simp [hl, show c.leads.length + 1 - 32 = 0 by omega]

theorem clkObserved_lead (hl : leadIdx (s.svc i).defComps = some j) (hp : pktPes b = some p) :
    s.clkObserved i j b = (s.clkAfterPcr i b).sampled s.localCount p.pts := by
  simp [State.clkObserved, hl, hp]

/-! ### λ becoming present -/

/-- The state with the first sample of a window, on which the entries that wait for the clock are evaluated. -/
def State.withSample (s : State) (k i : Nat) (pts : Nat) : State :=
  (latchSearches (acceptInput s k) i).modSvc i (fun v => { v with clk := v.clk.sampled s.localCount pts })

theorem observed_lead {k : Fin 4} (h : s.examines k i j b) (hl : leadIdx (s.svc i).defComps = some j) (hp : pktPes b = some p)
    (hu : (s.svc i).clk.st ≠ .unlocked) (hn : pktPcr b = none ∨ (s.svc i).defn.map (·.pcrPid) ≠ some (pktPid b)) :
    s.observed k i j b = syncTimers (if (s.svc i).clk.leads.isEmpty then reeval (s.withSample k.val i p.pts) i .clock
      else s.withSample k.val i p.pts) i := by
  have hd : ((latchSearches (acceptInput s k.val) i).svc i).defn = (s.svc i).defn := by
    rw [latchSearches_kept.defn, acceptInput_svc]
  have hc : ((latchSearches (acceptInput s k.val) i).svc i).clk = (s.svc i).clk := by
    rw [latchSearches_kept.clk, acceptInput_svc]
  have hlc : (latchSearches (acceptInput s k.val) i).localCount = s.localCount := by
    rw [latchSearches_kept.localCount, acceptInput_localCount]
  have hs : (if ((latchSearches (acceptInput s k.val) i).svc i).defn.map (·.pcrPid) = some (pktPid b)
      then observePcr (latchSearches (acceptInput s k.val) i) i b else latchSearches (acceptInput s k.val) i)
      = latchSearches (acceptInput s k.val) i := by
    rw [hd]
    rcases hn with hn | hn
    · rw [observePcr, hn, ite_self]
    · rw [if_neg hn]
  rw [observed_examined h.observable]
  congr 1
  unfold observeComp
  dsimp only
  rw [hs, hp]
  dsimp only
  rw [if_pos (by rw [Service.defComps, hd]; exact hl), leadSample, serviceTime, hc, if_neg hu]
  dsimp only
  have hw : (latchSearches (acceptInput s k.val) i).modSvc i (fun v => { v with clk := { v.clk with
      leads := (if 32 ≤ (s.svc i).clk.leads.length then (s.svc i).clk.leads.tail else (s.svc i).clk.leads)
        ++ [sdiff nPts p.pts (addMod nClk (latchSearches (acceptInput s k.val) i).localCount (s.svc i).clk.sigma / 300)] } })
      = s.withSample k.val i p.pts := by
    rw [State.withSample, State.modSvc, State.modSvc, hc, ClockRec.sampled, if_neg hu, hlc]
  rw [hw]

theorem withSample_frame (k : Nat) (pts : Nat) : s.withSample k i pts =
    { s with lanes := (s.withSample k i pts).lanes, services := (s.withSample k i pts).services
             boxes := (s.withSample k i pts).boxes } := by
  unfold State.withSample latchSearches
  rw [acceptInput_frame]
  rfl

theorem withSample_svc (k pts : Nat) : (s.withSample k i pts).svc i =
    { s.svc i with clk := (s.svc i).clk.sampled s.localCount pts, sp := (latchSearches s i).sp i } := by
  rw [State.withSample, State.svc_modSvc, if_pos rfl, ← latchSearches_acceptInput k, latchSearches, State.modSp, State.sp,
    State.svc_modSvc, if_pos rfl, acceptInput_svc]

theorem withSample_svc_ne (k pts : Nat) {l : Nat} (h : l ≠ i) : (s.withSample k i pts).svc l = s.svc l := by
  rw [State.withSample, State.svc_modSvc, if_neg h, latchSearches, State.modSp, State.svc_modSvc, if_neg h, acceptInput_svc]

/-- A lead PES start of a service that awaits no E, before the point of the network cut, brings the splice engine nothing. -/
theorem decide_lead_pass {c : CompState} {x : Nat} (hc : (s.sp i).comps[j]? = some c) (hr : c.replaced = false)
    (hf : (s.sp i).fixE = false) (hx : (s.sp i).cutX = none)
    (hn : ∀ n, (s.sp i).nxt = some n → n.phase = .seeking →
      ∃ y, n.s = some y ∧ atOrAfter nPts x y = false ∧ n.overdue = false) :
    decide_ s i j (some x) = (s, true) := by
  rw [decide_unfixed (fun _ hfix => by rw [hf] at hfix; cases hfix) hc, judged_pass (fun h => by rw [hr] at h; cases h)
    (fun _ => networkCutOf_none (fun n h1 h2 _ => ?_)) (componentCutOf_none (.inl hx)), hr]
  · rfl
  · obtain ⟨y, hy, ha, ho⟩ := hn n h1 h2
    simp [cutPoint, hy, ho, ptsAt, ha]

/-- Settles O16: the record by the order PCR then sample, the entries by the state with the sample. -/
theorem leadPesStartJoinsLeadWindow : Obligations.LeadPesStartJoinsLeadWindow := by
  refine ⟨fun s k i j b p h hl hp hlen => ?_, fun s k i j b p h hl hp hu hn => ?_⟩
  · intro c after
    have hafter : after = s.clkAfterPcr i b := rfl
    clear_value after
    subst hafter
    obtain ⟨t, ht, hclk⟩ := exec_arrives_clk h.toarrives
    have hc : (t.svc i).clk = (s.clkAfterPcr i b).sampled s.localCount p.pts := by
      rw [hclk, observed_clk h, clkObserved_lead hl hp]
    refine ⟨t, ht, fun hst => ?_, fun hst => ?_⟩
    · have hs := hc.trans (ClockRec.sampled_leads (clkAfterPcr_leads hlen) hst s.localCount p.pts)
      refine ⟨hs, ?_⟩
      refine leastLead_spec ?_
      rw [hc, ClockRec.sampled, if_neg hst]
      simp
    · rw [hc, ClockRec.sampled, if_pos hst]
  · intro s1 q c
    have hs1 : s1 = _ := observed_lead h hl hp hu hn
    refine ⟨fun hne => ?_, fun hnil => ?_, fun x hx hr hf hcut hsk hroom => ?_⟩
    · rw [hs1, if_neg (by simpa using hne), syncTimers, State.modSp_entries, withSample_frame]
    · refine ⟨s.withSample k.val i p.pts, ?_, withSample_frame _ _, ?_, fun l => withSample_svc_ne _ _, fun x => ?_⟩
      · rw [hs1, if_pos (by simpa using hnil)]
      · rw [withSample_svc, ClockRec.sampled, if_neg hu]
        simp only [show (s.svc i).clk.leads = [] from hnil]
        rfl
      · rw [State.withSample, State.modSvc_box, latchSearches, State.modSp_box, acceptInput_box]
    · have hpts : seenPts b = some p.pts := by simp [seenPts, h.observable, hp]
      refine exec_passes h.toarrives ?_ ?_
      · rw [hpts]
        exact decide_lead_pass hx hr hf hcut hsk
      · rw [observed_lane]
        exact hroom

end Sys2Proof.Machine
end

section
/-! The first lock of a service without a lead: its PENDING TIME entries are judged (R53, R54, R60). -/

namespace Sys2Proof.Machine

variable {z u : State} {i n : Nat} {e : Entry}

/-! ### The arming computation without a lead (R56 to R60) -/

theorem leadPoint_leadless (h : (u.svc i).clk.leads = []) (x : Int) : leadPoint u i x = none := by
  unfold leadPoint lead
  rw [h]
  cases serviceTime u i <;> rfl

/-- Without λ nothing is converted, and no point is feasible: an entry that fires is FAULTED or WAITING(CLOCK). -/
theorem armRun_leadless (he : u.entry n = some e) (hl : (u.svc e.svc).clk.leads = []) : armRun u n =
    (if e.pod.any u.clipDamaged then endEntry u e .faulted else u.setEntry n (some { e with st := .waiting .clock }), false) := by
  have hconv (t : Nat) : convert u e.svc t = none := by
    unfold convert
    cases serviceTime u e.svc with
    | none => rfl
    | some c => exact leadPoint_leadless hl _
  unfold armRun
  rw [he]
  dsimp only
  by_cases hd : e.pod.any u.clipDamaged = true
  · rw [if_pos hd, if_pos hd]
  · rw [if_neg hd, if_neg hd]
    rw [earliest, leadPoint_leadless hl]
    cases ha : e.a with
    | some x => simp [later]
    | none => cases ht : e.trigger <;> simp [later, hconv]

/-! ### One entry is judged (R54) -/

/-- What the first lock makes of an entry. -/
inductive Verdict where
  | stays | waits | ends (r : EntryResult)

/-- The verdict on an entry: MISSED past its target by more than the window, fired when its condition holds, PENDING still
otherwise. -/
def State.verdict (z : State) (e : Entry) : Verdict :=
  match e.st, e.trigger, serviceTime z e.svc with
  | .pending, .time t, some c =>
    if (e.window : Int) * 300 < sdiff nClk c t then .ends .missed
    else if timeDue z e then (if e.pod.any z.clipDamaged then .ends .faulted else .waits) else .stays
  | _, _, _ => .stays

def Verdict.act (u : State) (e : Entry) : Verdict → State
  | .stays => u
  | .waits => u.setEntry e.num (some { e with st := .waiting .clock })
  | .ends r => endEntry u e r

/-- What the verdict leaves of the entry. -/
def Verdict.left (e : Entry) : Verdict → Option Entry
  | .stays => some e
  | .waits => some { e with st := .waiting .clock }
  | .ends _ => none

/-- The judging of one entry of a service by the first lock. -/
def lockStep (i : Nat) (s : State) (n : Nat) : State :=
  match s.entry n with
  | some e =>
    match e.st, e.trigger, serviceTime s i with
    | .pending, .time t, some c =>
      if (e.window : Int) * 300 < sdiff nClk c t then endEntry s e .missed
      else if timeDue s e then armAndArbitrate s n else s
    | _, _, _ => s
  | none => s

theorem firstLock_eq (s : State) (i : Nat) : firstLock s i = ((entriesOf s i).map (·.num)).foldl (lockStep i) s := rfl

/-- The judging has come to `u` from `z`: the plans, the counts and the queues may have changed, and nothing that it reads. -/
structure Judging (z u : State) : Prop where
  frame : u = { z with entries := u.entries, dir := u.dir, boxes := u.boxes }
  damaged : ∀ c, u.clipDamaged c = z.clipDamaged c
  wf : Table.wf none u.entries = true
  load : ∀ p, u.load p ≤ z.load p
  grows : ∀ p, (z.box p).queue <+: (u.box p).queue

theorem State.setEntry_entries (s : State) (n : Nat) (x : Option Entry) : (s.setEntry n x).entries = Table.set none s.entries n x := rfl

namespace Judging
variable {v : State}

theorem refl (h : Table.wf none z.entries = true) : Judging z z := ⟨rfl, fun _ => rfl, h, fun _ => le_rfl, fun _ => List.prefix_rfl⟩

theorem trans (h : Judging z u) (k : Judging u v) : Judging z v where
  frame := by rw [k.frame, h.frame]
  damaged c := (k.damaged c).trans (h.damaged c)
  wf := k.wf
  load p := (k.load p).trans (h.load p)
  grows p := (h.grows p).trans (k.grows p)

theorem svc (h : Judging z u) (x : Nat) : u.svc x = z.svc x := by rw [h.frame]; rfl
theorem lane (h : Judging z u) (x : Nat) : u.lane x = z.lane x := by rw [h.frame]; rfl
theorem localCount (h : Judging z u) : u.localCount = z.localCount := by rw [h.frame]

theorem serviceTime (h : Judging z u) (x : Nat) : serviceTime u x = serviceTime z x := by
  simp only [Machine.serviceTime, h.svc, h.localCount]

theorem timeDue (h : Judging z u) (e : Entry) : timeDue u e = timeDue z e := by
  have hg : u.cfgOf e.svc = z.cfgOf e.svc := by simp only [State.cfgOf, State.laneOf, h.svc, h.lane]
  simp only [Machine.timeDue, h.serviceTime, hg]

theorem verdict (h : Judging z u) (e : Entry) : u.verdict e = z.verdict e := by
  have hd : e.pod.any u.clipDamaged = e.pod.any z.clipDamaged := congrArg e.pod.any (funext h.damaged)
  simp only [State.verdict, h.serviceTime, h.timeDue, hd]

/-- The entries that are judged are PENDING, so that an end discards no `Inst`. -/
theorem act (hw : Table.wf none u.entries = true) (he : u.entry e.num = some e) (x : Verdict) (hx : x = .stays ∨ e.st = .pending) :
    Judging u (x.act u e) ∧ ∀ n, (x.act u e).entry n = if n = e.num then x.left e else u.entry n := by
  have harm (h : e.st = .pending) : e.st ≠ .armed := by rw [h]; exact fun h => by cases h
  cases x with
  | stays =>
    refine ⟨refl hw, fun n => ?_⟩
    split
    · next h => rw [h]; exact he
    · rfl
  | waits =>
    show Judging u (u.setEntry _ _) ∧ _
    refine ⟨⟨rfl, fun _ => rfl, ?_, fun p => ?_, fun _ => List.prefix_rfl⟩, State.entry_setEntry _ _ _⟩
    · rw [State.setEntry_entries]
      exact Table.wf_set _ _ _ _ hw
    · exact le_of_eq (congrArg (fun m => (u.box p).queue.length + m) (Table.vals_set_some hw he _))
  | ends r =>
    have hp := harm (hx.resolve_left (fun h => by cases h))
    refine ⟨⟨endEntry_frame r hp, endEntry_clipDamaged r hp, ?_, endEntry_load r hw he hp, endEntry_grows r hp⟩,
      endEntry_entry r hp⟩
    show Table.wf none (endEntry u e r).entries = true
    rw [endEntry_entries r hp]
    exact Table.wf_set _ _ _ _ hw

end Judging

theorem verdict_cases (z : State) (e : Entry) : z.verdict e = .stays ∨ e.st = .pending := by
  unfold State.verdict
  split
  · next h _ _ => exact .inr h
  · exact .inl rfl

/-- One step of the first lock is the verdict on its entry. -/
theorem lockStep_eq (h : Judging z u) (he : u.entry e.num = some e) (hi : e.svc = i) (hl : (z.svc i).clk.leads = []) :
    lockStep i u e.num = (z.verdict e).act u e := by
  subst hi
  have harm := armRun_leadless he (by rw [h.svc, hl])
  have hfire : armAndArbitrate u e.num = (if e.pod.any u.clipDamaged then endEntry u e .faulted
      else u.setEntry e.num (some { e with st := .waiting .clock })) := by
    unfold armAndArbitrate
    rw [harm]
    rfl
  rw [← h.verdict]
  unfold lockStep State.verdict
  rw [he, hfire]
  dsimp only
  split
  · split
    · rfl
    · split
      · split <;> rfl
      · rfl
  · rfl

/-- The judging of a list of entries, each on what those before it have left. -/
theorem foldl_lockStep (hl : (z.svc i).clk.leads = []) : ∀ (l : List Nat) (u : State), Judging z u → l.Nodup →
    (∀ n ∈ l, ∃ e, u.entry n = some e ∧ e.num = n ∧ e.svc = i) →
    Judging u (l.foldl (lockStep i) u) ∧ (∀ n ∉ l, (l.foldl (lockStep i) u).entry n = u.entry n)
      ∧ ∀ n ∈ l, ∀ e, u.entry n = some e → (l.foldl (lockStep i) u).entry n = (z.verdict e).left e
        ∧ ∀ r, z.verdict e = .ends r → z.load e.origin ≤ 32 → e.endEvent r ∈ ((l.foldl (lockStep i) u).box e.origin).queue := by
  intro l
  induction l with
  | nil => exact fun u hj _ _ => ⟨Judging.refl hj.wf, fun _ _ => rfl, fun _ h => by cases h⟩
  | cons m l ih =>
    intro u hj hnd hall
    obtain ⟨x, hx, rfl, hxi⟩ := hall _ List.mem_cons_self
    obtain ⟨hm, hnd⟩ := List.nodup_cons.1 hnd
    have hstep := lockStep_eq hj hx hxi hl
    obtain ⟨hact, hent⟩ := Judging.act hj.wf hx (z.verdict x) (verdict_cases z x)
    rw [← hstep] at hact hent
    obtain ⟨hrest, hout, hin⟩ := ih (lockStep i u x.num) (hj.trans hact) hnd (fun n hn => by
      have hne : n ≠ x.num := fun h => hm (h ▸ hn)
      rw [hent, if_neg hne]
      exact hall n (List.mem_cons_of_mem _ hn))
    rw [List.foldl_cons]
    refine ⟨hact.trans hrest, fun n hn => ?_, fun n hn e he => ?_⟩
    · have hne : n ≠ x.num := fun h => hn (h ▸ List.mem_cons_self)
      rw [hout n (fun h => hn (List.mem_cons_of_mem _ h)), hent, if_neg hne]
    · rcases List.mem_cons.1 hn with rfl | hn
      · obtain rfl : x = e := Option.some.inj (hx.symm.trans he)
        refine ⟨by rw [hout _ hm, hent, if_pos rfl], fun r hr hload => ?_⟩
        refine (hrest.grows _).subset ?_
        rw [hstep, hr]
        exact endEntry_event r hx (by
          rcases verdict_cases z x with h | h
          · rw [h] at hr; cases hr
          · rw [h]; exact fun h => by cases h) ((hj.load _).trans hload)
      · have hne : n ≠ x.num := fun h => hm (h ▸ hn)
        exact hin n hn e (by rw [hent, if_neg hne]; exact he)

end Sys2Proof.Machine
end

section
/-! A PCR acts on the clock record by the tables of R25 and R26, and the first lock judges the plans (R53, R54). -/

namespace Sys2Proof.Machine

variable {s : State} {i j : Nat} {b : Pkt}

/-! ### Every entry of a service is judged once -/

theorem Table.vals_keys_sorted {t : Table (Option Entry)} (hw : Table.wf none t = true)
    (hn : ∀ n x, Table.get none t n = some x → x.num = n) : ((Table.vals t).map (·.num)).Nodup := by
  have hp := ((Table.wf_iff none t).mp hw).1
  have hnum (k : Nat) (e : Entry) (h : (k, some e) ∈ t) : e.num = k := hn k e (Table.get_of_mem hp h)
  refine List.pairwise_map.2 (List.pairwise_filterMap.2 (hp.imp_of_mem ?_))
  rintro ⟨k, x⟩ ⟨m, y⟩ hk hm hlt e rfl f rfl
  rw [hnum k e hk, hnum m f hm]
  exact Nat.ne_of_lt hlt

theorem entriesOf_nums_nodup (hw : Table.wf none s.entries = true) (hn : ∀ n x, s.entry n = some x → x.num = n) :
    ((entriesOf s i).map (·.num)).Nodup :=
  (Table.vals_keys_sorted hw hn).sublist ((List.filter_sublist).map _)

theorem mem_entriesOf_nums (hw : Table.wf none s.entries = true) (hn : ∀ n x, s.entry n = some x → x.num = n) {n : Nat} :
    n ∈ (entriesOf s i).map (·.num) ↔ ∃ e, s.entry n = some e ∧ e.num = n ∧ e.svc = i := by
  rw [List.mem_map]
  constructor
  · rintro ⟨e, he, rfl⟩
    obtain ⟨hm, hi⟩ := (mem_entriesOf s i e).1 he
    obtain ⟨m, hx⟩ := (mem_schedule_iff hw e).1 hm
    exact ⟨e, by rw [hn m e hx]; exact hx, rfl, hi⟩
  · rintro ⟨e, he, rfl, hi⟩
    exact ⟨e, (mem_entriesOf s i e).2 ⟨mem_schedule_of_entry he, hi⟩, rfl⟩

/-- The first lock of a service without a lead, entry by entry. -/
theorem firstLock_judges {z : State} (hl : (z.svc i).clk.leads = []) (hw : Table.wf none z.entries = true)
    (hn : ∀ n x, z.entry n = some x → x.num = n) :
    Judging z (firstLock z i)
      ∧ (∀ n, (∀ e, z.entry n = some e → e.svc = i → z.verdict e = .stays) → (firstLock z i).entry n = z.entry n)
      ∧ ∀ n e, z.entry n = some e → e.svc = i → (firstLock z i).entry n = (z.verdict e).left e
        ∧ ∀ r, z.verdict e = .ends r → z.load e.origin ≤ 32 → e.endEvent r ∈ ((firstLock z i).box e.origin).queue := by
  obtain ⟨hj, hout, hin⟩ := foldl_lockStep hl ((entriesOf z i).map (·.num)) z (Judging.refl hw) (entriesOf_nums_nodup hw hn)
    (fun n h => (mem_entriesOf_nums hw hn).1 h)
  rw [← firstLock_eq] at hj hout hin
  refine ⟨hj, fun n h => ?_, fun n e he hi => hin n ((mem_entriesOf_nums hw hn).2 ⟨e, he, hn n e he, hi⟩) e he⟩
  by_cases hm : n ∈ (entriesOf z i).map (·.num)
  · obtain ⟨e, he, -, hi⟩ := (mem_entriesOf_nums hw hn).1 hm
    rw [(hin n hm e he).1, h e he hi, he]
    rfl
  · exact hout n hm

/-! ### The clock table (R25, R26) -/

theorem clkAfterPcr_of_ext {base ext : Nat} (hp : pktPcr b = some (base, ext)) (he : 300 ≤ ext) : s.clkAfterPcr i b = (s.svc i).clk := by
  simp [State.clkAfterPcr, hp, Nat.not_lt.2 he]

theorem clkAfterPcr_of_pcr {base ext : Nat} (hp : pktPcr b = some (base, ext)) (he : ext < 300)
    (hd : (s.svc i).defn.map (·.pcrPid) = some (pktPid b)) :
    s.clkAfterPcr i b = (pcrEffect s i (base * 300 + ext) (pktDisc b)).1 := by
  simp [State.clkAfterPcr, hp, he, hd]

/-- Whatever the packet brings besides its PCR changes the window alone. -/
theorem clkObserved_but_leads : { s.clkObserved i j b with leads := (s.clkAfterPcr i b).leads } = s.clkAfterPcr i b := by
  unfold State.clkObserved
  split
  · rfl
  · split
    · unfold ClockRec.sampled
      split <;> rfl
    · rfl

/-- The state at a first lock by a PCR of value `v`, before the plans are judged. -/
def State.locked (s : State) (k i v : Nat) : State :=
  (latchSearches (acceptInput s k) i).modSvc i (fun x => { x with
    clk := { x.clk with sigma := subMod nClk v s.localCount, cand := none, st := .locked, lossTimer := some s.localCount } })

theorem pcrEffect_unlocked (h : (s.svc i).clk.st = .unlocked) (v : Nat) (d : Bool) : pcrEffect s i v d =
    ({ (s.svc i).clk with sigma := subMod nClk v s.localCount, cand := none, st := .locked, lossTimer := some s.localCount },
      (s.sp i).sigmaP, true, true) := by
  simp [pcrEffect, h]

theorem observed_firstLock {k : Fin 4} {base ext : Nat} (h : s.examines k i j b) (hd : (s.svc i).defn.map (·.pcrPid) = some (pktPid b))
    (hp : pktPcr b = some (base, ext)) (he : ext < 300) (hpes : pktPes b = none) (hu : (s.svc i).clk.st = .unlocked) :
    s.observed k i j b = syncTimers (firstLock (s.locked k.val i (base * 300 + ext)) i) i := by
  have hc : ((latchSearches (acceptInput s k.val) i).svc i).clk = (s.svc i).clk := by
    rw [latchSearches_kept.clk, acceptInput_svc]
  have hx : ((latchSearches (acceptInput s k.val) i).svc i).defn = (s.svc i).defn := by
    rw [latchSearches_kept.defn, acceptInput_svc]
  have hl : (latchSearches (acceptInput s k.val) i).localCount = s.localCount := by
    rw [latchSearches_kept.localCount, acceptInput_localCount]
  rw [observed_examined h.observable]
  congr 1
  unfold observeComp
  dsimp only
  rw [hx, if_pos hd, hpes]
  dsimp only
  unfold observePcr
  rw [hp]
  dsimp only
  rw [if_neg (Nat.not_le.2 he), pcrEffect_unlocked (by rw [hc, hu]), if_pos rfl, hl]
  rfl

theorem locked_entries (k v : Nat) : (s.locked k i v).entries = s.entries := by
  rw [State.locked, State.modSvc_entries, latchSearches, State.modSp_entries, acceptInput_entries]

theorem locked_dir (k v : Nat) : (s.locked k i v).dir = s.dir := by
  rw [State.locked, State.modSvc_dir, latchSearches, State.modSp_dir, acceptInput_dir]

theorem locked_clipDamaged (k v c : Nat) : (s.locked k i v).clipDamaged c = s.clipDamaged c := by
  rw [State.clipDamaged, State.clip, locked_dir]
  rfl

theorem locked_box (k v : Nat) (p : PortId) : (s.locked k i v).box p =
    if (s.lane k).inputPresent then s.box p else pushBox (s.box p) (.inputPresent k) := by
  rw [State.locked, State.modSvc_box, latchSearches, State.modSp_box, acceptInput_box]

theorem locked_load (k v : Nat) (p : PortId) : (s.locked k i v).load p ≤ s.load p + 1 := by
  unfold State.load State.schedule
  rw [locked_entries, locked_box]
  split
  · omega
  · have := pushBox_length_le (s.box p) (.inputPresent k)
    omega

theorem locked_svc (k v : Nat) : (s.locked k i v).svc i = { s.svc i with
    clk := { (s.svc i).clk with sigma := subMod nClk v s.localCount, cand := none, st := .locked, lossTimer := some s.localCount }
    sp := (latchSearches s i).sp i } := by
  rw [State.locked, State.svc_modSvc, if_pos rfl, ← latchSearches_acceptInput k, latchSearches, State.modSp, State.sp,
    State.svc_modSvc, if_pos rfl, acceptInput_svc]

theorem locked_serviceTime (k v : Nat) :
    serviceTime (s.locked k i v) i = some (addMod nClk s.localCount (subMod nClk v s.localCount)) := by
  have hl : (s.locked k i v).localCount = s.localCount := by
    rw [State.locked, State.modSvc_localCount, latchSearches, State.modSp_localCount, acceptInput_localCount]
  rw [serviceTime, locked_svc, hl]
  rfl

theorem locked_cfgOf {k : Nat} (h : s.laneOf i = some k) (v : Nat) : (s.locked k i v).cfgOf i = (s.lane k).cfg := by
  have hl : (s.locked k i v).laneOf i = some k := by rw [State.laneOf, locked_svc]; exact h
  rw [State.cfgOf_of_laneOf hl, State.locked, State.modSvc_lane, latchSearches, State.modSp_lane, acceptInput_lane, if_pos rfl]
  rfl

/-- The verdict on a PENDING TIME entry, in the terms of R53 and R54. -/
theorem locked_verdict {k v tt : Nat} {e : Entry} (h : s.laneOf i = some k) (hi : e.svc = i) (hst : e.st = .pending)
    (ht : e.trigger = .time tt) : (s.locked k i v).verdict e =
      if (e.window : Int) * 300 < sdiff nClk (addMod nClk s.localCount (subMod nClk v s.localCount)) tt then .ends .missed
      else if atOrAfter nClk (addMod nClk s.localCount (subMod nClk v s.localCount)) (subMod nClk tt ((s.lane k).cfg.preroll * 27000))
        then (if e.pod.any s.clipDamaged then .ends .faulted else .waits) else .stays := by
  have hd : e.pod.any (s.locked k i v).clipDamaged = e.pod.any s.clipDamaged :=
    congrArg e.pod.any (funext (locked_clipDamaged k v))
  subst hi
  rw [State.verdict, timeDue, hst, ht, locked_serviceTime, hd, locked_cfgOf h]
  simp only [beq_self_eq_true, Bool.true_and]
  rfl

theorem verdict_of_not_pending {z : State} {e : Entry} (h : ∀ tt, ¬(e.st = .pending ∧ e.trigger = .time tt)) : z.verdict e = .stays := by
  unfold State.verdict
  split
  · next hst ht _ => exact absurd ⟨hst, ht⟩ (h _)
  · rfl

end Sys2Proof.Machine
end

section
/-! O15: a PCR observation by the clock table, and the first lock. -/

namespace Sys2Proof.Machine

variable {s : State} {i j : Nat} {b : Pkt}

/-! ### What latching and the timers leave of a splice record -/

theorem latchSearches_comps : ((latchSearches s i).sp i).comps = (s.sp i).comps := by rw [latchSearches, State.sp_modSp, if_pos rfl]
theorem latchSearches_cutX : ((latchSearches s i).sp i).cutX = (s.sp i).cutX := by rw [latchSearches, State.sp_modSp, if_pos rfl]
theorem latchSearches_nxt_none (h : (s.sp i).nxt = none) : ((latchSearches s i).sp i).nxt = none := by
  rw [latchSearches, State.sp_modSp, if_pos rfl, h]
  rfl
theorem syncTimers_comps : ((syncTimers s i).sp i).comps = (s.sp i).comps := by rw [syncTimers, State.sp_modSp, if_pos rfl]
theorem syncTimers_cutX : ((syncTimers s i).sp i).cutX = (s.sp i).cutX := by rw [syncTimers, State.sp_modSp, if_pos rfl]
theorem syncTimers_nxt_none (h : (s.sp i).nxt = none) : ((syncTimers s i).sp i).nxt = none := by
  rw [syncTimers, State.sp_modSp, if_pos rfl, h]
  rfl

/-- With no `Inst` and no search, a packet without a PES start brings the splice engine nothing. -/
theorem pcr_without_cut_passes {k : Fin 4} {u : State} {v : Nat} {c : CompState} (hj : Judging (s.locked k.val i v) u)
    (hc : (s.sp i).comps[j]? = some c) (hr : c.replaced = false) (hn : (s.sp i).nxt = none) (hx : (s.sp i).cutX = none) :
    decide_ (syncTimers u i) i j none = (syncTimers u i, true) := by
  have hsp : u.sp i = (latchSearches s i).sp i := by rw [State.sp, hj.svc, locked_svc]
  have hcomp : ((syncTimers u i).sp i).comps[j]? = some c := by rw [syncTimers_comps, hsp, latchSearches_comps, hc]
  have hnxt : ((syncTimers u i).sp i).nxt = none := syncTimers_nxt_none (by rw [hsp, latchSearches_nxt_none hn])
  have hcut : ((syncTimers u i).sp i).cutX = none := by rw [syncTimers_cutX, hsp, latchSearches_cutX, hx]
  rw [decide_unfixed (fun _ _ => rfl) hcomp, judged_pass (fun h => by rw [hr] at h; cases h)
    (fun _ => networkCutOf_none (fun n h _ _ => by rw [hnxt] at h; cases h)) (componentCutOf_none (.inl hcut)), hr]
  rfl

/-- Settles O15: the record case by case, and the first lock by the verdict on each entry. -/
theorem pcrObservationFollowsClockTable : Obligations.PcrObservationFollowsClockTable := by
  refine ⟨fun s k i j b base ext hr hb hm hz hs hc hx hd hp => ?_,
    fun s k i j b base ext h hd hp he hpes hu hleads hw hnum => ?_⟩
  · intro c l v o w after
    have h : s.examines k i j b := ⟨⟨⟨hr, hb, hm, hz⟩, hs, hc⟩, hx⟩
    have hafter : after = s.clkAfterPcr i b := by
      by_cases hext : 300 ≤ ext
      · exact (if_pos hext).trans (clkAfterPcr_of_ext hp hext).symm
      · rw [clkAfterPcr_of_pcr hp (Nat.not_le.1 hext) hd]
        refine (if_neg hext).trans ?_
        unfold pcrEffect
        dsimp only
        split
        · rfl
        · split
          · rfl
          · by_cases hm : s.monitor = .backup
            · rw [if_pos (.inl hm), if_pos hm]
            · rw [if_neg hm]
              by_cases hn : (sdiff nClk v (addMod nClk l c.sigma)).natAbs ≤ w
              · rw [if_pos (.inr hn), if_pos hn]
              · rw [if_neg (not_or.2 ⟨hm, hn⟩), if_neg hn]
                cases hcand : (s.svc i).clk.cand with
                | none => simp only [c] <;> rfl
                | some x => simp only [c]; split <;> rfl
    clear_value after
    subst hafter
    obtain ⟨t, ht, hclk⟩ := exec_arrives_clk h.toarrives
    refine ⟨t, ht, ?_, fun hpes => ?_⟩
    · rw [hclk, observed_clk h]
      exact clkObserved_but_leads
    · rw [hclk, observed_clk h, State.clkObserved, hpes]
  · intro s1 now pends late due damaged ended
    have hlane := laneOf_of_serviceOfPid h.service
    have hs1 : s1 = syncTimers (firstLock (s.locked k.val i (base * 300 + ext)) i) i := observed_firstLock h hd hp he hpes hu
    obtain ⟨hj, hstay, hjudge⟩ := firstLock_judges (i := i) (z := s.locked k.val i (base * 300 + ext)) (by rw [locked_svc]; exact hleads)
      (by rw [locked_entries]; exact hw) (fun n x => by rw [State.entry, locked_entries]; exact hnum n x)
    have hentry (n : Nat) : (s.locked k.val i (base * 300 + ext)).entry n = s.entry n := by rw [State.entry, locked_entries]; rfl
    have hs1e (n : Nat) : s1.entry n = (firstLock (s.locked k.val i (base * 300 + ext)) i).entry n := by rw [hs1]; rfl
    have hs1b (p : PortId) : s1.box p = (firstLock (s.locked k.val i (base * 300 + ext)) i).box p := by rw [hs1]; rfl
    refine ⟨fun n e tt hen hpend => ?_, fun n hno => ?_, fun c hc hr hnx hcx hroom => ?_⟩
    · obtain ⟨hi, hst, ht⟩ := hpend
      obtain ⟨hleft, hevent⟩ := hjudge n e (by rw [hentry, hen]) hi
      have hv := locked_verdict (v := base * 300 + ext) hlane hi hst ht
      have hdam : e.pod.any s.clipDamaged = true ↔ damaged e := List.any_eq_true
      have hended (r : EntryResult) (hr : (s.locked k.val i (base * 300 + ext)).verdict e = .ends r) : ended n e r := by
        refine ⟨by rw [hs1e, hleft, hr]; rfl, fun hload => ?_⟩
        have hle := locked_load (s := s) (i := i) k.val (base * 300 + ext) e.origin
        have := hevent r hr (hle.trans hload)
        rw [Entry.endEvent, hi, hnum n e hen] at this
        rw [hs1b]
        exact this
      refine ⟨fun hl => hended _ (hv.trans (if_pos hl)), fun hl hdue hdm => hended _ ?_, fun hl hdue hdm => ?_, fun hl hdue => ?_⟩
      · rw [hv, if_neg hl, if_pos hdue, if_pos (hdam.2 hdm)]
      · rw [hs1e, hleft, hv, if_neg hl, if_pos hdue, if_neg (fun hx => hdm (hdam.1 hx))]
        rfl
      · rw [hs1e, hleft, hv, if_neg hl, if_neg hdue]
        rfl
    · rw [hs1e, hstay n (fun e hen hi => verdict_of_not_pending (fun tt hp => ?_)), hentry]
      exact hno e tt ((hentry n).symm.trans hen) ⟨hi, hp⟩
    · have hpts : seenPts b = none := by simp [seenPts, hpes]
      refine exec_passes h.toarrives ?_ ?_
      · rw [hpts]
        exact (hs1 ▸ pcr_without_cut_passes hj hc hr hnx hcx : decide_ s1 i j none = (s1, true))
      · rw [observed_lane]
        exact hroom

end Sys2Proof.Machine
end

section
/-! A packet of a REPLACED component: the resume, and the fixing of an awaited E (R43, R74, R95 to R98, R102). -/

namespace Sys2Proof.Machine

variable {s t : State} {i j : Nat} {b : Pkt}

/-! ### Acts on one service's splice record -/

/-- `t` is `s` but for the splice record of service `i` and the reads in the flash unit. -/
structure SpliceOnly (i : Nat) (s t : State) : Prop where
  frame : t = { s with services := t.services, flash := t.flash }
  others : ∀ l, l ≠ i → t.svc l = s.svc l
  own : t.svc i = { s.svc i with sp := t.sp i }

namespace SpliceOnly
variable {u : State}

theorem refl (i : Nat) (s : State) : SpliceOnly i s s := ⟨rfl, fun _ _ => rfl, rfl⟩

theorem trans (h : SpliceOnly i s t) (k : SpliceOnly i t u) : SpliceOnly i s u where
  frame := by rw [k.frame, h.frame]
  others l hl := (k.others l hl).trans (h.others l hl)
  own := by rw [k.own, h.own]

theorem modSp (i : Nat) (s : State) (f : SpliceRec → SpliceRec) : SpliceOnly i s (s.modSp i f) where
  frame := rfl
  others l hl := by rw [State.modSp, State.svc_modSvc, if_neg hl]
  own := by rw [State.sp_modSp, if_pos rfl, State.modSp, State.svc_modSvc, if_pos rfl]; rfl

theorem modFlash (i : Nat) (s : State) (f : Flash → Flash) : SpliceOnly i s (s.modFlash f) := ⟨rfl, fun _ _ => rfl, rfl⟩

theorem lane (h : SpliceOnly i s t) (k : Nat) : t.lane k = s.lane k := by rw [h.frame]; rfl
theorem localCount (h : SpliceOnly i s t) : t.localCount = s.localCount := by rw [h.frame]

theorem discardRole (i : Nat) (s : State) (r : Role) : SpliceOnly i s (discardRole s i r) where
  frame := discardRole_frame _ _ _
  others l hl := by rw [discardRole_svc, if_neg hl]
  own := by rw [State.sp, discardRole_svc, if_pos rfl]

theorem discardSeeking (i : Nat) (s : State) (o : Owner) : SpliceOnly i s (discardSeeking s i o) := by
  unfold Machine.discardSeeking
  extract_lets s1
  refine SpliceOnly.trans ?_ (modSp _ _ _)
  dsimp only [s1]
  split
  · split
    · exact discardRole _ _ _
    · exact refl _ _
  · exact refl _ _

theorem beginReturn (i : Nat) (s : State) : SpliceOnly i s (beginReturn s i) := by
  unfold Machine.beginReturn
  extract_lets s1
  split
  · exact refl _ _
  · refine SpliceOnly.trans ?_ (modSp _ _ _)
    dsimp only [s1]
    split
    · exact discardSeeking _ _ _
    · exact refl _ _

theorem resumeComp (i j : Nat) (s : State) : SpliceOnly i s (resumeComp s i j) := (beginReturn i s).trans (modSp _ _ _)

end SpliceOnly

/-! ### The begin of a return (R95) -/

theorem discardRole_next_sp : ∃ h q, (discardRole s i .next).sp i = { s.sp i with nxt := none, head := h, raReq := q } := by
  rw [State.sp, discardRole_svc, if_pos rfl]
  exact ⟨_, _, rfl⟩

theorem discardSeeking_sp (o : Owner) :
    ∃ n h q w, (discardSeeking s i o).sp i = { s.sp i with nxt := n, head := h, raReq := q, waiting := w } := by
  unfold discardSeeking
  extract_lets s1
  have h1 : ∃ n h q, s1.sp i = { s.sp i with nxt := n, head := h, raReq := q } := by
    dsimp only [s1]
    split
    · split
      · obtain ⟨h, q, hx⟩ := discardRole_next_sp (s := s) (i := i)
        exact ⟨none, h, q, hx⟩
      · exact ⟨_, _, _, rfl⟩
    · exact ⟨_, _, _, rfl⟩
  obtain ⟨n, h, q, hx⟩ := h1
  exact ⟨n, h, q, _, (State.sp_modSp s1 i i _).trans ((if_pos rfl).trans (by rw [hx]))⟩

/-- What the begin of a return leaves of the record that is not of an `Inst`: no search that it had not closed before. -/
theorem beginReturn_sp : ((beginReturn s i).sp i).comps = (s.sp i).comps.map (fun c => { c with search := (s.sp i).retBegun && c.search })
    ∧ ((beginReturn s i).sp i).ret = (s.sp i).ret ∧ ((beginReturn s i).sp i).retBegun = true
    ∧ ((s.sp i).fixE = false ∨ (s.sp i).retBegun = false → ((beginReturn s i).sp i).fixE = false) := by
  unfold beginReturn
  extract_lets s1
  by_cases hb : (s.sp i).retBegun = true
  · rw [if_pos hb]
    refine ⟨?_, rfl, hb, fun h => ?_⟩
    · simp [hb]
    · exact h.resolve_right (by simp [hb])
  · have h1 : ∃ n h q w, s1.sp i = { s.sp i with nxt := n, head := h, raReq := q, waiting := w } := by
      dsimp only [s1]
      split
      · exact discardSeeking_sp _
      · exact ⟨_, _, _, _, rfl⟩
    obtain ⟨n, h, q, w, hx⟩ := h1
    rw [if_neg hb, State.sp_modSp, if_pos rfl, hx]
    simp [hb]

/-! ### A component resumes (R96) -/

/-- The component that resumes, its packet owing the resume mark. -/
def State.resumed (s : State) (i j : Nat) : State :=
  (resumeComp s i j).modSp i (fun p => { p with comps := p.comps.modify j (fun x => { x with mark := true }) })

theorem resumed_spliceOnly : SpliceOnly i s (s.resumed i j) := (SpliceOnly.resumeComp i j s).trans (SpliceOnly.modSp _ _ _)

theorem resumed_sp : (s.resumed i j).sp i = { (beginReturn s i).sp i with
    comps := (((beginReturn s i).sp i).comps.modify j (fun x => { x with replaced := false, unsent := true })).modify j
      (fun x => { x with mark := true }) } := by
  rw [State.resumed, State.sp_modSp, if_pos rfl, resumeComp, State.sp_modSp, if_pos rfl]

theorem resumed_comps (m : Nat) : ((s.resumed i j).sp i).comps[m]? = ((s.sp i).comps[m]?).map (fun x =>
    if j = m then { x with search := (s.sp i).retBegun && x.search, replaced := false, unsent := true, mark := true }
    else { x with search := (s.sp i).retBegun && x.search }) := by
  rw [resumed_sp, beginReturn_sp.1]
  simp only [List.getElem?_modify, List.getElem?_map]
  cases (s.sp i).comps[m]? with
  | none => rfl
  | some x => by_cases h : j = m <;> simp [h]

/-- A component that owes the mark gives it to its packet. -/
theorem enterComponent_owed {k : Nat} {c : CompState} (hroom : (s.lane k).fifo.length < 16384)
    (hc : (s.sp i).comps[j]? = some c) (hm : c.mark = true) : enterComponent s k i j b =
      (s.setLane k { s.lane k with fifo := (s.lane k).fifo ++ [{ pkt := b, stamp := s.localCount, resume := true }] }).modSp i
        (fun p => { p with comps := p.comps.modify j (fun x => { x with mark := false }) }) := by
  have ho : markOwed s i j = true := by simp only [markOwed, hc, hm]
  unfold enterComponent
  dsimp only
  rw [ho, enterFifo_of_room hroom]
  rfl

/-- `u` is `s` once component `j`, in the state `c`, has resumed by the packet (R95, R96). -/
structure Resumes (s u : State) (k i j : Nat) (b : Pkt) (c : CompState) : Prop where
  comp : (u.sp i).comps[j]? = some { c with replaced := false, unsent := true, mark := false, search := (s.sp i).retBegun && c.search }
  comps : ∀ m x, m ≠ j → (s.sp i).comps[m]? = some x → (u.sp i).comps[m]? = some { x with search := (s.sp i).retBegun && x.search }
  begun : (u.sp i).retBegun = true
  ret : (u.sp i).ret = (s.sp i).ret
  fixed : (s.sp i).fixE = false ∨ (s.sp i).retBegun = false → (u.sp i).fixE = false
  lane : u.lane k = { s.lane k with fifo := (s.lane k).fifo ++ [{ pkt := b, stamp := s.localCount, resume := true }] }
  frame : u = { s with lanes := u.lanes, services := u.services, flash := u.flash }
  others : ∀ l, l ≠ i → u.svc l = s.svc l
  cond : (u.svc i).cond = (s.svc i).cond

theorem resumes_enter {k : Nat} {c : CompState} (hc : (s.sp i).comps[j]? = some c) (hroom : (s.lane k).fifo.length < 16384) :
    Resumes s (enterComponent (s.resumed i j) k i j b) k i j b c := by
  have hs : SpliceOnly i s (s.resumed i j) := resumed_spliceOnly
  have hj := (resumed_comps (s := s) (i := i) (j := j) j).trans (congrArg _ hc)
  rw [Option.map_some, if_pos rfl] at hj
  have hu := enterComponent_owed (b := b) (k := k) (by rw [hs.lane]; exact hroom) hj rfl
  have hcomps (m : Nat) : ((enterComponent (s.resumed i j) k i j b).sp i).comps[m]? =
      (((s.resumed i j).sp i).comps[m]?).map (fun x => if j = m then { x with mark := false } else x) := by
    rw [hu, State.sp_modSp, if_pos rfl]
    exact List.getElem?_modify _ _ _ _
  have hsp : (enterComponent (s.resumed i j) k i j b).sp i = { (beginReturn s i).sp i with
      comps := ((enterComponent (s.resumed i j) k i j b).sp i).comps } := by
    rw [hu, State.sp_modSp, if_pos rfl, show ((s.resumed i j).setLane k _).sp i = (s.resumed i j).sp i from rfl, resumed_sp]
  obtain ⟨-, hret, hbegun, hfix⟩ := beginReturn_sp (s := s) (i := i)
  refine ⟨?_, fun m x hm hx => ?_, by rw [hsp, hbegun], by rw [hsp, hret], fun h => by rw [hsp]; exact hfix h, ?_, ?_, fun l hl => ?_, ?_⟩
  · rw [hcomps, hj]
    simp
  · rw [hcomps, resumed_comps, hx]
    simp [Ne.symm hm]
  · rw [hu, State.modSp_lane, State.lane_setLane_self, hs.lane, hs.localCount]
  · rw [hu]
    generalize s.resumed i j = v at hs
    rw [hs.frame]
    rfl
  · rw [hu, State.modSp, State.svc_modSvc, if_neg hl, State.setLane_svc, hs.others l hl]
  · rw [hu, State.modSp, State.svc_modSvc, if_pos rfl, State.setLane_svc, hs.own]

end Sys2Proof.Machine
end

section
/-! O20: a packet of a REPLACED component. -/

namespace Sys2Proof.Machine

variable {s : State} {i j : Nat} {b : Pkt} {c : CompState}

theorem resumes_iff {p : SpliceRec} {pts : Option Nat} : resumes p pts = true ↔ p.retOverdue = true ∧ p.ret ≠ .idle
    ∨ (∃ e y, p.ret = .returning e ∧ pts = some y ∧ atOrAfter nPts y e = true) ∨ p.ret = .emergency ∧ pts.isSome = true := by
  unfold resumes ptsAt
  cases p.ret with
  | idle => simp
  | emergency => cases pts <;> simp
  | returning e => cases pts <;> simp [or_comm]

theorem atOrAfter_self (n a : Nat) (h : 0 < n) : atOrAfter n a a = true := by simp [atOrAfter, sdiff_self n a h]

/-! ### The fixing of an awaited E (R43, R97) -/

/-- The record that has been handed a return point. -/
def SpliceRec.handed (p : SpliceRec) (e : Nat) (timer : Option Nat) (seek : Nat) : SpliceRec :=
  { p with ret := .returning e, retOverdue := false, retTimer := timer, retSeek := seek, fixE := false }

theorem handE_of_open (hb : (s.sp i).retBegun = false) (hr : (s.sp i).ret ≠ .emergency) (e : Nat) :
    handE s i e = s.modSp i (fun p => p.handed e (openTimer s i) (s.cfgOf i).seekLimit) := by
  simp [handE, hb, hr, SpliceRec.handed]

theorem playingOwner_entry {e : Entry} (he : activeEntry s i = some e)
    (ha : ∀ r t, holdingAlert s i = some r → (s.alert r).target i = some t → t.cut = false) :
    playingOwner s i = some (.entry e.num) := by
  unfold playingOwner
  rw [he]
  cases hr : holdingAlert s i with
  | none => rfl
  | some r =>
    cases ht : (s.alert r).target i with
    | none => simp only [ht]; rfl
    | some t => simp only [ht, ha r t hr ht]; rfl

theorem playingOwner_alert {r : Nat} {t : Target} (hr : holdingAlert s i = some r) (ht : (s.alert r).target i = some t)
    (hc : t.cut = true) : playingOwner s i = some (.alert r) := by
  simp [playingOwner, hr, ht, hc]

theorem activeEntry_svc {e : Entry} (he : activeEntry s i = some e) : e.svc = i :=
  ((mem_entriesOf s i e).1 (List.mem_of_find?_eq_some he)).2

theorem AlertRec.target_modTarget (a : AlertRec) {f : Target → Target} (hf : ∀ t, (f t).svc = t.svc) :
    (a.modTarget i f).target i = (a.target i).map f := by
  unfold AlertRec.modTarget AlertRec.target
  induction a.targets with
  | nil => rfl
  | cons t l ih =>
    by_cases h : t.svc = i
    · simp [h, hf]
    · simpa [h, hf] using ih

/-- A fixed E is handed, and resumes the lead component by the same packet (R97). -/
theorem exec_fixes {k : Fin 4} {v : State} {y seek : Nat} {timer : Option Nat} (h : s.arrives k i j b)
    (hl : leadIdx (s.svc i).defComps = some j) (hpts : seenPts b = some y) (hfix : ((s.observed k i j b).sp i).fixE = true)
    (hb : ((s.observed k i j b).sp i).retBegun = false) (hc : ((s.observed k i j b).sp i).comps[j]? = some c) (hr : c.replaced = true)
    (hroom : (s.lane k.val).fifo.length < 16384) (hv : fixReturn (s.observed k i j b) i y = v)
    (hlane : v.lanes = (s.observed k i j b).lanes) (hsp : v.sp i = ((s.observed k i j b).sp i).handed y timer seek) :
    ∃ u, exec (.packetArrival k b) s = .next (rest u) ∧ Resumes v u k.val i j b c := by
  have hdc : leadIdx ((s.observed k i j b).svc i).defComps = some j := by rw [observed_defComps]; exact hl
  have hvc : (v.sp i).comps[j]? = some c := by rw [hsp]; exact hc
  have hres : resumes (v.sp i) (some y) = true :=
    resumes_iff.2 (.inr (.inl ⟨y, y, by rw [hsp]; rfl, rfl, atOrAfter_self _ _ (by decide)⟩))
  have hvf : (v.sp i).fixE = false := by rw [hsp]; rfl
  have hvl : (v.lane k.val).fifo.length < 16384 := by
    rw [State.lane, hlane]
    exact (congrArg (fun l => l.fifo.length) (observed_lane k)).trans_lt hroom
  have hvb : (v.sp i).retBegun = false := by rw [hsp]; exact hb
  refine ⟨_, exec_arrives_passed (u := v.resumed i j) h ?_, resumes_enter hvc hvl⟩
  rw [hpts, decide_fixed hdc hfix (by rw [hv]; exact hvf), hv, decide_unfixed (fun _ hf => by rw [hvf] at hf; cases hf) hvc,
    judged_resume hr hres]
  rfl

/-- Settles O20: the resume under a return that is due, the drop where nothing takes the packet, the fixing of E. -/
theorem replacedComponentResumes : Obligations.ReplacedComponentResumes := by
  intro s k i j b c h s1 p pts due hc hr
  have hlane : s1.lane k.val = (s.lane k.val).seen s.localCount := observed_lane k
  have hcount : s1.localCount = s.localCount := observed_localCount k
  have hdue : resumes p pts = true ↔ due := resumes_iff
  refine ⟨fun hf hd hroom => ?_, fun hf hd hsearch hn => ?_, fun y hl hf hb hne hpts hroom => ?_⟩
  · have hdec : decide_ s1 i j (seenPts b) = (s1.resumed i j, true) :=
      (decide_unfixed (fun _ hfix => by rw [hf] at hfix; cases hfix) hc).trans (judged_resume hr (hdue.2 hd))
    have hres := resumes_enter (b := b) (k := k.val) hc (by rw [hlane]; exact hroom)
    have hl := hres.lane
    rw [hlane, hcount] at hl
    exact ⟨_, exec_arrives_passed h hdec, hres.comp, hres.comps, hres.begun, hres.ret, by rw [hl]; rfl, by rw [hl]; rfl, hres.frame,
      hres.others, hres.cond⟩
  · have hpass := judged_pass (s := s1) (i := i) (j := j) (pts := seenPts b) (c := c) (fun _ => Bool.eq_false_iff.2 (fun hx => hd (hdue.1 hx)))
      (fun _ => networkCutOf_none (fun n h1 h2 h3 => ?_)) (componentCutOf_none (.inr hsearch))
    · refine exec_arrives_held h ((decide_unfixed (fun _ hfix => by rw [hf] at hfix; cases hfix) hc).trans (hpass.trans ?_))
      rw [hr]
      rfl
    · have hcur := hn n h1 h2
      rw [searchMode, hcur] at h3
      split at h3 <;> cases h3
  · intro resumed
    have hfixed {v : State} {timer : Option Nat} {seek : Nat} (hv : fixReturn s1 i y = v) (hlv : v.lanes = s1.lanes) (hcv : v.localCount = s1.localCount)
        (hsp : v.sp i = p.handed y timer seek) : ∃ u, resumed u ∧ u.entries = v.entries ∧ u.alerts = v.alerts := by
      obtain ⟨u, hx, hres⟩ := exec_fixes h hl hpts hf hb hc hr hroom hv hlv hsp
      have hvlane : v.lane k.val = (s.lane k.val).seen s.localCount :=
        (congrArg (fun l => Table.get Lane.reset l k.val) hlv).trans hlane
      have hul := hres.lane
      have hcomp := hres.comp
      rw [hsp, show (p.handed y timer seek).retBegun = false from hb] at hcomp
      rw [hvlane, hcv, hcount] at hul
      refine ⟨u, ⟨hx, by rw [hres.ret, hsp]; rfl, hres.begun, hres.fixed (.inl (by rw [hsp]; rfl)), hcomp, by rw [hul]; rfl⟩, ?_, ?_⟩
      · rw [hres.frame]
      · rw [hres.frame]
    refine ⟨fun e he hen ha => ?_, fun r t hrec ht hcut => ?_⟩
    · have hv : fixReturn s1 i y = (s1.setEntry e.num (some { e with e := some y })).modSp i
          (fun q => q.handed y (openTimer (s1.setEntry e.num (some { e with e := some y })) i) (s1.cfgOf i).seekLimit) := by
        rw [fixReturn, playingOwner_entry he ha]
        dsimp only
        rw [setE, hen]
        dsimp only
        rw [activeEntry_svc he, handE_of_open (s := s1.setEntry e.num _) hb hne]
        rfl
      obtain ⟨u, hu, hen', hal⟩ := hfixed hv rfl rfl ((State.sp_modSp _ _ _ _).trans (if_pos rfl))
      have hent (m : Nat) : u.entry m = (s1.setEntry e.num (some { e with e := some y })).entry m :=
        (congrArg (fun t => Table.get none t m) hen').trans (State.modSp_entry _ _ _ _)
      refine ⟨u, hu, ?_, fun m hm => ?_, hal⟩
      · rw [hent, State.entry_setEntry, if_pos rfl]
      · rw [hent, State.entry_setEntry, if_neg hm]
    · have hv : fixReturn s1 i y = (s1.modAlert r (fun a => a.modTarget i (fun t => { t with e := some y }))).modSp i
          (fun q => q.handed y (openTimer (s1.modAlert r (fun a => a.modTarget i (fun t => { t with e := some y }))) i)
            (s1.cfgOf i).seekLimit) := by
        rw [fixReturn, playingOwner_alert hrec ht hcut]
        dsimp only
        rw [alertE, handE_of_open (s := s1.modAlert r _) hb hne]
        rfl
      obtain ⟨u, hu, hen', hal⟩ := hfixed hv rfl rfl ((State.sp_modSp _ _ _ _).trans (if_pos rfl))
      have halert (m : Nat) : u.alert m = (s1.modAlert r (fun a => a.modTarget i (fun t => { t with e := some y }))).alert m :=
        (congrArg (fun t => Table.get AlertRec.idle t m) hal).trans (State.modSp_alert _ _ _ _)
      refine ⟨u, hu, ?_, fun q hq => ?_, hen'⟩
      · rw [halert, State.modAlert, State.alert_setAlert, if_pos rfl, AlertRec.target_modTarget, ht]
        · rfl
        · exact fun _ => rfl
      · rw [halert, State.modAlert, State.alert_setAlert, if_neg hq]

end Sys2Proof.Machine
end

section
/-! What the report of a cut leaves of the splice record (R64, R69, R79, R94, R100): the components, the search and a PLAYING
current `Inst`. -/

namespace Sys2Proof.Machine

/-- `q` has the components and the search that `p` has, its pacing offset, and its current `Inst` if that is PLAYING. -/
structure SpliceRec.CutKept (p q : SpliceRec) : Prop where
  comps : q.comps = p.comps
  cutX : q.cutX = p.cutX
  cutSeek : q.cutSeek = p.cutSeek
  cutOverdue : q.cutOverdue = p.cutOverdue
  sigmaP : q.sigmaP = p.sigmaP
  cur : ∀ n, p.cur = some n → n.phase = .playing → q.cur = some n

theorem SpliceRec.CutKept.refl (p : SpliceRec) : p.CutKept p := ⟨rfl, rfl, rfl, rfl, rfl, fun _ h _ => h⟩

theorem SpliceRec.CutKept.trans {p q r : SpliceRec} (h : p.CutKept q) (k : q.CutKept r) : p.CutKept r where
  comps := k.comps.trans h.comps
  cutX := k.cutX.trans h.cutX
  cutSeek := k.cutSeek.trans h.cutSeek
  cutOverdue := k.cutOverdue.trans h.cutOverdue
  sigmaP := k.sigmaP.trans h.sigmaP
  cur n hn hp := k.cur n (h.cur n hn hp) hp

/-- Service `i` keeps what a cut has fixed. -/
def CutKept (i : Nat) (s t : State) : Prop := (s.sp i).CutKept (t.sp i)

namespace CutKept
variable {s t u : State} {i : Nat}

theorem refl (s : State) : CutKept i s s := SpliceRec.CutKept.refl _
theorem trans (h : CutKept i s t) (k : CutKept i t u) : CutKept i s u := SpliceRec.CutKept.trans h k
theorem of_sp (h : CutKept i s t) (hs : u.sp i = t.sp i) : CutKept i s u := by
  unfold CutKept
  rw [hs]
  exact h

theorem modSp (h : CutKept i s t) (x : Nat) {f : SpliceRec → SpliceRec} (hf : ∀ p : SpliceRec, p.CutKept (f p)) :
    CutKept i s (t.modSp x f) := by
  refine h.trans ?_
  unfold CutKept
  rw [State.sp_modSp]
  split
  · next hx => rw [hx]; exact hf _
  · exact SpliceRec.CutKept.refl _

theorem setEntry (h : CutKept i s t) (n : Nat) (e : Option Entry) : CutKept i s (t.setEntry n e) := h.of_sp rfl
theorem modAlert (h : CutKept i s t) (r : Nat) (f : AlertRec → AlertRec) : CutKept i s (t.modAlert r f) := h.of_sp rfl
theorem raiseIf (h : CutKept i s t) (b : Bool) (x : Nat) (c : Cond) : CutKept i s (raiseIf b t x c) := h.of_sp (raiseIf_sp _ _ _ _)

theorem discardNext (h : CutKept i s t) (x : Nat) : CutKept i s (discardRole t x .next) := by
  refine h.trans ?_
  unfold CutKept
  rw [State.sp, State.sp, discardRole_svc]
  split
  · next hx => rw [hx]; exact ⟨rfl, rfl, rfl, rfl, rfl, fun _ h _ => h⟩
  · exact SpliceRec.CutKept.refl _

theorem discardSeeking (h : CutKept i s t) (x : Nat) (o : Owner) : CutKept i s (discardSeeking t x o) := by
  unfold Machine.discardSeeking
  extract_lets s1
  refine CutKept.modSp ?_ x (fun p => ⟨rfl, rfl, rfl, rfl, rfl, fun _ h _ => h⟩)
  dsimp only [s1]
  split
  · split
    · exact h.discardNext x
    · exact h
  · exact h

theorem placeInst (h : CutKept i s t) (x : Nat) (q : InstReq) : CutKept i s (placeInst t x q) := by
  unfold Machine.placeInst
  split
  · exact h
  · split
    · exact h
    · refine CutKept.raiseIf (h.modSp x (fun p => ?_)) _ _ _
      exact ⟨rfl, rfl, rfl, rfl, rfl, fun _ h _ => h⟩

theorem requestNext (h : CutKept i s t) (x : Nat) (q : InstReq) : CutKept i s (requestNext t x q) := by
  unfold Machine.requestNext
  split
  · exact h.placeInst x q
  · split
    · exact (h.discardNext x).placeInst x q
    · refine h.modSp x (fun p => ?_)
      exact ⟨rfl, rfl, rfl, rfl, rfl, fun _ h _ => h⟩

theorem handE (h : CutKept i s t) (x e : Nat) : CutKept i s (handE t x e) := by
  unfold Machine.handE
  split
  · exact h
  · refine h.modSp x (fun p => ?_)
    exact ⟨rfl, rfl, rfl, rfl, rfl, fun _ h _ => h⟩

theorem setE (h : CutKept i s t) (n e : Nat) : CutKept i s (setE t n e) := by
  unfold Machine.setE
  split
  · exact (h.setEntry _ _).handE _ _
  · exact h

theorem clearReturn (h : CutKept i s t) (x : Nat) : CutKept i s (t.modSp x SpliceRec.clearReturn) :=
  h.modSp x (fun _ => ⟨rfl, rfl, rfl, rfl, rfl, fun _ h _ => h⟩)

theorem disown (h : CutKept i s t) (x : Nat) : CutKept i s (t.modSp x SpliceRec.disown) := by
  refine h.modSp x (fun p => ⟨rfl, rfl, rfl, rfl, rfl, fun n hn hp => ?_⟩)
  rw [SpliceRec.disown, hn, Option.map_some, if_neg (by rw [hp]; exact fun h => by cases h)]

theorem endEntry (h : CutKept i s t) (e : Entry) (r : EntryResult) : CutKept i s (endEntry t e r) := by
  unfold Machine.endEntry
  extract_lets s1 s2
  have h1 : CutKept i s s1 := by
    dsimp only [s1]
    split
    · exact h.discardSeeking _ _
    · exact h
  have h2 : CutKept i s s2 := h1.of_sp rfl
  refine CutKept.setEntry (h2.of_sp ?_) _ _
  rw [foldl_dropRef_frame]
  rfl

theorem demote (h : CutKept i s t) (e : Entry) : CutKept i s (demote t e) := (h.discardSeeking _ _).setEntry _ _

theorem armRun (h : CutKept i s t) (n : Nat) : CutKept i s (armRun t n).1 := by
  unfold Machine.armRun
  split
  · exact h
  · extract_lets svc a e lower lowerRate k rate s1
    have h1 : CutKept i s s1 := by
      dsimp only [s1]
      clear_value lower
      split
      · exact h.demote _
      · exact h
    split
    · exact h.endEntry _ _
    · split
      · exact h.setEntry _ _
      · split
        · exact h.endEntry _ _
        · split
          · exact h.setEntry _ _
          · split
            · exact h.setEntry _ _
            · exact ((h1.setEntry _ _).requestNext _ _).raiseIf _ _ _

theorem arbiterPass (h : CutKept i s t) (l : List Nat) (d : Bool) : CutKept i s (arbiterPass l t d).1 := by
  induction l generalizing t d with
  | nil => exact h
  | cons n r ih =>
    unfold Machine.arbiterPass
    split
    · dsimp only
      split
      · exact h.armRun n
      · exact ih (h.armRun n) _
    · exact ih h _

theorem arbiterLoop (h : CutKept i s t) (f k : Nat) : CutKept i s (arbiterLoop f t k) := by
  induction f generalizing t with
  | zero => exact h
  | succ f ih =>
    unfold Machine.arbiterLoop
    dsimp only
    split
    · exact ih (h.arbiterPass _ _)
    · exact h.arbiterPass _ _

theorem poolFreed (h : CutKept i s t) (k : Nat) : CutKept i s (poolFreed t k) := h.arbiterLoop _ _

theorem activate (h : CutKept i s t) (n sEff delta : Nat) (v : Seal) : CutKept i s (activate t n sEff delta v) := by
  unfold Machine.activate
  split
  · exact h
  · extract_lets svc one lower s1 s2 s3 s4
    have h1 : CutKept i s s1 := by
      dsimp only [s1]
      clear_value lower
      split
      · exact (h.endEntry _ _).disown _
      · exact h
    have h3 : CutKept i s s3 := (h1.clearReturn _).setEntry _ _
    have h4 : CutKept i s s4 := by
      dsimp only [s4]
      split
      · exact h3.setE _ _
      · split
        · exact h3.setE _ _
        · exact h3
      · split
        · split
          · exact h3.setE _ _
          · exact h3
        · exact h3
    split
    · exact h4.poolFreed _
    · exact h4

theorem podAdvance (h : CutKept i s t) (n delta : Nat) (v : Seal) : CutKept i s (podAdvance t n delta v) := by
  unfold Machine.podAdvance
  split
  · exact h
  · dsimp only
    split
    · exact (h.setEntry _ _).setE _ _
    · exact h.setEntry _ _

theorem alertCut (h : CutKept i s t) (r x : Nat) : CutKept i s (alertCut t r x) := by
  unfold Machine.alertCut
  split
  · split
    · exact h
    · dsimp only
      split
      · exact ((((h.modAlert _ _).clearReturn _).endEntry _ _).disown _).poolFreed _
      · exact (h.modAlert _ _).clearReturn _
  · exact h

theorem reportCut (h : CutKept i s t) (x : Nat) (o : Owner) (sEff delta : Nat) (v : Seal) : CutKept i s (reportCut t x o sEff delta v) := by
  cases o with
  | entry n =>
    unfold Machine.reportCut
    dsimp only
    split
    · split
      · exact h.podAdvance _ _ _
      · exact h.activate _ _ _ _
    · exact h
  | alert r => exact h.alertCut r x
  | ended => exact h

end CutKept

end Sys2Proof.Machine
end

section
/-! A network packet takes the cut to the clip (R16, R69, R70, R79 to R82, R90). -/

namespace Sys2Proof.Machine

variable {s : State} {i j : Nat}

/-! ### The hand-over of a PID (R16) -/

theorem handOverComp_eq {k : Nat} {x : Comp} (hl : s.laneOf i = some k) (hx : (s.svc i).defComps[j]? = some x) :
    handOverComp s i j = s.setLane k ((s.lane k).handOver x.pid i) := by
  simp [handOverComp, hl, hx]

theorem compIndex_spec {v : Service} {pid : Nat} (h : compIndex v pid = some j) : ∃ x, v.defComps[j]? = some x ∧ x.pid = pid := by
  obtain ⟨x, -, hx, hp⟩ := firstIdx_spec h
  exact ⟨x, hx, beq_iff_eq.1 hp⟩

theorem Lane.handOver_pid (l : Lane) (pid svc : Nat) : (l.handOver pid svc).pid pid =
    { l.pid pid with owner := .clip svc, tail := l.fifoCount pid, prevIn := none } := by
  rw [handOver, Lane.pid_setPid, if_pos rfl]

/-! ### The state that a network cut reports (R79, R80, R90) -/

/-- The `Inst` that plays from its cut on. -/
def Inst.cutIn (n : Inst) (sEff w : Nat) : Inst :=
  { n with phase := .playing, sEff := some sEff, delta := some (cutDelta sEff n.sealVals), w := some w, seekTimer := none, overdue := false }

/-- The splice record after the cut at component `c`: the search of the other network components is open. -/
def SpliceRec.cutIn (p : SpliceRec) (c : Nat) (n : Inst) (sEff w pace : Nat) (timer : Option Nat) : SpliceRec :=
  { ({ p with nxt := some (n.cutIn sEff w) }).toCurrent with
    comps := p.comps.mapIdx (fun j x => if j = c then x.cut else if x.replaced then x else { x with search := true, handedBack := false })
    cutX := some sEff, cutSeek := n.seekLimit, cutTimer := timer, cutOverdue := false
    sigmaP := some (p.sigmaP.getD pace) }

/-- W of a cut now (R90). -/
def State.cutMoment (s : State) (i : Nat) : Nat := addMod nClk s.localCount (msTicks (s.cfgOf i).delay)

/-- The pacing offset that a cut fixes where none is (R90). -/
def State.cutPace (s : State) (i : Nat) (n : Inst) (sEff : Nat) : Nat :=
  if (s.svc i).clk.st = .unlocked then
    subMod nClk (addMod nClk n.sealVals.pcr0 (300 * cutDelta sEff n.sealVals) + msTicks (s.cfgOf i).delay) (s.cutMoment i)
  else (s.svc i).clk.sigma

/-- The state at the report of a network cut. -/
def State.networkTaken (s : State) (i c : Nat) (n : Inst) (sEff : Nat) : State :=
  handOverComp ((s.modSp i (fun p => p.cutIn c n sEff (s.cutMoment i) (s.cutPace i n sEff) (openTimer s i))).modFlash
    (fun f => f.toCurrent i)) i c

theorem networkCut_eq (c : Nat) (n : Inst) (sEff : Nat) : networkCut s i c n sEff =
    reportCut (s.networkTaken i c n sEff) i n.owner sEff (cutDelta sEff n.sealVals) n.sealVals := rfl

section Taken
variable {k : Nat} {x : Comp} {n : Inst} {sEff : Nat} (hl : s.laneOf i = some k) (hx : (s.svc i).defComps[j]? = some x)
include hl hx

theorem networkTaken_eq : s.networkTaken i j n sEff =
    ((s.modSp i (fun p => p.cutIn j n sEff (s.cutMoment i) (s.cutPace i n sEff) (openTimer s i))).modFlash
      (fun f => f.toCurrent i)).setLane k ((s.lane k).handOver x.pid i) := by
  have hk : Kept s (s.modSp i (fun p => p.cutIn j n sEff (s.cutMoment i) (s.cutPace i n sEff) (openTimer s i))) := (Kept.refl s).modSp _ _
  refine handOverComp_eq ((hk.laneOf i).trans hl) ?_
  exact (congrArg (fun l : List Comp => l[j]?) (hk.defComps i)).trans hx

theorem networkTaken_sp : (s.networkTaken i j n sEff).sp i =
    (s.sp i).cutIn j n sEff (s.cutMoment i) (s.cutPace i n sEff) (openTimer s i) := by
  rw [networkTaken_eq hl hx, State.sp, State.setLane_svc, State.modFlash_svc, ← State.sp, State.sp_modSp, if_pos rfl]

theorem networkTaken_lane : (s.networkTaken i j n sEff).lane k = (s.lane k).handOver x.pid i := by
  rw [networkTaken_eq hl hx, State.lane_setLane_self]

theorem networkTaken_entries : (s.networkTaken i j n sEff).entries = s.entries := by
  rw [networkTaken_eq hl hx]
  rfl

theorem networkTaken_cond : ((s.networkTaken i j n sEff).svc i).cond = (s.svc i).cond := by
  rw [networkTaken_eq hl hx, State.setLane_svc, State.modFlash_svc, State.modSp, State.svc_modSvc, if_pos rfl]

end Taken

/-! ### The activation of an ARMED entry (R69, R70) -/

/-- The return point that the activation fixes, `fin` being the rebased end of the pod's only clip. -/
def Entry.returnPoint (e : Entry) (sEff fin : Nat) : Option Nat :=
  match e.retMode with
  | .duration x => some (addMod nPts sEff x)
  | .clipEnd => if e.pod.length = 1 then some fin else none
  | .cue => e.binding.bind (fun y => if y.auto then y.duration.map (fun x => addMod nPts (y.splice.getD sEff) x) else none)

/-- The entry as its first cut makes it ACTIVE, before E is fixed. -/
def Entry.activated (e : Entry) (sEff fin : Nat) : Entry :=
  { e with st := .active, sEff := some sEff, podIdx := 0, xEnd := if e.pod.length = 1 then some fin else none }

theorem activate_eq {m : Nat} {e : Entry} {sEff delta : Nat} {v : Seal} (he : s.entry m = some e) (hn : activeEntry s e.svc = none) :
    activate s m sEff delta v =
      let t := (s.modSp e.svc SpliceRec.clearReturn).setEntry m (some (e.activated sEff (endOf v delta)))
      (e.returnPoint sEff (endOf v delta)).elim t (setE t m) := by
  unfold activate Entry.returnPoint Entry.activated
  rw [he]
  dsimp only
  rw [hn]
  cases hm : e.retMode with
  | duration x => simp
  | clipEnd => by_cases ho : e.pod.length = 1 <;> simp [ho]
  | cue =>
    cases hb : e.binding with
    | none => simp
    | some b => cases hd : b.duration <;> cases ha : b.auto <;> simp [hd, ha]

end Sys2Proof.Machine
end

section
/-! O19: the packet that takes the cut, at its point or by force, and one that does not. -/

namespace Sys2Proof.Machine

variable {s : State} {i j : Nat} {b : Pkt}

theorem activate_alone {m : Nat} {e : Entry} {sEff delta : Nat} {v : Seal} (he : s.entry m = some e) (hi : e.svc = i)
    (hn : activeEntry s i = none) :
    (activate s m sEff delta v).entry m =
        some { e.activated sEff (endOf v delta) with e := (e.returnPoint sEff (endOf v delta)).or e.e }
      ∧ ((activate s m sEff delta v).sp i).ret = (e.returnPoint sEff (endOf v delta)).elim .idle .returning := by
  subst hi
  rw [activate_eq he hn]
  extract_lets t
  have hte : t.entry m = some (e.activated sEff (endOf v delta)) := State.entry_setEntry_self _ _ _
  have htp : t.sp e.svc = (s.sp e.svc).clearReturn := (State.sp_modSp s _ _ _).trans (if_pos rfl)
  cases e.returnPoint sEff (endOf v delta) with
  | none => exact ⟨hte, by rw [Option.elim_none, htp]; rfl⟩
  | some x =>
    have hset : setE t m x = (t.setEntry m (some { e.activated sEff (endOf v delta) with e := some x })).modSp e.svc
        (fun p => p.handed x (openTimer (t.setEntry m (some { e.activated sEff (endOf v delta) with e := some x })) e.svc)
          (t.cfgOf e.svc).seekLimit) := by
      rw [setE, hte]
      refine handE_of_open (s := t.setEntry m _) ?_ ?_ x
      · exact (congrArg SpliceRec.retBegun htp).trans rfl
      · exact fun hr => by cases ((congrArg SpliceRec.ret htp).symm.trans hr)
    rw [Option.elim_some, Option.elim_some, hset]
    exact ⟨(State.modSp_entry _ _ _ _).trans (State.entry_setEntry_self _ _ _), by rw [State.sp_modSp, if_pos rfl]; rfl⟩

theorem activeEntry_congr {t : State} (h : t.entries = s.entries) : activeEntry t i = activeEntry s i := by
  simp only [activeEntry, entriesOf, State.schedule, h]

@[simp] theorem raiseIf_entries (f : Bool) (x : Nat) (c : Cond) : (raiseIf f s x c).entries = s.entries := by
  cases f
  · rfl
  · exact raise_entries _ _ _

/-- `u` has taken the network cut of `n` at component `j` (R79 to R81, R90), from `s` as the packet was observed. -/
structure NetworkCut (s u : State) (k i j : Nat) (x : Comp) (n : Inst) (sEff : Nat) (forced : Bool) : Prop where
  lane : u.lane k = (s.lane k).handOver x.pid i
  kept : ((s.sp i).cutIn j n sEff (s.cutMoment i) (s.cutPace i n sEff) (openTimer s i)).CutKept (u.sp i)
  forced : forced = true → (u.svc i).cond.flags.getLsbD Cond.forced.pos = true
  active : ∀ m e, n.owner = .entry m → s.entry m = some e → e.svc = i → e.st = .armed → activeEntry s i = none →
    let fin := endOf n.sealVals (cutDelta sEff n.sealVals)
    u.entry m = some { e.activated sEff fin with e := (e.returnPoint sEff fin).or e.e }
    ∧ (u.sp i).ret = (e.returnPoint sEff fin).elim .idle .returning

theorem networkCut_spec {k : Nat} {x : Comp} (n : Inst) (sEff : Nat) (forced : Bool) (hl : s.laneOf i = some k)
    (hx : (s.svc i).defComps[j]? = some x) :
    NetworkCut s (networkCut (raiseIf forced s i .forced) i j n sEff) k i j x n sEff forced := by
  have hk : Kept s (raiseIf forced s i .forced) := (Kept.refl s).raiseIf _ _ _
  have hl' := (hk.laneOf i).trans hl
  have hx' : ((raiseIf forced s i .forced).svc i).defComps[j]? = some x :=
    (congrArg (fun l : List Comp => l[j]?) (hk.defComps i)).trans hx
  have hsp : (raiseIf forced s i .forced).sp i = s.sp i := raiseIf_sp _ _ _ _
  have hrep := (Kept.refl ((raiseIf forced s i .forced).networkTaken i j n sEff)).reportCut i n.owner sEff
    (cutDelta sEff n.sealVals) n.sealVals
  have htaken := networkTaken_sp (n := n) (sEff := sEff) hl' hx'
  have hw : (raiseIf forced s i .forced).cutMoment i = s.cutMoment i := by simp only [State.cutMoment, hk.localCount, hk.cfgOf]
  have hpace : (raiseIf forced s i .forced).cutPace i n sEff = s.cutPace i n sEff := by
    simp only [State.cutPace, hk.cfgOf, hw, hk.clk]
  have htimer : openTimer (raiseIf forced s i .forced) i = openTimer s i := by
    rw [openTimer, hk.estimate, hk.localCount, openTimer]
  rw [hsp, hw, hpace, htimer] at htaken
  rw [networkCut_eq]
  refine ⟨?_, ?_, fun hf => ?_, fun m e ho he hi hst hn => ?_⟩
  · rw [hrep.lane, networkTaken_lane hl' hx', hk.lane]
  · have hkept := (CutKept.refl (i := i) ((raiseIf forced s i .forced).networkTaken i j n sEff)).reportCut i n.owner sEff
      (cutDelta sEff n.sealVals) n.sealVals
    unfold CutKept at hkept
    rw [htaken] at hkept
    exact hkept
  · refine hrep.flags i _ ?_
    rw [networkTaken_cond hl' hx', hf]
    exact raise_flag _ _ _
  · have hent := (networkTaken_entries (n := n) (sEff := sEff) hl' hx').trans (raiseIf_entries forced i .forced)
    have he' : ((raiseIf forced s i .forced).networkTaken i j n sEff).entry m = some e := by
      rw [State.entry, hent]
      exact he
    rw [ho]
    unfold reportCut
    dsimp only
    rw [he']
    dsimp only
    rw [if_neg (by rw [hst]; exact fun h => by cases h)]
    exact activate_alone he' hi ((activeEntry_congr hent).trans hn)

end Sys2Proof.Machine
end

section
/-! O19: network packets and the cut. -/

namespace Sys2Proof.Machine

variable {s : State} {i j : Nat} {b : Pkt} {c : CompState}

theorem searchMode_network {p : SpliceRec} (hc : p.cur = none) (hr : p.ret ≠ .emergency) (hb : p.retBegun = false) :
    searchMode p = .network := by
  simp [searchMode, hc, hr, hb]

/-- The splice record keeps what the cut has made of its own component and of the others (R80). -/
theorem SpliceRec.cutIn_comps (p : SpliceRec) (n : Inst) (sEff w pace : Nat) (timer : Option Nat) (m : Nat) :
    (p.cutIn j n sEff w pace timer).comps[m]? = (p.comps[m]?).map (fun x =>
      if m = j then x.cut else if x.replaced then x else { x with search := true, handedBack := false }) :=
  List.getElem?_mapIdx ..

/-- The cut of another component (R80, R82): its PID goes to the clip, and nothing else of the record changes. -/
theorem componentCut_spec {k : Nat} {x : Comp} (forced : Bool) (hl : s.laneOf i = some k) (hx : (s.svc i).defComps[j]? = some x) :
    let u := componentCut (raiseIf forced s i .forced) i j
    u.lane k = (s.lane k).handOver x.pid i
    ∧ u = { s with lanes := u.lanes, services := u.services, boxes := u.boxes }
    ∧ (∀ m, (u.sp i).comps[m]? = ((s.sp i).comps[m]?).map (fun y => if j = m then y.cut else y))
    ∧ (u.svc i).cond.flags = (s.svc i).cond.flags ||| (if forced then condBit .forced else 0#10) := by
  have hk : Kept s (raiseIf forced s i .forced) := (Kept.refl s).raiseIf _ _ _
  have hk' := hk.modSp i (fun p => { p with comps := p.comps.modify j CompState.cut })
  have hu : componentCut (raiseIf forced s i .forced) i j = _ :=
    handOverComp_eq ((hk'.laneOf i).trans hl) ((congrArg (fun l : List Comp => l[j]?) (hk'.defComps i)).trans hx)
  intro u
  have hframe : raiseIf forced s i .forced = { s with
      services := (raiseIf forced s i .forced).services, boxes := (raiseIf forced s i .forced).boxes } := by
    cases forced
    · rfl
    · exact raise_frame _ _ _
  have hflags : ((raiseIf forced s i .forced).svc i).cond.flags =
      (s.svc i).cond.flags ||| (if forced then condBit .forced else 0#10) := by
    cases forced
    · simp [raiseIf]
    · rw [raiseIf, if_pos rfl, raise_svc, if_pos rfl, if_pos rfl]
  refine ⟨?_, ?_, fun m => ?_, ?_⟩
  · rw [show u = _ from hu, State.lane_setLane_self, hk'.lane]
  · rw [show u = _ from hu]
    generalize raiseIf forced s i .forced = v at hframe
    rw [hframe]
    rfl
  · rw [show u = _ from hu, State.sp, State.setLane_svc, ← State.sp, State.sp_modSp, if_pos rfl, raiseIf_sp]
    exact List.getElem?_modify _ _ _ _
  · rw [show u = _ from hu, State.setLane_svc, State.modSp, State.svc_modSvc, if_pos rfl]
    exact hflags

/-- A packet that goes on carries the mark that its component owes, and leaves the instances and the plans. -/
theorem enterComponent_network {k : Nat} (hroom : (s.lane k).fifo.length < 16384) (hc : (s.sp i).comps[j]? = some c) :
    ((enterComponent s k i j b).lane k).fifo = (s.lane k).fifo ++ [{ pkt := b, stamp := s.localCount, resume := c.mark }]
    ∧ ((enterComponent s k i j b).sp i).nxt = (s.sp i).nxt ∧ (enterComponent s k i j b).entries = s.entries := by
  have ho : markOwed s i j = c.mark := by simp only [markOwed, hc]
  unfold enterComponent
  dsimp only
  rw [ho, enterFifo_of_room hroom]
  split
  · refine ⟨?_, ?_, rfl⟩
    · rw [State.modSp_lane, State.lane_setLane_self]
    · rw [State.sp_modSp, if_pos rfl]
      rfl
  · refine ⟨?_, rfl, rfl⟩
    rw [State.lane_setLane_self]

/-- Settles O19: the cut at the point or by force, the packet before it, and the cut of another component. -/
theorem networkPacketCutsToClip : Obligations.NetworkPacketCutsToClip := by
  intro s k i j b c h s1 p delay pts handed hc hr
  obtain ⟨x, hx, hpid⟩ := compIndex_spec h.component
  have hl : s.laneOf i = some k.val := laneOf_of_serviceOfPid h.service
  have hlane : s1.lane k.val = (s.lane k.val).seen s.localCount := observed_lane k
  have hl1 : s1.laneOf i = some k.val := by rw [State.laneOf, observed_defn]; exact hl
  have hx1 : (s1.svc i).defComps[j]? = some x := by rw [observed_defComps]; exact hx
  have hcfg : s1.cfgOf i = (s.lane k.val).cfg := by rw [State.cfgOf_of_laneOf hl1, hlane]; rfl
  have hhanded {u : State} (hul : u.lane k.val = (s1.lane k.val).handOver x.pid i)
      (huc : (u.sp i).comps[j]? = some c.cut) : handed u := by
    rw [hlane, hpid] at hul
    exact ⟨by rw [hul]; rfl, by rw [hul, Lane.handOver_pid]; rfl, huc⟩
  refine ⟨fun n hlead hfix hn hph hcur hret hbeg => ?_, fun xc hlead hsearch hcut hdue => ?_⟩
  · intro v late cutAt
    have hlead1 : leadIdx (s1.svc i).defComps = some j := by rw [observed_defComps]; exact hlead
    have hmode := searchMode_network hcur hret hbeg
    have hunfixed : s1.nothingToFix i j (seenPts b) := fun _ hf => by rw [hfix] at hf; cases hf
    have hcuts {sEff : Nat} {forced : Bool} (hp : cutPoint n.overdue n pts = some (sEff, forced)) : cutAt sEff forced := by
      have hdec : decide_ s1 i j (seenPts b) = (networkCut (raiseIf forced s1 i .forced) i j n sEff, false) :=
        (decide_unfixed hunfixed hc).trans (judged_networkCut hr hlead1 (networkCutOf_some hn hph hmode hp))
      have hspec := networkCut_spec n sEff forced hl1 hx1
      have hcomps := hspec.kept.comps
      have hcomp (m : Nat) : ((networkCut (raiseIf forced s1 i .forced) i j n sEff).sp i).comps[m]? = _ :=
        (congrArg (fun l : List CompState => l[m]?) hcomps).trans (SpliceRec.cutIn_comps p n _ _ _ _ m)
      have hw : s1.cutMoment i = addMod nClk s.localCount delay := by rw [State.cutMoment, hcfg, observed_localCount]; rfl
      refine ⟨_, exec_arrives_held h hdec, hhanded hspec.lane ?_, ?_, ?_, hspec.kept.cutX, hspec.kept.cutSeek, hspec.kept.cutOverdue,
        fun m y hm hy => ?_, hspec.forced, fun m e ho he _ hi hst hact => ?_⟩
      · rw [hcomp, hc, Option.map_some, if_pos rfl]
      · refine (hspec.kept.cur _ rfl rfl).trans ?_
        rw [hw]
        rfl
      · refine hspec.kept.sigmaP.trans ?_
        refine congrArg (fun q => some (p.sigmaP.getD q)) ?_
        rw [State.cutPace, hw, hcfg]
        rfl
      · rw [hcomp, hy, Option.map_some, if_neg hm]
      · intro fin point
        obtain ⟨hent, hretu⟩ := hspec.active m e ho he hi hst hact
        have hpoint : point = e.returnPoint sEff fin := by
          cases hm : e.retMode <;> simp only [point, Entry.returnPoint, hm]
        refine ⟨by rw [hent, hpoint]; rfl, ?_⟩
        rw [hretu, hpoint, show endOf n.sealVals (cutDelta sEff n.sealVals) = fin from rfl]
        cases e.returnPoint sEff fin <;> rfl
    refine ⟨fun y hs hlate => hcuts ?_, fun y z hs hlate hz hat => hcuts ?_, fun hs hlate => hcuts ?_, fun y hs hlate hy => hcuts ?_,
      fun y hs hlate hat hsearch hroom => ?_⟩
    · simp only [cutPoint, hs, show n.overdue = true from hlate, if_true]
    · simp [cutPoint, hs, show n.overdue = false from hlate, hz, ptsAt, hat]
    · simp only [cutPoint, hs, show n.overdue = true from hlate, if_true]
      rfl
    · simp [cutPoint, hs, show n.overdue = false from hlate, hy]
    · have hnone : cutPoint n.overdue n pts = none := by
        have hp : ptsAt pts y = false := by
          cases hz : pts with
          | none => rfl
          | some z => exact hat z hz
        simp [cutPoint, hs, show n.overdue = false from hlate, hp]
      have hpass := judged_pass (s := s1) (i := i) (j := j) (pts := pts) (c := c) (fun hx => by rw [hr] at hx; cases hx)
        (fun _ => networkCutOf_none (fun m hm _ _ => by rw [Option.some.inj (hm.symm.trans hn)]; exact hnone))
        (componentCutOf_none (.inr hsearch))
      have hdec : decide_ s1 i j (seenPts b) = (s1, true) := (decide_unfixed hunfixed hc).trans (hpass.trans (by rw [hr]; rfl))
      have hroom1 : (s1.lane k.val).fifo.length < 16384 := by rw [hlane]; exact hroom
      obtain ⟨hfifo, hnxt, hent⟩ := enterComponent_network (b := b) hroom1 hc
      refine ⟨_, exec_arrives_passed h hdec, ?_, hnxt.trans hn, hent⟩
      rw [hfifo, hlane, observed_localCount]
      rfl
  · have hn : leadIdx (s1.svc i).defComps = some j → networkCutOf s1 i pts = none := fun hx => by
      rw [observed_defComps] at hx
      exact absurd hx hlead
    have hcutOf : componentCutOf s1 i c pts = some p.cutOverdue := by
      rw [componentCutOf, show (s1.sp i).cutX = some xc from hcut]
      rcases hdue with ho | ⟨y, hy, hat⟩
      · simp [hsearch, show (s1.sp i).cutOverdue = true from ho, show p.cutOverdue = true from ho]
      · show _ = some (s1.sp i).cutOverdue
        cases (s1.sp i).cutOverdue <;> simp [hsearch, hy, ptsAt, hat]
    have hdec : decide_ s1 i j (seenPts b) = (componentCut (raiseIf p.cutOverdue s1 i .forced) i j, false) :=
      (decide_unfixed (fun hx _ => by rw [observed_defComps] at hx; exact absurd hx hlead) hc).trans (judged_componentCut hr hn hcutOf)
    obtain ⟨hul, hframe, hcomps, hflags⟩ := componentCut_spec p.cutOverdue hl1 hx1
    refine ⟨_, exec_arrives_held h hdec, hhanded hul ?_, hframe, fun m hm => ?_, hflags⟩
    · rw [hcomps, hc, Option.map_some, if_pos rfl]
    · rw [hcomps]
      cases (s1.sp i).comps[m]? with
      | none => rfl
      | some y => rw [Option.map_some, if_neg (Ne.symm hm)]

end Sys2Proof.Machine
end

section
/-! Differences on a circle of times, and the tick at which a service time or an estimate reaches a point (R20, R31, R32). -/

namespace Sys2Proof.Machine

/-! ### Signed differences (R32) -/

/-- A signed difference reads its operands' difference modulo n only. -/
theorem sdiff_congr {n a b c d : Nat} (h : ((a : Int) - b) ≡ c - d [ZMOD n]) : sdiff n a b = sdiff n c d := by
  simp only [sdiff, show ((a : Int) - b) % n = (c - d) % n from h]

theorem atOrAfter_congr {n a b c d : Nat} (h : ((a : Int) - b) ≡ c - d [ZMOD n]) : atOrAfter n a b = atOrAfter n c d := by
  simp only [atOrAfter, sdiff_congr h]

/-- A signed difference differs from the difference by whole turns. -/
theorem sdiff_modEq (n a b : Nat) : sdiff n a b ≡ (a : Int) - b [ZMOD n] := by
  have h : ((a : Int) - b) % n ≡ a - b [ZMOD n] := Int.mod_modEq _ _
  unfold sdiff
  dsimp only
  split
  · exact h
  · simpa using h.sub (Int.modEq_zero_iff_dvd.2 (dvd_refl (n : Int)))

/-- What lies less than half a turn ahead is its own signed difference. -/
theorem sdiff_of_ahead {n a b d : Nat} (hd : 2 * d < n) (h : (a : Int) ≡ b + d [ZMOD n]) : sdiff n a b = d := by
  have he : ((a : Int) - b) % n = d := by
    have : ((a : Int) - b) ≡ d [ZMOD n] := by simpa using h.sub_right (b : Int)
    rw [show ((a : Int) - b) % n = (d : Int) % n from this]
    exact Int.emod_eq_of_lt (by omega) (by omega)
  simp only [sdiff, he]
  omega

theorem atOrAfter_of_ahead {n a b d : Nat} (hd : 2 * d < n) (h : (a : Int) ≡ b + d [ZMOD n]) : atOrAfter n a b = true := by
  simp [atOrAfter, sdiff_of_ahead hd h]

/-- A point at or after another lies less than half a turn ahead of it. -/
theorem ahead_of_atOrAfter {n a b : Nat} (hn : 0 < n) (h : atOrAfter n a b = true) :
    ∃ d : Nat, 2 * d < n ∧ (a : Int) ≡ b + d [ZMOD n] := by
  have hd : 0 ≤ sdiff n a b := by simpa [atOrAfter] using h
  have hlt : 2 * sdiff n a b < n := by
    have := Int.emod_lt_of_pos ((a : Int) - b) (show (0 : Int) < n by omega)
    unfold sdiff
    dsimp only
    split <;> omega
  refine ⟨(sdiff n a b).toNat, by omega, ?_⟩
  rw [Int.toNat_of_nonneg hd]
  simpa using ((sdiff_modEq n a b).add_left (b : Int)).symm

/-! ### Modular sums and differences -/

theorem addMod_modEq (n a b : Nat) : (addMod n a b : Int) ≡ a + b [ZMOD n] := by
  rw [addMod, Int.natCast_mod, Nat.cast_add]
  exact Int.mod_modEq _ _

theorem subMod_modEq (n a b : Nat) (hn : 0 < n) : (subMod n a b : Int) ≡ a - b [ZMOD n] := by
  have hb : (b % n : Nat) ≤ n := (Nat.mod_lt b hn).le
  have h : ((n - b % n : Nat) : Int) ≡ -b [ZMOD n] := by
    rw [Nat.cast_sub hb, Int.natCast_mod, sub_eq_add_neg]
    simpa using (Int.modEq_zero_iff_dvd.2 (dvd_refl (n : Int))).add (Int.mod_modEq (b : Int) n).neg
  rw [subMod, Int.natCast_mod, Nat.cast_add, sub_eq_add_neg]
  exact (Int.mod_modEq _ _).trans (h.add_left _)

theorem subMod_lt (n a b : Nat) (hn : 0 < n) : subMod n a b < n := Nat.mod_lt _ hn

theorem addSigned_modEq (n a : Nat) (d : Int) (hn : 0 < n) : (addSigned n a d : Int) ≡ a + d [ZMOD n] := by
  rw [addSigned, Int.toNat_of_nonneg (Int.emod_nonneg _ (by omega))]
  exact Int.mod_modEq _ _

/-! ### Ticks of the service time (R23) -/

variable (s : State) (i : Nat)

/-- The service time is at or after a value as soon as the local count has reached that value's tick. -/
theorem atOrAfter_localOf (c : Nat) : atOrAfter nClk s.localCount (localOf s i c) =
    atOrAfter nClk (addMod nClk s.localCount (s.svc i).clk.sigma) c := by
  refine atOrAfter_congr ?_
  have h := ((addMod_modEq nClk s.localCount (s.svc i).clk.sigma).sub_right (c : Int)).symm
  refine ((subMod_modEq nClk c (s.svc i).clk.sigma (by decide)).sub_left _).trans (Int.ModEq.trans ?_ h)
  rw [show (s.localCount : Int) - (c - (s.svc i).clk.sigma) = s.localCount + (s.svc i).clk.sigma - c by ring]

/-- At a value's tick the service time has that value. -/
theorem addMod_localOf {c : Nat} (hc : c < nClk) : addMod nClk (localOf s i c) (s.svc i).clk.sigma = c := by
  have h : ((addMod nClk (localOf s i c) (s.svc i).clk.sigma : Nat) : Int) ≡ c [ZMOD nClk] := by
    refine (addMod_modEq _ _ _).trans ?_
    simpa [localOf] using (subMod_modEq nClk c (s.svc i).clk.sigma (by decide)).add_right ((s.svc i).clk.sigma : Int)
  exact Nat.ModEq.eq_of_lt_of_lt (Int.natCast_modEq_iff.1 h) (Nat.mod_lt _ (by decide)) hc

/-- Where a service time is at or after the one that 300 times a PTS spells, its 90 kHz part is at or after that PTS. -/
theorem div_ahead {c y : Nat} (h : atOrAfter nClk c (300 * y) = true) :
    ∃ d : Nat, 2 * d < nPts ∧ ((c / 300 : Nat) : Int) ≡ y + d [ZMOD nPts] := by
  obtain ⟨d, hd, hm⟩ := ahead_of_atOrAfter (by decide) h
  obtain ⟨q, hq⟩ := hm.symm.dvd
  simp only [nClk, nPts] at *
  refine ⟨d / 300, by omega, (Int.modEq_iff_dvd.2 ⟨q, ?_⟩ : (_ : Int) ≡ _ [ZMOD _]).symm⟩
  push_cast at hq ⊢
  omega

/-- Once the local count has reached a point's tick the estimate is present, and at or after the point (R31, R81). -/
theorem estimate_of_reached {t x : Nat} {u : State} (ht : estimateReaches s i x = some t) (hc : (u.svc i).clk = (s.svc i).clk)
    (hr : atOrAfter nClk u.localCount t = true) : ∃ e, estimate u i = some e ∧ atOrAfter nPts e x = true := by
  unfold estimateReaches serviceTime at ht
  by_cases hs : (s.svc i).clk.st = .unlocked
  · simp [hs] at ht
  cases hl : lead s i with
  | none => simp [hl] at ht
  | some l =>
    simp only [hs, if_false, hl, Option.some.injEq] at ht
    have hlu : lead u i = some l := by rw [lead, hc]; exact hl
    have hreach : atOrAfter nClk (addMod nClk u.localCount (u.svc i).clk.sigma) (300 * addSigned nPts x (-l)) = true := by
      rwa [← atOrAfter_localOf, localOf, hc, ← localOf, ht]
    obtain ⟨d, hd, hm⟩ := div_ahead hreach
    refine ⟨addSigned nPts (addMod nClk u.localCount (u.svc i).clk.sigma / 300) (l + 0), ?_, atOrAfter_of_ahead hd ?_⟩
    · simp [estimate, leadPoint, serviceTime, hc, hs, hlu]
    · refine (addSigned_modEq _ _ _ (by decide)).trans ((hm.add_right _).trans ?_)
      refine ((((addSigned_modEq nPts x (-l) (by decide)).add_right (d : Int)).add_right (l + 0)).trans ?_)
      rw [show (x : Int) + -l + d + (l + 0) = x + d by ring]

/-! ### Moving the local count (log 2) -/

variable {s}

/-- A tick that has been reached leaves the count. -/
theorem advanceTo_of_reached {x : Nat} (h : atOrAfter nClk s.localCount x = true) : advanceTo s x = s := by
  simp [advanceTo, h]

theorem advanceTo_of_ahead {x : Nat} (h : atOrAfter nClk s.localCount x = false) :
    advanceTo s x = { s with localCount := x % nClk } := by
  simp [advanceTo, h]

end Sys2Proof.Machine
end

section
/-! The moment of a state: a row of passing time that a tick takes when its moment has come moves neither the local count nor the
queue of commands (R19, log 1, log 2). -/

namespace Sys2Proof.Machine

/-- The local count and the commands that wait. -/
def State.moment (s : State) : Nat × List Instr := (s.localCount, s.pending)

variable (s : State)

theorem Kept.moment {s t : State} (h : Kept s t) : t.moment = s.moment := by simp [State.moment, h.localCount, h.pending]

/-! ### The operations that `Kept` does not cover -/

@[simp] theorem State.setLane_moment (k : Nat) (l : Lane) : (s.setLane k l).moment = s.moment := rfl
@[simp] theorem State.setLink_moment (p : PortId) (l : Link) : (s.setLink p l).moment = s.moment := rfl
@[simp] theorem State.modSp_moment (i : Nat) (f : SpliceRec → SpliceRec) : (s.modSp i f).moment = s.moment := rfl
@[simp] theorem State.modSvc_moment (i : Nat) (f : Service → Service) : (s.modSvc i f).moment = s.moment := rfl
@[simp] theorem State.setClip_moment (c : Nat) (r : Option ClipRec) : (s.setClip c r).moment = s.moment := rfl
@[simp] theorem State.dropRef_moment (c : Nat) : (s.dropRef c).moment = s.moment := rfl
@[simp] theorem State.setPreload_moment (j : Nat) (q : Preload) : (s.setPreload j q).moment = s.moment := rfl
@[simp] theorem State.setCheck_moment (p : PortId) (c : Option Check) : (s.setCheck p c).moment = s.moment := rfl
@[simp] theorem State.withFlash_moment (f : Flash) : (s.withFlash f).moment = s.moment := rfl
@[simp] theorem State.modFlash_moment (f : Flash → Flash) : (s.modFlash f).moment = s.moment := rfl
@[simp] theorem State.fresh_moment : s.fresh.2.moment = s.moment := rfl
@[simp] theorem State.push_moment (p : PortId) (e : Event) : (s.push p e).moment = s.moment := rfl
@[simp] theorem State.pushAll_moment (e : Event) : (s.pushAll e).moment = s.moment := by simp [State.pushAll]
@[simp] theorem raise_moment (i : Nat) (c : Cond) : (raise s i c).moment = s.moment := (Kept.raise (Kept.refl s) i c).moment
@[simp] theorem markDamaged_moment (c : Nat) : (markDamaged s c).moment = s.moment := (Kept.markDamaged (Kept.refl s) c).moment
@[simp] theorem rest_moment : (rest s).moment = s.moment := (Kept.rest (Kept.refl s)).moment
@[simp] theorem restAfter_moment (o : FlashOp) : (restAfter o s).moment = s.moment := (Kept.restAfter (Kept.refl s) o).moment

theorem foldl_moment {β : Type} {f : State → β → State} (hf : ∀ s b, (f s b).moment = s.moment) (l : List β) (s : State) :
    (l.foldl f s).moment = s.moment := by
  induction l generalizing s with
  | nil => rfl
  | cons b r ih => exact (ih _).trans (hf s b)

/-! ### The merger -/

theorem handBack_kept (k q : Nat) : Kept s (handBack s k q) := by
  unfold handBack
  split
  · exact Kept.refl s
  · split
    · exact Kept.refl s
    · dsimp only
      have hm := fun i f => Kept.modSp (Kept.refl s) i f
      split
      · split
        · exact (hm _ _).trans (dropHead_kept _)
        · exact hm _ _
      · exact hm _ _

theorem sendChoice_moment (k : Nat) (c : Choice) : (sendChoice s k c).moment = s.moment := by
  cases c with
  | network =>
    unfold sendChoice sendNetwork
    dsimp only
    split
    · rfl
    · split
      · exact (handBack_kept _ _ _).moment
      · rfl
  | clip i =>
    unfold sendChoice sendClip
    dsimp only
    split <;> rfl
  | idle => rfl

/-! ### The ends of operations on the flash channel -/

theorem scanComplete_moment : (scanComplete s).moment = s.moment :=
  (State.pushAll_moment _ _).trans (foldl_moment (fun s r => State.setClip_moment s r.clip (some r)) _ _)

theorem scanRead_moment (b : Nat) (o : ReadOutcome) (m : Byte) : (scanRead s b o m).moment = s.moment := by
  unfold scanRead
  extract_lets f d f1 u
  have hu : u.moment = s.moment := by
    unfold u
    split <;> simp
  split
  · exact (scanComplete_moment u).trans hu
  · exact hu

theorem clearPreload_moment (j : Nat) : (clearPreload s j).moment = s.moment := by
  unfold clearPreload
  dsimp only
  split <;> simp

theorem preloadDone_moment (o : FlashOp) (j : Nat) (r : ReadOutcome) : (preloadDone s o j r).moment = s.moment := by
  unfold preloadDone
  dsimp only
  repeat' split
  all_goals simp [clearPreload_moment]

theorem checksumDone_moment (o : FlashOp) (p : PortId) (r : ReadOutcome) : (checksumDone s o p r).moment = s.moment := by
  unfold checksumDone
  dsimp only
  repeat' split
  all_goals simp

theorem readAheadDone_moment (o : FlashOp) (i : Nat) (role : Role) (r : ReadOutcome) :
    (readAheadDone s o i role r).moment = s.moment := by
  unfold readAheadDone
  split
  · split
    · rfl
    · rw [(Kept.instanceFault (Kept.refl _) _ _ _).moment]
      simp
  · rfl

theorem readEnded_moment (o : FlashOp) (r : ReadOutcome) (m : Byte) : (readEnded s o r m).moment = s.moment := by
  unfold readEnded orphanRead
  repeat' split
  all_goals simp [readAheadDone_moment, preloadDone_moment, checksumDone_moment, scanRead_moment]

theorem checkRelease_moment : (checkRelease s).moment = s.moment := by
  unfold checkRelease
  repeat' split
  all_goals simp

theorem jobBlock_moment (job : Option Nat) (b : Bool) : (jobBlock s job b).moment = s.moment := by
  unfold jobBlock
  dsimp only
  repeat' split
  all_goals simp

theorem erased_moment (o : FlashOp) (e : OpEnd) : (erased s o e).moment = s.moment := by
  unfold erased eraseEnded block0Ended
  dsimp only
  repeat' split
  all_goals simp [checkRelease_moment, jobBlock_moment]

theorem opTimedOut_moment (o : FlashOp) : (opTimedOut s o).moment = s.moment := by
  unfold opTimedOut
  split
  · split <;> simp [readEnded_moment, opOver]
  · exact (Kept.programEnded (Kept.refl _) _ _ _ _).moment
  · exact erased_moment _ _ _

/-! ### Rows of passing time at their moment -/

variable {s}

theorem latchReturn_moment (i : Nat) : (latchReturn s i).moment = s.moment := by
  unfold latchReturn raiseIf
  dsimp only
  repeat' split
  all_goals simp

theorem latchSearches_moment (i : Nat) : (latchSearches s i).moment = s.moment := rfl

theorem inputLost_moment {k : Fin 4} (h : inputLostDue s k = true) : (inputLost s k.val).moment = s.moment := by
  unfold inputLostDue at h
  unfold inputLost
  dsimp only
  split
  · next x hp ht =>
    rw [hp, ht] at h
    split
    · rfl
    · rw [advanceTo_of_reached h]
      rfl
  · rfl

theorem pcrLossTimeout_moment {i : Fin 48} (h : pcrLossDue s i = true) : (pcrLossTimeout s i.val).moment = s.moment := by
  unfold pcrLossDue at h
  unfold pcrLossTimeout
  split
  · next x hc ht =>
    rw [hc, ht] at h
    split
    · rfl
    · rw [advanceTo_of_reached h]
      simp
  · rfl

theorem timeTrigger_moment {n : Fin 256} (h : triggerDue s n = true) : (timeTrigger s n.val).moment = s.moment := by
  unfold triggerDue at h
  unfold timeTrigger
  split
  · rfl
  · next e he =>
    rw [he] at h
    split
    · next x c hst htr hc =>
      split
      · rfl
      · have hd : timeDue s e = true := (Bool.and_eq_true_iff.1 h).2
        unfold timeDue at hd
        rw [htr, hc] at hd
        have hr : atOrAfter nClk s.localCount (localOf s e.svc (subMod nClk x (msTicks (s.cfgOf e.svc).preroll))) = true := by
          rw [atOrAfter_localOf]
          unfold serviceTime at hc
          split at hc
          · cases hc
          · cases hc
            exact (Bool.and_eq_true_iff.1 hd).2
        dsimp only
        rw [advanceTo_of_reached hr, rest_moment]
        exact (Kept.armAndArbitrate (Kept.refl s) _).moment
    · rfl

/-- A point whose tick has come is reached. -/
theorem reached_of_pointDue {o : Option Nat} {x : Nat} (h : pointDue s o = true) (ho : o = some x) :
    atOrAfter nClk s.localCount x = true := by
  subst ho
  exact h

theorem searchOverdue_moment {i : Fin 48} (h : searchDue s i = true) : (searchOverdue s i.val).moment = s.moment := by
  unfold searchOverdue
  split
  · rfl
  · split
    · next hx => rw [advanceTo_of_reached (reached_of_pointDue h hx), rest_moment, latchSearches_moment]
    · rfl

theorem seekTimerExpiry_moment {i : Fin 48} (h : seekDue s i = true) : (seekTimerExpiry s i.val).moment = s.moment := by
  unfold seekTimerExpiry
  split
  · rfl
  · split
    · next hx =>
      rw [advanceTo_of_reached (reached_of_pointDue h hx)]
      dsimp only
      split <;> simp [latchReturn_moment, latchSearches_moment]
    · rfl

theorem returnOverdue_moment {i : Fin 48} (h : returnDue s i = true) : (returnOverdue s i.val).moment = s.moment := by
  unfold returnDue at h
  unfold returnOverdue
  dsimp only
  split
  · next e he =>
    rw [he] at h
    split
    · rfl
    · split
      · next hx =>
        rw [advanceTo_of_reached (reached_of_pointDue (Bool.and_eq_true_iff.1 h).2 hx), rest_moment, latchReturn_moment]
      · rfl
  · rfl

theorem alertExpiry_moment {r : Fin 4} (h : alertDue s r = true) : (alertExpiry s r.val).moment = s.moment := by
  unfold alertDue at h
  unfold alertExpiry
  dsimp only
  split
  · next x hs ht =>
    rw [hs, ht] at h
    split
    · rfl
    · rw [advanceTo_of_reached h, rest_moment]
      exact (Kept.endAlert (Kept.refl s) _ _ _).moment
  · rfl

theorem slot_moment {k : Fin 4} (h : slotDue s k = true) : (slot s k.val).moment = s.moment := by
  unfold slot
  dsimp only
  split
  · rfl
  · rw [advanceTo_of_reached (Bool.and_eq_true_iff.1 h).2, rest_moment, State.setLane_moment, sendChoice_moment]
    exact (foldl_lateTests_kept _ _ _ _).moment

theorem flashOpTimeout_moment (h : flashDue s = true) : (flashOpTimeout s).moment = s.moment := by
  unfold flashDue at h
  unfold flashOpTimeout
  split
  · next o ho =>
    rw [ho] at h
    rw [advanceTo_of_reached h, restAfter_moment, opTimedOut_moment]
  · rfl

theorem frameGap_moment {p : PortId} (h : gapDue s p = true) : (frameGap s p).moment = s.moment := by
  unfold frameGap
  dsimp only
  split
  · rfl
  · rw [advanceTo_of_reached (Bool.and_eq_true_iff.1 h).2]
    rfl

/-- A row whose moment has come leaves the moment as it is. -/
theorem runRow_moment {c : Instr} (h : rowDue s c = true) : (runRow s c).moment = s.moment := by
  cases c with
  | inputLost k => exact inputLost_moment h
  | pcrLossTimeout i => exact pcrLossTimeout_moment h
  | timeTrigger n => exact timeTrigger_moment h
  | searchOverdue i => exact searchOverdue_moment h
  | seekTimerExpiry i => exact seekTimerExpiry_moment h
  | returnOverdue i => exact returnOverdue_moment h
  | alertExpiry r => exact alertExpiry_moment h
  | slot k => exact slot_moment h
  | flashOpTimeout => exact flashOpTimeout_moment h
  | frameGap p => exact frameGap_moment h
  | _ => cases h

theorem runDue_moment (c : Instr) : (runDue s c).moment = s.moment := by
  unfold runDue
  split
  · next h => exact runRow_moment h
  · rfl

end Sys2Proof.Machine
end

section
/-! The rows that a tick takes, as a list: each is due at its turn, and the slot that falls at the new count is among them
(R13, R19, R21, log 1). -/

namespace Sys2Proof.Machine

/-! ### The rows taken of a list -/

/-- The rows of a list that are due at their turn, each judged on the state that those before it left. -/
def takenRows (s : State) : List Instr → List Instr
  | [] => []
  | c :: r => if rowDue s c then c :: takenRows (runRow s c) r else takenRows s r

variable (s : State)

/-- The rows taken, one after the other, make what the list makes. -/
theorem foldl_takenRows (l : List Instr) : (takenRows s l).foldl runRow s = l.foldl runDue s := by
  induction l generalizing s with
  | nil => rfl
  | cons c r ih =>
    unfold takenRows
    simp only [List.foldl_cons, runDue]
    split
    · exact ih _
    · exact ih s

theorem takenRows_append (l m : List Instr) : takenRows s (l ++ m) = takenRows s l ++ takenRows (l.foldl runDue s) m := by
  induction l generalizing s with
  | nil => rfl
  | cons c r ih =>
    simp only [List.cons_append, takenRows, List.foldl_cons, runDue]
    split
    · simp [ih]
    · simp [ih]

/-- A row that is due at its turn is taken. -/
theorem mem_takenRows {c : Instr} {l m : List Instr} (h : rowDue (l.foldl runDue s) c = true) : c ∈ takenRows s (l ++ c :: m) := by
  rw [takenRows_append, takenRows, if_pos h]
  simp

/-- Each row taken is due on the state that those before it left. -/
theorem rowDue_of_takenRows {l : List Instr} {j : Nat} {c : Instr} (h : (takenRows s l)[j]? = some c) :
    rowDue (((takenRows s l).take j).foldl runRow s) c = true := by
  induction l generalizing s j with
  | nil => simp [takenRows] at h
  | cons d r ih =>
    unfold takenRows at h ⊢
    split at h
    · next hd =>
      rw [if_pos hd]
      cases j with
      | zero =>
        cases h
        exact hd
      | succ j => exact ih _ h
    · next hd =>
      rw [if_neg hd]
      exact ih s h

/-! ### A lane until its slot -/

/-- A row that is due, and is not the slot of a lane, leaves that lane's mode and slot time. -/
theorem runRow_slotTime {k : Fin 4} {c : Instr} (h : rowDue s c = true) (hc : c ≠ .slot k) :
    ((runRow s c).lane k.val).mode = (s.lane k.val).mode ∧ ((runRow s c).lane k.val).slotTime = (s.lane k.val).slotTime := by
  by_cases hs : ∃ m, c = .slot m
  · obtain ⟨m, rfl⟩ := hs
    show ((slot s m.val).lane k.val).mode = _ ∧ ((slot s m.val).lane k.val).slotTime = _
    have hm : k.val ≠ m.val := fun e => hc (by rw [Fin.ext e])
    rcases slot_cases s m.val with e | ⟨-, u, hu, e⟩ <;> rw [e]
    · exact ⟨rfl, rfl⟩
    · rw [(Kept.rest (Kept.refl _)).lane, State.lane_setLane, if_neg hm]
      exact ⟨(hu.lane k.val).mode, (hu.lane k.val).slotTime⟩
  · have hf := exec_rowFrame (c := c) (fun p a e => by subst e; cases h) (fun p b e => by subst e; cases h)
      (fun m e => hs ⟨m, e⟩) (fun e => by subst e; cases h) (exec_eq_runRow s c)
    exact ⟨(hf.lane k.val).mode, (hf.lane k.val).slotTime⟩

/-- The rows before a slot that falls at the present count leave it due. -/
theorem slotDue_foldl {k : Fin 4} {l : List Instr} (hl : .slot k ∉ l) (h : slotDue s k = true) : slotDue (l.foldl runDue s) k = true := by
  induction l generalizing s with
  | nil => exact h
  | cons c r ih =>
    obtain ⟨hc, hr⟩ := not_or.1 fun e => hl (List.mem_cons.2 e)
    refine ih _ hr ?_
    unfold runDue
    split
    · next hd =>
      obtain ⟨hm, ht⟩ := runRow_slotTime s hd (Ne.symm hc)
      have hn : (runRow s c).localCount = s.localCount := congrArg Prod.fst (runRow_moment hd)
      unfold slotDue reached at *
      rw [hm, ht, hn]
      exact h
    · exact h

theorem slot_mem_timedRows (k : Fin 4) : Instr.slot k ∈ timedRows := by
  simp [timedRows]

theorem slot_mem_takenRows {k : Fin 4} (h : slotDue s k = true) : .slot k ∈ takenRows s timedRows := by
  obtain ⟨l, m, e, hl⟩ := List.eq_append_cons_of_mem (slot_mem_timedRows k)
  rw [e]
  exact mem_takenRows s (slotDue_foldl s hl h)

/-! ### The cycle of the clock and the monitor's rows -/

/-- With REFCLK present the cycle is an edge: the count goes on, and in BACKUP the restore count (R19, R21, R22). -/
theorem clockCycle_of_refclk (h : s.refclk = true) : clockCycle s =
    { s with localCount := (s.localCount + 1) % nClk, backupCount := 0
             restoreCount := if s.monitor = .backup then s.restoreCount + 1 else s.restoreCount } := by
  unfold clockCycle edgeReturns State.countOne addMod
  cases hm : s.monitor <;> simp [h, hm]

/-- The count goes on in every cycle but those of a gap before the loss is found (R21). -/
theorem clockCycle_moment : (clockCycle s).moment =
    (if s.refclk = true ∨ s.monitor = .backup ∨ Config.refReturns s.freeCtr = true then (s.localCount + 1) % nClk else s.localCount,
      s.pending) := by
  unfold clockCycle edgeReturns State.countOne addMod State.moment
  cases hr : s.refclk <;> cases hm : s.monitor <;> cases hf : Config.refReturns s.freeCtr <;> simp [hr, hm]

/-- After an edge of REFCLK the one row that the monitor can bring is the restoration, at its goal (R22). -/
theorem clockRows_of_edge {s t : State} (h : t.backupCount = 0) : clockRows s t = [] ∨
    clockRows s t = [.refRestored] ∧ t.monitor = .backup ∧ t.restoreCount = 2700000 := by
  unfold clockRows restoreGoal
  cases hm : t.monitor with
  | reference => simp [h]
  | backup =>
    by_cases hc : t.restoreCount = 2700000 <;> simp [h, hc]

theorem refRestored_lane (k : Nat) : (refRestored s).lane k = s.lane k := by
  unfold refRestored restored edgesCome
  repeat' split
  all_goals simp [State.lane]

theorem refRestored_moment : (refRestored s).moment = s.moment := by
  unfold refRestored restored edgesCome
  repeat' split
  all_goals simp [State.moment]

theorem holdLocked_kept {s t : State} (h : Kept s t) (l : List Nat) : Kept s (holdLocked l t) := by
  induction l generalizing t with
  | nil => exact h
  | cons i r ih => exact ih (h.raiseIf _ _ _)

theorem refLost_moment : (refLost s).moment = s.moment := by
  unfold refLost
  split
  · rfl
  · refine (holdLocked_kept (Kept.refl _) _).moment.trans ?_
    rw [State.pushAll_moment]
    rfl

theorem restoreCountGap_moment : (restoreCountGap s).moment = s.moment := by
  unfold restoreCountGap
  split <;> rfl

/-- The monitor's rows leave the moment (R21, R22). -/
theorem foldl_clockRows_moment (z : State) : ((clockRows z s).foldl runRow s).moment = s.moment := by
  unfold clockRows
  repeat' split
  · exact refLost_moment s
  · rfl
  · exact refRestored_moment s
  · exact restoreCountGap_moment s
  · rfl

/-! ### One tick -/

variable {s}

theorem tick_eq (h : s.resetAsserted = false) :
    tick s = timedRows.foldl runDue ((clockRows s (clockCycle s)).foldl runRow (clockCycle s)) := by
  simp [tick, h]

theorem step_idle (h : s.pending = []) : step s = .next (tick s) := by simp [step, h]

/-- Of a tick's acts the cycle alone moves the local count. -/
theorem tick_moment (h : s.resetAsserted = false) : (tick s).moment = (clockCycle s).moment := by
  rw [tick_eq h]
  exact (foldl_moment (fun _ c => runDue_moment c) _ _).trans (foldl_clockRows_moment _ _)

/-- The states of a tick, from the edge on: each row taken, the monitor's first, leads to the next. -/
theorem step_edge (hp : s.pending = []) (hr : s.resetAsserted = false) (hc : s.refclk = true) :
    ∃ l : List Instr, step s = .next (l.foldl runRow (clockCycle s))
      ∧ (∀ j c, l[j]? = some c → rowDue ((l.take j).foldl runRow (clockCycle s)) c = true
        ∨ c = .refRestored ∧ ((l.take j).foldl runRow (clockCycle s)).monitor = .backup
          ∧ ((l.take j).foldl runRow (clockCycle s)).restoreCount = 2700000)
      ∧ ∀ k : Fin 4, (s.lane k.val).mode = .running → (s.lane k.val).slotTime = (s.localCount + 1) % nClk → .slot k ∈ l := by
  have hcyc := clockCycle_of_refclk s hc
  have hdue : ∀ k : Fin 4, (s.lane k.val).mode = .running → (s.lane k.val).slotTime = (s.localCount + 1) % nClk →
      slotDue (clockCycle s) k = true := by
    intro k hm ht
    rw [hcyc]
    show ((s.lane k.val).mode == LaneMode.running && atOrAfter nClk ((s.localCount + 1) % nClk) (s.lane k.val).slotTime) = true
    rw [hm, ht, atOrAfter_self _ _ (by decide)]
    rfl
  rw [step_idle hp, tick_eq hr]
  rcases clockRows_of_edge (s := s) (t := clockCycle s) (by rw [hcyc]) with e | ⟨e, hmon, hres⟩
  · refine ⟨takenRows (clockCycle s) timedRows, by rw [e, foldl_takenRows]; rfl, fun j c h => .inl (rowDue_of_takenRows _ h), ?_⟩
    exact fun k hm ht => slot_mem_takenRows _ (hdue k hm ht)
  · refine ⟨.refRestored :: takenRows (refRestored (clockCycle s)) timedRows, ?_, fun j c h => ?_, fun k hm ht => ?_⟩
    · rw [e, List.foldl_cons]
      exact congrArg _ (foldl_takenRows (refRestored (clockCycle s)) _).symm
    · cases j with
      | zero =>
        cases h
        exact .inr ⟨rfl, hmon, hres⟩
      | succ j => exact .inl (rowDue_of_takenRows (refRestored (clockCycle s)) h)
    · refine List.mem_cons_of_mem _ (slot_mem_takenRows _ ?_)
      have hn : (refRestored (clockCycle s)).localCount = (clockCycle s).localCount := congrArg Prod.fst (refRestored_moment _)
      unfold slotDue reached
      rw [refRestored_lane, hn]
      exact hdue k hm ht

/-- Settles O1: the rows that a tick takes, and the states between them. -/
theorem stepRunsFrontCommandOrOneTick : Obligations.StepRunsFrontCommandOrOneTick := by
  refine ⟨fun s c r h => by simp [step, h], fun s hp hr hc => ?_⟩
  obtain ⟨l, hstep, hrows, hslots⟩ := step_edge hp hr hc
  refine ⟨_, l, fun j => (l.take j).foldl runRow (clockCycle s), hstep, clockCycle_of_refclk s hc, by simp, fun j c h => ?_, hslots⟩
  refine ⟨?_, hrows j c h⟩
  simp [exec_eq_runRow, List.take_add_one, h]

end Sys2Proof.Machine
end

section
/-! What the acts of the splice engine, the scheduler and the alert unit write, said once: a reading that sees none of the basic
updates they are made of reads after `settle` what it read before. -/

namespace Sys2Proof.Machine

/-- A reading of the state that sees no service, no entry, no alert record, no directory record, no event queue and no free value,
nor whether the operation in flight still has its requester. -/
structure Unseen {β : Type} (P : State → β) : Prop where
  svc : ∀ s i v, P (s.setSvc i v) = P s
  entry : ∀ s n e, P (s.setEntry n e) = P s
  alert : ∀ s r a, P (s.setAlert r a) = P s
  clip : ∀ s c r, P (s.setClip c r) = P s
  box : ∀ s p b, P (s.setBox p b) = P s
  fresh : ∀ s, P s.fresh.2 = P s
  orphan : ∀ s w, P (s.modFlash (fun f => f.orphan w)) = P s
  current : ∀ s i, P (s.modFlash (fun f => f.toCurrent i)) = P s

/-- What a reading reads of the state. -/
def State.seen {β : Type} (P : State → β) (s : State) : β := P s

section
variable {β : Type} {P : State → β} (s : State)

/-! ### The basic updates -/

@[simp] theorem State.setSvc_seen (hP : Unseen P) (i : Nat) (v : Service) : (s.setSvc i v).seen P = s.seen P := hP.svc s i v
@[simp] theorem State.modSvc_seen (hP : Unseen P) (i : Nat) (f : Service → Service) : (s.modSvc i f).seen P = s.seen P := hP.svc s i _
@[simp] theorem State.modSp_seen (hP : Unseen P) (i : Nat) (f : SpliceRec → SpliceRec) : (s.modSp i f).seen P = s.seen P :=
  hP.svc s i _
@[simp] theorem State.setEntry_seen (hP : Unseen P) (n : Nat) (e : Option Entry) : (s.setEntry n e).seen P = s.seen P := hP.entry s n e
@[simp] theorem State.modAlert_seen (hP : Unseen P) (r : Nat) (f : AlertRec → AlertRec) : (s.modAlert r f).seen P = s.seen P :=
  hP.alert s r _
@[simp] theorem State.setAlert_seen (hP : Unseen P) (r : Nat) (a : AlertRec) : (s.setAlert r a).seen P = s.seen P := hP.alert s r a
@[simp] theorem State.dropRef_seen (hP : Unseen P) (c : Nat) : (s.dropRef c).seen P = s.seen P := hP.clip s c _
@[simp] theorem State.push_seen (hP : Unseen P) (p : PortId) (e : Event) : (s.push p e).seen P = s.seen P := hP.box s p _
@[simp] theorem State.fresh_seen (hP : Unseen P) : s.fresh.2.seen P = s.seen P := hP.fresh s
@[simp] theorem State.orphan_seen (hP : Unseen P) (w : Requester → Bool) : (s.modFlash (fun f => f.orphan w)).seen P = s.seen P :=
  hP.orphan s w
@[simp] theorem State.toCurrent_seen (hP : Unseen P) (i : Nat) : (s.modFlash (fun f => f.toCurrent i)).seen P = s.seen P :=
  hP.current s i

theorem foldl_seen {α : Type} {f : State → α → State} (h : ∀ s b, (f s b).seen P = s.seen P) (l : List α) :
    (l.foldl f s).seen P = s.seen P := by
  induction l generalizing s with
  | nil => rfl
  | cons b r ih => exact (ih _).trans (h s b)

@[simp] theorem offerCondition_seen (hP : Unseen P) (i : Nat) (c : Cond) (p : PortId) :
    (offerCondition s i c p).seen P = s.seen P := by
  unfold offerCondition
  split <;> simp [hP]
@[simp] theorem raise_seen (hP : Unseen P) (i : Nat) (c : Cond) : (raise s i c).seen P = s.seen P := by
  unfold raise
  dsimp only
  split <;> simp [hP]
@[simp] theorem raiseIf_seen (hP : Unseen P) (b : Bool) (i : Nat) (c : Cond) : (raiseIf b s i c).seen P = s.seen P := by
  cases b <;> simp [hP, raiseIf]

/-! ### The splice engine's basic acts and the scheduler -/

@[simp] theorem discardRole_seen (hP : Unseen P) (i : Nat) (r : Role) : (discardRole s i r).seen P = s.seen P := by simp [hP, discardRole]
@[simp] theorem discardSeeking_seen (hP : Unseen P) (i : Nat) (o : Owner) : (discardSeeking s i o).seen P = s.seen P := by
  unfold discardSeeking
  repeat' split
  all_goals simp [hP]
@[simp] theorem placeInst_seen (hP : Unseen P) (i : Nat) (q : InstReq) : (placeInst s i q).seen P = s.seen P := by
  unfold placeInst
  repeat' split
  all_goals simp [hP]
@[simp] theorem requestNext_seen (hP : Unseen P) (i : Nat) (q : InstReq) : (requestNext s i q).seen P = s.seen P := by
  unfold requestNext
  repeat' split
  all_goals simp [hP]
@[simp] theorem handE_seen (hP : Unseen P) (i e : Nat) : (handE s i e).seen P = s.seen P := by
  unfold handE
  split <;> simp [hP]
@[simp] theorem endEntry_seen (hP : Unseen P) (e : Entry) (r : EntryResult) : (endEntry s e r).seen P = s.seen P := by
  unfold endEntry
  rw [State.setEntry_seen _ hP, foldl_seen _ (fun s => State.dropRef_seen s hP), State.push_seen _ hP]
  split <;> simp [hP]
@[simp] theorem demote_seen (hP : Unseen P) (e : Entry) : (demote s e).seen P = s.seen P := by simp [hP, demote]
@[simp] theorem armRun_seen (hP : Unseen P) (n : Nat) : (armRun s n).1.seen P = s.seen P := by
  unfold armRun
  dsimp only
  repeat' split
  all_goals simp [hP]
@[simp] theorem arbiterPass_seen (hP : Unseen P) (l : List Nat) (d : Bool) : (arbiterPass l s d).1.seen P = s.seen P := by
  induction l generalizing s d with
  | nil => rfl
  | cons n r ih =>
    unfold arbiterPass
    dsimp only
    repeat' split
    all_goals simp [hP, ih]
@[simp] theorem arbiterLoop_seen (hP : Unseen P) (f k : Nat) : (arbiterLoop f s k).seen P = s.seen P := by
  induction f generalizing s with
  | zero => rfl
  | succ f ih =>
    unfold arbiterLoop
    dsimp only
    split <;> simp [hP, ih]
@[simp] theorem poolFreed_seen (hP : Unseen P) (k : Nat) : (poolFreed s k).seen P = s.seen P := by rw [poolFreed, arbiterLoop_seen s hP]
@[simp] theorem armAndArbitrate_seen (hP : Unseen P) (n : Nat) : (armAndArbitrate s n).seen P = s.seen P := by
  unfold armAndArbitrate
  dsimp only
  split <;> simp [hP]
@[simp] theorem reevalList_seen (hP : Unseen P) (c : WaitCause) (l : List Nat) : (reevalList c l s).seen P = s.seen P := by
  induction l generalizing s with
  | nil => rfl
  | cons n r ih =>
    unfold reevalList
    rw [ih]
    split <;> simp [hP]
@[simp] theorem reeval_seen (hP : Unseen P) (i : Nat) (c : WaitCause) : (reeval s i c).seen P = s.seen P := by rw [reeval, reevalList_seen s hP]
@[simp] theorem afterEnd_seen (hP : Unseen P) (i : Nat) : (afterEnd s i).seen P = s.seen P := by simp [hP, afterEnd]
@[simp] theorem endAndRelease_seen (hP : Unseen P) (e : Entry) (r : EntryResult) : (endAndRelease s e r).seen P = s.seen P := by
  unfold endAndRelease
  dsimp only
  split <;> simp [hP]
@[simp] theorem setE_seen (hP : Unseen P) (n e : Nat) : (setE s n e).seen P = s.seen P := by
  unfold setE
  split <;> simp [hP]
@[simp] theorem activate_seen (hP : Unseen P) (n x d : Nat) (v : Seal) : (activate s n x d v).seen P = s.seen P := by
  unfold activate
  dsimp only
  repeat' split
  all_goals simp [hP]
@[simp] theorem podAdvance_seen (hP : Unseen P) (n d : Nat) (v : Seal) : (podAdvance s n d v).seen P = s.seen P := by
  unfold podAdvance
  dsimp only
  repeat' split
  all_goals simp [hP]
@[simp] theorem podEnd_seen (hP : Unseen P) (n d : Nat) (v : Seal) : (podEnd s n d v).seen P = s.seen P := by
  unfold podEnd keepAwaiting
  dsimp only
  repeat' split
  all_goals simp [hP]
@[simp] theorem returnEnded_seen (hP : Unseen P) (e : Entry) (b : Bool) (p : Option Nat) : (returnEnded s e b p).seen P = s.seen P := by
  unfold returnEnded
  dsimp only
  repeat' split
  all_goals simp [hP]

/-! ### The alert unit -/

@[simp] theorem holdTarget_seen (hP : Unseen P) (r i : Nat) : (holdTarget s r i).seen P = s.seen P := State.modAlert_seen s hP _ _
@[simp] theorem takeService_seen (hP : Unseen P) (r i : Nat) : (takeService s r i).seen P = s.seen P := by
  unfold takeService
  dsimp only
  split <;> simp [hP]
@[simp] theorem endRecord_seen (hP : Unseen P) (r : Nat) (c : EndCause) : (endRecord s r c).seen P = s.seen P := by simp [hP, endRecord]
@[simp] theorem testRecord_seen (hP : Unseen P) (r : Nat) : (testRecord s r).seen P = s.seen P := by
  unfold testRecord
  dsimp only
  repeat' split
  all_goals simp [hP]
@[simp] theorem passOn_seen (hP : Unseen P) (i : Nat) : (passOn s i).seen P = s.seen P := by
  unfold passOn
  repeat' split
  all_goals simp [hP]
@[simp] theorem leaveHeld_seen (hP : Unseen P) (r i : Nat) (b : Bool) : (leaveHeld s r i b).seen P = s.seen P :=
  State.modAlert_seen s hP _ _
@[simp] theorem depart_seen (hP : Unseen P) (r i : Nat) (b : Bool) : (depart s r i b).seen P = s.seen P := by simp [hP, depart]
@[simp] theorem alertCut_seen (hP : Unseen P) (r i : Nat) : (alertCut s r i).seen P = s.seen P := by
  unfold alertCut
  dsimp only
  repeat' split
  all_goals simp [hP]
@[simp] theorem alertE_seen (hP : Unseen P) (r i e : Nat) : (alertE s r i e).seen P = s.seen P := by simp [hP, alertE]

/-! ### Cuts and returns -/

@[simp] theorem reportCut_seen (hP : Unseen P) (i : Nat) (o : Owner) (x d : Nat) (v : Seal) : (reportCut s i o x d v).seen P = s.seen P := by
  unfold reportCut
  repeat' split
  all_goals simp [hP]
@[simp] theorem beginReturn_seen (hP : Unseen P) (i : Nat) : (beginReturn s i).seen P = s.seen P := by
  unfold beginReturn
  dsimp only
  repeat' split
  all_goals simp [hP]
@[simp] theorem finishReturn_seen (hP : Unseen P) (i : Nat) : (finishReturn s i).seen P = s.seen P := by
  unfold finishReturn
  dsimp only
  repeat' split
  all_goals simp [hP]
@[simp] theorem clipCut_seen (hP : Unseen P) (i c : Nat) (n : Inst) (x w : Nat) : (clipCut s i c n x w).seen P = s.seen P := by simp [hP, clipCut]
@[simp] theorem exhaustCut_seen (hP : Unseen P) (i : Nat) (o n : Inst) : (exhaustCut s i o n).seen P = s.seen P := by
  unfold exhaustCut
  dsimp only
  split <;> simp [hP]
@[simp] theorem startEmergency_seen (hP : Unseen P) (i : Nat) (o : Owner) : (startEmergency s i o).seen P = s.seen P := by
  unfold startEmergency
  dsimp only
  repeat' split
  all_goals simp [hP]

/-! ### The emission head and `settle` -/

theorem examineCur_seen (hP : Unseen P) {i : Nat} {n : Inst} {b : Pkt} {due : Nat} {u : State} (h : examineCur s i n b due = some u) :
    u.seen P = s.seen P := by
  unfold examineCur at h
  dsimp only at h
  repeat' split at h
  all_goals cases h
  all_goals simp [hP, stopCur]
theorem examineNext_seen (hP : Unseen P) {i : Nat} {n : Inst} {b : Pkt} {u : State} (h : examineNext s i n b = some u) : u.seen P = s.seen P := by
  unfold examineNext at h
  repeat' split at h
  all_goals cases h
  all_goals simp [hP]
@[simp] theorem placeHead_seen (hP : Unseen P) (i : Nat) (r : Role) (n : Inst) (b : Pkt) (d : Nat) : (placeHead s i r n b d).seen P = s.seen P := by
  unfold placeHead
  repeat' split
  all_goals simp [hP]
@[simp] theorem exhaust_seen (hP : Unseen P) (i : Nat) : (exhaust s i).seen P = s.seen P := by
  unfold exhaust
  repeat' split
  all_goals simp [hP]
@[simp] theorem repeatEnd_seen (hP : Unseen P) (i : Nat) : (repeatEnd s i).seen P = s.seen P := by
  rcases repeatEnd_cases s i with h | ⟨o, nx, r, -, -, -, -, -, -, -, h⟩ <;> rw [h]
  simp [hP, handClipEnd, keepAwaiting]
@[simp] theorem takePacket_seen (hP : Unseen P) (i : Nat) (r : Role) (n : Inst) (b : Pkt) : (takePacket s i r n b).seen P = s.seen P := by
  unfold takePacket
  extract_lets due wrapped src m u
  have hu : u.seen P = s.seen P := by simp [u, hP]
  cases r with
  | current =>
    dsimp only
    rw [exhaust_seen _ hP, repeatEnd_seen _ hP]
    cases h : examineCur u i m b due with
    | some v => exact (examineCur_seen u hP h).trans hu
    | none => exact (placeHead_seen u hP _ _ _ _ _).trans hu
  | next =>
    dsimp only
    cases h : examineNext u i m b with
    | some v => exact (examineNext_seen u hP h).trans hu
    | none => exact (placeHead_seen u hP _ _ _ _ _).trans hu

/-- No act that `settle` takes is seen. -/
theorem svcStep_seen (hP : Unseen P) {i : Nat} {u : State} (h : svcStep s i = some u) : u.seen P = s.seen P := by
  simp only [svcStep, Option.or_eq_some_iff] at h
  rcases h with h | ⟨-, h | ⟨-, h | ⟨-, h | ⟨-, h | ⟨-, h | ⟨-, h⟩⟩⟩⟩⟩⟩
  · unfold serveWaiting at h
    split at h <;> cases h
    simp [hP]
  · unfold clipEndStep ownerStep podStep loopStep at h
    dsimp only at h
    repeat' split at h
    all_goals cases h
    all_goals simp [hP, handClipEnd, keepAwaiting]
  · unfold lateExhaust at h
    repeat' split at h
    all_goals cases h
    all_goals simp [hP]
  · unfold finishOrPromote at h
    dsimp only at h
    repeat' split at h
    all_goals cases h
    all_goals simp [hP]
  · split at h <;> cases h
    simp [hP]
  · unfold fillHead at h
    dsimp only at h
    repeat' split at h
    all_goals cases h
    all_goals simp [hP]
  · unfold choose at h
    repeat' split at h
    all_goals cases h
    all_goals simp [hP]

@[simp] theorem settleLoop_seen (hP : Unseen P) (f : Nat) : (settleLoop f s).seen P = s.seen P := by
  have ha : ∀ (l : List Nat) (s u : State), anyStep s l = some u → u.seen P = s.seen P := by
    intro l
    induction l with
    | nil =>
      intro s u h
      simp [anyStep] at h
    | cons i r ih =>
      intro s u h
      unfold anyStep at h
      split at h
      · next hs => cases h; exact svcStep_seen s hP hs
      · exact ih s u h
  induction f generalizing s with
  | zero => rfl
  | succ f ih =>
    unfold settleLoop
    split
    · next h => exact (ih _).trans (ha _ _ _ h)
    · rfl
@[simp] theorem settle_seen (hP : Unseen P) : (settle s).seen P = s.seen P := by rw [settle, settleLoop_seen s hP]

end

/-- A reading that sees none of the basic updates is the same after `settle`. -/
theorem Unseen.settle {β : Type} {P : State → β} (hP : Unseen P) (s : State) : P (settle s) = P s := settle_seen s hP

end Sys2Proof.Machine
end

section
/-! The flash channel under LOWSUPPLY: the arbiter grants reads only, and what an operation aborted by the pin leaves (R139, R144). -/

namespace Sys2Proof.Machine

variable {s : State}

/-! ### Grants while the supply is LOW (R139) -/

/-- Requests of programs are of class 2, and those of erases of class 4 (R138). -/
theorem requestAt_class {j c : Nat} {o : FlashOp} (h : requestAt s j = some (c, o)) : o.kind = .read ∨ c = 2 ∨ c = 4 := by
  unfold requestAt at h
  repeat' split at h
  · unfold raRequest clipRead mkOp at h
    dsimp only at h
    repeat' split at h
    all_goals cases h
    exact .inl rfl
  · unfold preloadRequest clipRead mkOp at h
    dsimp only at h
    split at h
    · obtain ⟨r, -, hr⟩ := Option.map_eq_some_iff.1 h
      cases hr
      exact .inl rfl
    · cases h
  · unfold ingestRequest at h
    dsimp only at h
    repeat' split at h
    · obtain ⟨b, -, hb⟩ := Option.map_eq_some_iff.1 h
      cases hb
      exact .inr (.inl rfl)
    · obtain ⟨b, -, hb⟩ := Option.map_eq_some_iff.1 h
      cases hb
      exact .inr (.inl rfl)
    · cases h
  · unfold markerRequest at h
    split at h
    · cases h
      exact .inr (.inl rfl)
    · cases h
  · obtain ⟨l, -, hl⟩ := Option.map_eq_some_iff.1 h
    cases hl
    exact .inr (.inl rfl)
  · unfold checksumRequest clipRead mkOp at h
    split at h
    · obtain ⟨r, -, hr⟩ := Option.map_eq_some_iff.1 h
      cases hr
      exact .inl rfl
    · cases h
  · unfold scanRequest mkOp at h
    split at h <;> cases h
    exact .inl rfl
  · unfold eraserRequest at h
    repeat' split at h
    all_goals cases h
    exact .inr (.inr rfl)
  · unfold eraserRequest at h
    repeat' split at h
    all_goals cases h
    exact .inr (.inr rfl)
  · unfold releaseRequest at h
    repeat' split at h
    all_goals cases h
    exact .inr (.inr rfl)

/-- What the arbiter chooses is the request at its place, and grantable (R138). -/
theorem arbChoice_spec {skip : Option Nat} {c j : Nat} {o : FlashOp} (h : arbChoice skip s = some (c, j, o)) :
    requestAt s j = some (c, o) ∧ grantable s c o.kind = true := by
  unfold arbChoice at h
  dsimp only at h
  obtain ⟨d, -, hd⟩ := List.mem_filterMap.1 (List.mem_of_head? h)
  obtain ⟨x, hfirst, hx⟩ := Option.map_eq_some_iff.1 hd
  cases hx
  unfold firstInClass at hfirst
  dsimp only at hfirst
  have hring := (List.mem_append.1 (List.mem_of_head? hfirst)).elim (fun h => (List.mem_filter.1 h).1) (fun h => (List.mem_filter.1 h).1)
  obtain ⟨r, hreq, rfl⟩ := List.mem_map.1 hring
  obtain ⟨hreq, hg⟩ := List.mem_filter.1 hreq
  obtain ⟨hc, hg⟩ := Bool.and_eq_true_iff.1 hg
  obtain ⟨n, -, hn⟩ := List.mem_filterMap.1 hreq
  split at hn
  · cases hn
  · obtain ⟨q, hq, rfl⟩ := Option.map_eq_some_iff.1 hn
    exact ⟨hq.trans (by rw [← beq_iff_eq.1 hc]), hg⟩

/-- While the supply is LOW a grantable request is one of a read. -/
theorem arbChoice_low (hl : s.flash.supply = .low) {skip : Option Nat} {c j : Nat} {o : FlashOp}
    (h : arbChoice skip s = some (c, j, o)) : o.kind = .read := by
  obtain ⟨hreq, hg⟩ := arbChoice_spec h
  rcases requestAt_class hreq with hk | rfl | rfl
  · exact hk
  · simp [grantable, hl] at hg
  · simp [grantable, hl] at hg

/-- The operation in flight, if any, is a read. -/
def State.onlyReads (s : State) : Prop := ∀ o, s.flash.op = some o → o.kind = .read

theorem arbLoop_onlyReads (hl : s.flash.supply = .low) (h : s.onlyReads) (skip : Option Nat) (n : Nat) :
    (arbLoop skip n s).onlyReads := by
  cases n with
  | zero => exact h
  | succ n =>
    unfold arbLoop
    split
    · exact h
    · split
      · exact h
      · next c j o hch =>
        have hk : o.kind = .read := arbChoice_low hl hch
        simp only [grant, hk]
        intro p hp
        cases hp
        exact hk

/-- The kind of the operation in flight. -/
def State.opKind (s : State) : Option OpKind := s.flash.op.map (·.kind)

/-- The engine's acts may take the requester from the operation in flight, but leave the operation. -/
theorem opKind_unseen : Unseen State.opKind where
  svc _ _ _ := rfl
  entry _ _ _ := rfl
  alert _ _ _ := rfl
  clip _ _ _ := rfl
  box _ _ _ := rfl
  fresh _ := rfl
  orphan s w := by
    unfold State.opKind
    cases h : s.flash.op with
    | none => simp [Flash.orphan, h]
    | some o =>
      simp only [State.modFlash_flash, Flash.orphan, h, Option.map_some]
      split <;> rfl
  current s i := by
    unfold State.opKind
    cases h : s.flash.op with
    | none => simp [Flash.toCurrent, h]
    | some o =>
      simp only [State.modFlash_flash, Flash.toCurrent, h, Option.map_some]
      split <;> rfl

theorem onlyReads_iff : s.onlyReads ↔ ∀ k, s.opKind = some k → k = .read := by
  simp [State.onlyReads, State.opKind]

theorem rest_onlyReads (hl : s.flash.supply = .low) (h : s.onlyReads) : (rest s).onlyReads := by
  refine arbLoop_onlyReads ((Kept.settle (Kept.refl s)).flash.supply.trans hl) ?_ none 4096
  rw [onlyReads_iff, opKind_unseen.settle]
  exact onlyReads_iff.1 h

/-- An operation in flight stays in flight. -/
theorem rest_op_isSome (h : s.flash.op.isSome = true) : (rest s).flash.op.isSome = true := by
  have hs : (settle s).flash.op.isSome = true := by
    have := congrArg Option.isSome (opKind_unseen.settle s)
    simpa [State.opKind, h] using this
  simp [rest, arbLoop, hs]

/-! ### The abort (R144) -/

/-- LOW with its event at every port (R144). -/
def State.supplyLow (s : State) : State :=
  ({ s with lowsupply := true, flash := { s.flash with supply := .low } }).pushAll .supplyAsserted

theorem exec_lowsupplyAssert (hr : s.resetAsserted = false) (hl : s.lowsupply = false) :
    exec .lowsupplyAssert s = .next (rest (supplyAbort s.supplyLow)) := by
  refine congrArg Host.Outcome.next ?_
  simp [lowsupplyAssert, State.supplyLow, hr, hl]

theorem supplyLow_frame : s.supplyLow =
    { s with lowsupply := true, flash := { s.flash with supply := .low }, boxes := s.supplyLow.boxes } := rfl

theorem supplyLow_box (p : PortId) : s.supplyLow.box p = pushBox (s.box p) .supplyAsserted := State.box_pushAll _ _ p

@[simp] theorem supplyLow_flash : s.supplyLow.flash = { s.flash with supply := .low } := by rw [supplyLow_frame]

end Sys2Proof.Machine
end

section
/-! O13: what LOWSUPPLY and REFCLK do to the part, requester by requester (R21, R22, R124, R144). -/

namespace Sys2Proof.Machine

variable {s w : State}

/-! ### An ingest's program aborted (R124, R144) -/

/-- An INGESTING record removed with its whole chain, the unit back in NONE, and INGEST_DONE(FAULT) at its port. -/
def State.ingestAborted (w : State) (p : PortId) (r : ClipRec) (b : Nat) : State :=
  { w with
    dir := Table.set none w.dir r.clip none
    flash := (({ w.flash with markerQ := w.flash.markerQ.filter (fun m => !(m.damage && r.chain.head? == some m.block)) }).addDirty
      r.region r.chain none).orphan (fun q => q == Requester.ingest p)
    ingests := Table.set Ingest.reset w.ingests (portIdx p) Ingest.reset
    boxes := Table.set Box.reset w.boxes (portIdx p) (pushBox (w.box p) (.ingestFault r.clip b w.freeCtr))
    freeCtr := w.freeCtr + 1 }

theorem clearIngest_removeClip (p : PortId) (r : ClipRec) (b : Nat) :
    (clearIngest (w.removeClip r r.chain none) p).fresh.2.push p (.ingestFault r.clip b w.freeCtr) = w.ingestAborted p r b := by
  simp [State.ingestAborted, clearIngest, State.removeClip, State.push, State.setBox, State.box, State.setIngest, State.setClip,
    State.modFlash, State.withFlash, State.fresh]

theorem ingestAborted_clip (p : PortId) (r : ClipRec) (b c : Nat) :
    (w.ingestAborted p r b).clip c = if c = r.clip then none else w.clip c := by
  simp [State.clip, State.ingestAborted, Table.get_set]

theorem ingestAborted_ingest (p : PortId) (r : ClipRec) (b : Nat) (q : PortId) :
    (w.ingestAborted p r b).ingest q = if q = p then Ingest.reset else w.ingest q := by
  simp [State.ingest, State.ingestAborted, Table.get_set, portIdx_inj]

theorem ingestAborted_box (p : PortId) (r : ClipRec) (b : Nat) (q : PortId) :
    (w.ingestAborted p r b).box q = if q = p then pushBox (w.box q) (.ingestFault r.clip b w.freeCtr) else w.box q := by
  by_cases h : q = p <;> simp [State.box, State.ingestAborted, Table.get_set, portIdx_inj, h]

theorem ingestAborted_dirty (p : PortId) (r : ClipRec) (b : Nat) : (w.ingestAborted p r b).flash.dirty r.region =
    w.flash.dirty r.region ++ r.chain.map (fun b => { block := b, job := none }) := by
  refine (Flash.dirty_setDirty _ _ _).trans ?_
  cases r.region <;> rfl

theorem ingestAborted_bad (p : PortId) (r : ClipRec) (b : Nat) : (w.ingestAborted p r b).flash.bad = w.flash.bad := by
  simp [State.ingestAborted]

theorem ingestAborted_index (p : PortId) (r : ClipRec) (b c : Nat) : (w.ingestAborted p r b).flash.index c = w.flash.index c := by
  simp [State.ingestAborted, Flash.index]

/-- The end of an aborted ingest: as said above, and a held frame's reply on the port's link. -/
theorem ingestFailed_abort {p : PortId} {r : ClipRec} (b : Nat) (hst : (w.ingest p).st = .open_ ∨ (w.ingest p).st = .closing)
    (hc : w.clip (w.ingest p).clip = some r) (hr : r.clip = (w.ingest p).clip) :
    ∃ l, ingestFailed w p b false = { w.ingestAborted p r b with links := l }
      ∧ ((w.ingest p).held = .none → l = w.links)
      ∧ ∀ x q, (w.ingest p).held = .data x → (w.link p).out = some q →
        (ingestFailed w p b false).replied p q.code .fault (leBytes 4 (w.ingest p).stored) := by
  have hend : endIngest w p none = clearIngest (w.removeClip r r.chain none) p := by
    unfold endIngest
    rw [hc]
    exact congrArg (fun l => clearIngest (w.removeClip r l none) p) (List.filter_eq_self.2 fun _ _ => rfl)
  have hpush : (clearIngest (w.removeClip r r.chain none) p).fresh.2.push p
      (.ingestFault r.clip b (clearIngest (w.removeClip r r.chain none) p).fresh.1) = w.ingestAborted p r b :=
    clearIngest_removeClip p r b
  unfold ingestFailed
  simp only [Bool.false_eq_true, if_false, hend, ← hr, hpush]
  rcases hst with h | h <;> rw [h] <;> dsimp only
  all_goals
    cases hh : (w.ingest p).held with
    | none => exact ⟨w.links, rfl, fun _ => rfl, nofun⟩
    | abort => exact ⟨w.links, rfl, nofun, nofun⟩
    | data x =>
      refine ⟨_, answer_frame _ _ _ _, nofun, fun y q _ hq => answer_replied _ p _ _ _ ?_⟩
      have hl : (w.ingestAborted p r b).link p = w.link p := rfl
      rw [hl, hq]
      rfl

/-! ### The abort of every kind of operation -/

theorem erased_abort (o : FlashOp) : erased w o .abort = w := by
  unfold erased eraseEnded block0Ended
  dsimp only
  split <;> rfl

theorem supplyAbort_kept : Kept w (supplyAbort w) := by
  have ho : Kept w (opOver w) := Kept.modFlash (Kept.refl w) _ (by simp)
  unfold supplyAbort
  split
  · split
    · exact Kept.refl w
    · exact ho.programEnded _ _ _ _
    · rw [erased_abort]
      exact ho
  · exact Kept.refl w

theorem clearIngest_opKind (p : PortId) : (clearIngest w p).opKind = w.opKind := opKind_unseen.orphan _ _

theorem endIngest_opKind (p : PortId) (x : Option Nat) : (endIngest w p x).opKind = w.opKind := by
  unfold endIngest
  split
  · rw [clearIngest_opKind]
    simp [State.opKind, State.removeClip]
  · exact clearIngest_opKind p

theorem ingestFailed_opKind (p : PortId) (b : Nat) : (ingestFailed w p b false).opKind = w.opKind := by
  unfold ingestFailed
  simp only [Bool.false_eq_true, if_false]
  repeat' split
  · rfl
  · exact endIngest_opKind p none
  · exact endIngest_opKind p none
  · exact endIngest_opKind p none

/-- After the abort no program and no erase is in flight; a read is left (R144). -/
theorem supplyAbort_onlyReads : (supplyAbort w).onlyReads := by
  have ho : ∀ u : State, u.opKind = none → u.onlyReads := fun u hu => onlyReads_iff.2 fun k hk => by rw [hu] at hk; cases hk
  unfold supplyAbort
  split
  · next o h =>
    split
    · next hk =>
      intro p hp
      rw [h] at hp
      cases hp
      exact hk
    · refine ho _ ?_
      unfold programEnded markerDone protectionDone
      dsimp only
      repeat' split
      any_goals rfl
      all_goals exact (ingestFailed_opKind _ _).trans rfl
    · rw [erased_abort]
      exact ho _ rfl
  · next h => exact ho _ (by simp [State.opKind, h])

end Sys2Proof.Machine
end

section
namespace Sys2Proof.Machine

variable {s : State}

/-! ### LOWSUPPLY asserted: the operation in flight, requester by requester -/

/-- LOW with its event in every queue, and the operation that was in flight over: all else of the state stays. -/
theorem opOver_supplyLow : ∃ b,
    opOver s.supplyLow = { s with lowsupply := true, flash := { s.flash with supply := .low, op := none }, boxes := b }
    ∧ ∀ q, Table.get Box.reset b (portIdx q) = pushBox (s.box q) .supplyAsserted :=
  ⟨s.supplyLow.boxes, rfl, supplyLow_box⟩

theorem supplyAbort_program {o : FlashOp} {k : ProgKind} (h : s.flash.op = some o) (hk : o.kind = .program k) :
    supplyAbort s.supplyLow = programEnded (opOver s.supplyLow) o k .abort true := by
  unfold supplyAbort
  rw [supplyLow_flash]
  simp only [h, hk]

theorem supplyAbort_erase {o : FlashOp} (h : s.flash.op = some o) (hk : o.kind = .erase) :
    supplyAbort s.supplyLow = opOver s.supplyLow := by
  unfold supplyAbort
  rw [supplyLow_flash]
  simp only [h, hk, erased_abort]

/-- The state in which an aborted program of an ingest ends: a data program has reached its page (R118, R144). -/
def State.indexed (w : State) (o : FlashOp) : ProgKind → State
  | .data _ _ _ => w.modFlash (fun f => f.setIndex o.block (f.index o.block + 1))
  | _ => w

theorem programEnded_ingest {w : State} {o : FlashOp} {p : PortId} (k : ProgKind) (ho : o.orphan = false) (hq : o.req = .ingest p) :
    programEnded w o k .abort true = ingestFailed (w.indexed o k) p o.block false := by
  unfold programEnded State.indexed
  cases k <;> simp [ho, hq]

theorem indexed_frame (w : State) (o : FlashOp) (k : ProgKind) : ∃ f, w.indexed o k = { w with flash := f }
    ∧ f.bad = w.flash.bad ∧ (∀ r, f.dirty r = w.flash.dirty r)
    ∧ ∀ ci c l, k = .data ci c l → f.index o.block = w.flash.index o.block + 1 := by
  cases k with
  | data ci c l =>
    exact ⟨w.flash.setIndex o.block (w.flash.index o.block + 1), rfl, rfl, fun r => by cases r <;> rfl,
      fun _ _ _ _ => (Flash.index_setIndex _ _ _ _).trans (if_pos rfl)⟩
  | _ => exact ⟨w.flash, rfl, rfl, fun _ => rfl, nofun⟩

/-- LOW with its event in every queue, the operation over, and a data program's page counted: all else of the state stays. -/
theorem indexed_supplyLow (o : FlashOp) (k : ProgKind) : ∃ f b,
    (opOver s.supplyLow).indexed o k = { s with lowsupply := true, flash := f, boxes := b }
    ∧ (∀ q, Table.get Box.reset b (portIdx q) = pushBox (s.box q) .supplyAsserted)
    ∧ f.bad = s.flash.bad ∧ (∀ r, f.dirty r = s.flash.dirty r)
    ∧ ∀ ci c l, k = .data ci c l → f.index o.block = s.flash.index o.block + 1 := by
  obtain ⟨b, hover, hbox⟩ := opOver_supplyLow (s := s)
  rw [hover]
  obtain ⟨f, hf, hbad, hdirty, hindex⟩ := indexed_frame
    { s with lowsupply := true, flash := { s.flash with supply := .low, op := none }, boxes := b } o k
  exact ⟨f, b, hf, hbox, hbad, fun r => (hdirty r).trans (by cases r <;> rfl), hindex⟩

theorem programEnded_damage {w : State} {o : FlashOp} {r : ClipRec} (ho : o.orphan = false) (hq : o.req = .marker)
    (hc : w.clip o.clip = some r) (hr : r.st = .damaged) (hb : r.chain.head? = some o.block) :
    programEnded w o .damage .abort true = w.setClip o.clip (some { r with marker := .failed }) := by
  simp [programEnded, markerDone, ho, hq, hc, hr, hb]

theorem programEnded_badBlock {w : State} {o : FlashOp} (ho : o.orphan = false) (hq : o.req = .marker) :
    programEnded w o .badBlock .abort true = w := by
  simp [programEnded, ho, hq]

theorem programEnded_protection {w : State} {o : FlashOp} (i e : Bool) (ho : o.orphan = false) (hq : o.req = .protection) :
    programEnded w o (.protection i e) .abort true = protectionDone w i e .abort := by
  simp [programEnded, ho, hq]

/-- An aborted program of an ingest: INGEST_DONE(FAULT), the record gone, its whole chain dirty and not bad (R124, R144). -/
theorem lowsupply_aborts_ingest {o : FlashOp} {k : ProgKind} {p : PortId} {r : ClipRec} (hrow : exec .lowsupplyAssert s =
      .next (rest (supplyAbort s.supplyLow))) (hop : s.flash.op = some o) (ho : o.orphan = false) (hk : o.kind = .program k)
    (hq : o.req = .ingest p) (hst : (s.ingest p).st = .open_ ∨ (s.ingest p).st = .closing)
    (hc : s.clip (s.ingest p).clip = some r) (hr : r.clip = (s.ingest p).clip) :
    ∃ u, exec .lowsupplyAssert s = .next (rest u)
      ∧ u = { s with lowsupply := true, dir := u.dir, flash := u.flash, ingests := u.ingests, boxes := u.boxes
                     links := u.links, freeCtr := s.freeCtr + 1 }
      ∧ (∀ c, u.clip c = if c = r.clip then none else s.clip c) ∧ (∀ q, u.ingest q = if q = p then Ingest.reset else s.ingest q)
      ∧ (∀ q, u.box q = if q = p then [.ingestFault r.clip o.block s.freeCtr].foldl pushBox (pushBox (s.box q) .supplyAsserted)
          else pushBox (s.box q) .supplyAsserted)
      ∧ u.flash.bad = s.flash.bad
      ∧ u.flash.dirty r.region = s.flash.dirty r.region ++ r.chain.map (fun b => { block := b, job := none })
      ∧ (∀ ci first pkts, k = .data ci first pkts → u.flash.index o.block = s.flash.index o.block + 1)
      ∧ ((s.ingest p).held = .none → u.links = s.links)
      ∧ ∀ x q, (s.ingest p).held = .data x → (s.link p).out = some q →
          u.replied p q.code .fault (leBytes 4 (s.ingest p).stored) := by
  obtain ⟨f, b, hw, hbox, hbad, hdirty, hindex⟩ := indexed_supplyLow (s := s) o k
  rw [supplyAbort_program hop hk, programEnded_ingest k ho hq, hw] at hrow
  obtain ⟨l, hu, hheld, hreply⟩ :=
    ingestFailed_abort (w := { s with lowsupply := true, flash := f, boxes := b }) (p := p) o.block hst hc hr
  refine ⟨_, hrow, ?_, ?_⟩
  · rw [hu]
    rfl
  · rw [hu] at hreply ⊢
    refine ⟨ingestAborted_clip p r o.block, ingestAborted_ingest p r o.block, fun q => ?_, (ingestAborted_bad p r o.block).trans hbad,
      (ingestAborted_dirty p r o.block).trans (by rw [← hdirty]), fun ci c d h => (ingestAborted_index p r o.block o.block).trans (hindex ci c d h),
      hheld, hreply⟩
    refine (ingestAborted_box p r o.block q).trans ?_
    rw [← hbox]
    rfl

/-- An aborted damage marker is FAILED and no more is said of it (R144). -/
theorem lowsupply_aborts_damage {o : FlashOp} {r : ClipRec} (hrow : exec .lowsupplyAssert s =
      .next (rest (supplyAbort s.supplyLow))) (hop : s.flash.op = some o) (ho : o.orphan = false)
    (hk : o.kind = .program .damage) (hq : o.req = .marker) (hc : s.clip o.clip = some r) (hd : r.st = .damaged)
    (hb : r.chain.head? = some o.block) :
    ∃ u, exec .lowsupplyAssert s = .next (rest u) ∧ (∀ p, u.box p = pushBox (s.box p) .supplyAsserted)
      ∧ u = { s.setClip o.clip (some { r with marker := .failed }) with
              lowsupply := true, flash := { s.flash with supply := .low, op := none }, boxes := u.boxes } := by
  obtain ⟨b, hover, hbox⟩ := opOver_supplyLow (s := s)
  have hc' : State.clip { s with lowsupply := true, flash := { s.flash with supply := .low, op := none }, boxes := b } o.clip =
      some r := hc
  rw [supplyAbort_program hop hk, hover, programEnded_damage ho hq hc' hd hb] at hrow
  exact ⟨_, hrow, hbox, rfl⟩

/-- An aborted protection program: PROTECT_DONE (FAILED), with the count one higher (R144, R167). -/
theorem lowsupply_aborts_protection {o : FlashOp} {i e : Bool} (hrow : exec .lowsupplyAssert s =
      .next (rest (supplyAbort s.supplyLow))) (hop : s.flash.op = some o) (ho : o.orphan = false)
    (hk : o.kind = .program (.protection i e)) (hq : o.req = .protection) :
    ∃ u, exec .lowsupplyAssert s = .next (rest u)
      ∧ (∀ p, u.box p = if p = .ap then pushBox (pushBox (s.box p) .supplyAsserted)
            (.protectSet false { s.flash.prot with count := s.flash.prot.count + 1 } s.freeCtr)
          else pushBox (s.box p) .supplyAsserted)
      ∧ u = { s with
              lowsupply := true, boxes := u.boxes, freeCtr := s.freeCtr + 1
              flash := { s.flash with
                supply := .low, op := none, prot := { s.flash.prot with count := s.flash.prot.count + 1 } } } := by
  obtain ⟨b, hover, hbox⟩ := opOver_supplyLow (s := s)
  rw [supplyAbort_program hop hk, hover, programEnded_protection i e ho hq] at hrow
  refine ⟨_, hrow, fun p => (State.box_push _ .ap p _).trans ?_, rfl⟩
  by_cases hp : p = .ap
  · rw [if_pos hp, if_pos hp, ← hp]
    exact congrArg (pushBox · _) (hbox p)
  · rw [if_neg hp, if_neg hp]
    exact hbox p

/-- An aborted bad-block marker stays unwritten, an aborted erase leaves its block on its list: nothing changes (R144). -/
theorem lowsupply_aborts_silently {o : FlashOp} (hrow : exec .lowsupplyAssert s = .next (rest (supplyAbort s.supplyLow)))
    (hop : s.flash.op = some o) (ho : o.orphan = false) (h : o.kind = .program .badBlock ∧ o.req = .marker ∨ o.kind = .erase) :
    ∃ u, exec .lowsupplyAssert s = .next (rest u) ∧ (∀ p, u.box p = pushBox (s.box p) .supplyAsserted)
      ∧ u = { s with lowsupply := true, flash := { s.flash with supply := .low, op := none }, boxes := u.boxes } := by
  have hsame : supplyAbort s.supplyLow = opOver s.supplyLow := by
    rcases h with ⟨hk, hq⟩ | hk
    · rw [supplyAbort_program hop hk, programEnded_badBlock ho hq]
    · exact supplyAbort_erase hop hk
  obtain ⟨b, hover, hbox⟩ := opOver_supplyLow (s := s)
  rw [hsame, hover] at hrow
  exact ⟨_, hrow, hbox, rfl⟩

/-! ### The reference (R21, R22) -/

/-- Raising HOLD on the LOCKED services of a list: each has the flag, the others and everything else stand. -/
theorem holdLocked_frame (l : List Nat) (w : State) :
    holdLocked l w = { w with services := (holdLocked l w).services, boxes := (holdLocked l w).boxes } := by
  induction l generalizing w with
  | nil => rfl
  | cons i r ih =>
    have hi : ∃ v b, raiseIf ((w.svc i).clk.st == .locked) w i .hold = { w with services := v, boxes := b } := by
      unfold raiseIf
      split
      · exact ⟨_, _, raise_frame w i .hold⟩
      · exact ⟨_, _, rfl⟩
    obtain ⟨v, b, hi⟩ := hi
    unfold holdLocked
    rw [hi]
    exact ih _

/-- The condition record of a service on which HOLD has been raised (R21, R105). -/
def Service.held (v : Service) : Service := { v with cond := { v.cond with flags := v.cond.flags ||| condBit .hold } }

theorem holdLocked_svc (l : List Nat) (w : State) (j : Nat) : (holdLocked l w).svc j =
    if j ∈ l ∧ (w.svc j).clk.st = .locked then (w.svc j).held else w.svc j := by
  induction l generalizing w with
  | nil => simp [holdLocked]
  | cons i r ih =>
    have hi : (raiseIf ((w.svc i).clk.st == .locked) w i .hold).svc j =
        if j = i ∧ (w.svc j).clk.st = .locked then (w.svc j).held else w.svc j := by
      unfold raiseIf
      by_cases hj : j = i
      · subst hj
        by_cases hs : (w.svc j).clk.st = .locked <;> simp [hs, raise_svc, Service.held]
      · split <;> simp [raise_svc, hj]
    have hidem : ∀ v : Service, v.held.held = v.held := fun v => by
      simp only [Service.held, BitVec.or_assoc, BitVec.or_self]
    unfold holdLocked
    rw [ih, hi]
    by_cases hj : j = i ∧ (w.svc j).clk.st = .locked
    · rw [if_pos hj, hidem, ite_self, if_pos ⟨List.mem_cons.2 (.inl hj.1), hj.2⟩]
    · rw [if_neg hj]
      refine if_congr ?_ rfl rfl
      rw [List.mem_cons]
      tauto

/-- Only a listed service is LOCKED. -/
theorem mem_listed_of_locked {j : Nat} (h : (s.svc j).clk.st = .locked) : j ∈ s.listed := by
  have hm := Table.mem_of_get (rfl : s.svc j = s.svc j) (by intro e; rw [e] at h; cases h)
  exact List.mem_map.2 ⟨_, hm, rfl⟩

/-! ### The pins -/

/-- A queue with room takes the pin's event next. -/
theorem pushBox_prefix {b : Box} {e : Event} (h : b.queue.length < 32) : b.queue ++ [e] <+: (pushBox b e).queue := by
  simp [pushBox, h]

theorem lowsupply_asserted (hr : s.resetAsserted = false) (hl : s.lowsupply = false) : ∃ t, exec .lowsupplyAssert s = .next t
    ∧ t.lowsupply = true ∧ t.flash.supply = .low
    ∧ (∀ p, (s.box p).queue.length < 32 → (s.box p).queue ++ [.supplyAsserted] <+: (t.box p).queue)
    ∧ (∀ o, t.flash.op = some o → o.kind = .read)
    ∧ (∀ o, s.flash.op = some o → o.kind = .read → t.flash.op.isSome)
    ∧ t.lanes = s.lanes := by
  have ha : Kept s.supplyLow (supplyAbort s.supplyLow) := supplyAbort_kept
  have hk : Kept s.supplyLow (rest (supplyAbort s.supplyLow)) := ha.rest
  refine ⟨_, exec_lowsupplyAssert hr hl, hk.lowsupply, hk.flash.supply, fun p hp => ?_, ?_, fun o ho hkind => ?_, hk.lanes⟩
  · exact (pushBox_prefix hp).trans (supplyLow_box p ▸ hk.grows p)
  · exact rest_onlyReads (ha.flash.supply) supplyAbort_onlyReads
  · refine rest_op_isSome ?_
    simp [supplyAbort, ho, hkind]

theorem lowsupply_released (hr : s.resetAsserted = false) (hl : s.lowsupply = true) : ∃ t, exec .lowsupplyRelease s = .next t
    ∧ t.lowsupply = false ∧ t.flash.supply = .normal
    ∧ (∀ p, (s.box p).queue.length < 32 → (s.box p).queue ++ [.supplyReleased] <+: (t.box p).queue)
    ∧ t.lanes = s.lanes := by
  let w := ({ s with lowsupply := false, flash := { s.flash with supply := .normal } }).pushAll .supplyReleased
  have hk : Kept w (rest w) := (Kept.refl w).rest
  have he : exec .lowsupplyRelease s = .next (rest w) := congrArg Host.Outcome.next (by simp [lowsupplyRelease, hr, hl, w])
  refine ⟨_, he, hk.lowsupply, hk.flash.supply, fun p hp => (pushBox_prefix hp).trans ?_, hk.lanes⟩
  exact State.box_pushAll _ _ p ▸ hk.grows p

theorem ref_lost (hr : s.resetAsserted = false) (hm : s.monitor = .reference) : ∃ t, exec .refLost s = .next t
    ∧ t = { s with refclk := false, monitor := .backup, backupCount := 64, restoreCount := 0,
                   services := t.services, boxes := t.boxes }
    ∧ (∀ p, (s.box p).queue.length < 32 → (s.box p).queue ++ [.refLost] <+: (t.box p).queue)
    ∧ (∀ i, t.svc i = { s.svc i with cond :=
        if (s.svc i).clk.st = .locked then { (s.svc i).cond with flags := (s.svc i).cond.flags ||| condBit .hold }
        else (s.svc i).cond }) := by
  let w := ({ s with refclk := false, monitor := .backup, backupCount := 64, restoreCount := 0 }).pushAll .refLost
  have he : exec .refLost s = .next (holdLocked s.listed w) := congrArg Host.Outcome.next (by simp [refLost, hr, hm, w])
  refine ⟨_, he, ?_, fun p hp => (pushBox_prefix hp).trans ?_, fun i => ?_⟩
  · conv => lhs; rw [holdLocked_frame]
    rfl
  · exact State.box_pushAll _ _ p ▸ (holdLocked_kept (Kept.refl w) s.listed).grows p
  · rw [holdLocked_svc, show w.svc i = s.svc i from State.pushAll_svc _ _ _]
    by_cases hs : (s.svc i).clk.st = .locked
    · rw [if_pos ⟨mem_listed_of_locked hs, hs⟩, if_pos hs]
      rfl
    · rw [if_neg fun h => hs h.2, if_neg hs]

theorem ref_restored (hr : s.resetAsserted = false) (hm : s.monitor = .backup) : ∃ t, exec .refRestored s = .next t
    ∧ t = { s with refclk := true, monitor := .reference, backupCount := 0, restoreCount := 0, boxes := t.boxes }
    ∧ ∀ p, t.box p = pushBox (s.box p) .refRestored := by
  have he : refRestored s =
      ({ s with refclk := true, monitor := .reference, backupCount := 0, restoreCount := 0 }).pushAll .refRestored := by
    simp [refRestored, restored, edgesCome, hr, hm]
  exact ⟨_, congrArg Host.Outcome.next he, rfl, State.box_pushAll _ _⟩

theorem restore_count_gap (hr : s.resetAsserted = false) (hm : s.monitor = .backup) :
    exec .restoreCountGap s = .next { s with refclk := false, backupCount := 64, restoreCount := 0 } :=
  congrArg Host.Outcome.next (by simp [restoreCountGap, hr, hm])

/-- Settles O13: the pins and the monitor row by row, the aborted operation by its requester, and the moment of a tick. -/
theorem supplyAndReferenceFollowTheirPins : Obligations.SupplyAndReferenceFollowTheirPins := by
  refine ⟨fun s hr hl => lowsupply_asserted hr hl, fun s o hr hl hop ho => ?_, fun s hr hl => lowsupply_released hr hl,
    fun s hr hm => ref_lost hr hm, fun s hr hm => ⟨ref_restored hr hm, restore_count_gap hr hm⟩, fun s hp hr => ?_⟩
  · intro low told
    have hrow := exec_lowsupplyAssert hr hl
    refine ⟨fun k p r hk hq hst hc hclip => ?_, fun r hk hq hc hd hb => ?_, fun i e hk hq => ?_, fun h => ?_⟩
    · exact lowsupply_aborts_ingest hrow hop ho hk hq hst hc hclip
    · obtain ⟨u, hu, hbox, hframe⟩ := lowsupply_aborts_damage hrow hop ho hk hq hc hd hb
      exact ⟨u, hu, fun p => (hbox p).trans (ite_self _).symm, hframe⟩
    · exact lowsupply_aborts_protection hrow hop ho hk hq
    · obtain ⟨u, hu, hbox, hframe⟩ := lowsupply_aborts_silently hrow hop ho h
      exact ⟨u, hu, fun p => (hbox p).trans (ite_self _).symm, hframe⟩
  · have hm := (tick_moment hr).trans (clockCycle_moment s)
    exact ⟨_, step_idle hp, (congrArg Prod.snd hm).trans hp, congrArg Prod.fst hm⟩

end Sys2Proof.Machine
end

section
/-! The searches of the splice engine and the returns of the holds: their deadlines and timers (R81, R98, R102). -/

namespace Sys2Proof.Machine

variable {s : State} {i : Nat}

/-! ### Deadlines on the estimate and on a seek timer -/

/-- A point whose tick has been reached is behind the estimate (R31, R81). -/
theorem pastDeadline_of_reached {t p seek : Nat} {u : State} (ht : estimateReaches s i (deadline p seek) = some t)
    (hc : (u.svc i).clk = (s.svc i).clk) (hr : atOrAfter nClk u.localCount t = true) : pastDeadline u i p seek = true := by
  obtain ⟨e, he, ha⟩ := estimate_of_reached s i ht hc hr
  simp [pastDeadline, he, ha]

/-- While the clock runs and has a lead, every point has its tick. -/
theorem estimateReaches_isSome (hc : (s.svc i).clk.st ≠ .unlocked) (hl : (lead s i).isSome = true) (x : Nat) :
    ∃ t, estimateReaches s i x = some t := by
  obtain ⟨l, hl⟩ := Option.isSome_iff_exists.1 hl
  exact ⟨localOf s i (300 * addSigned nPts x (-l)), by simp [estimateReaches, serviceTime, hc, hl]⟩

/-- A seek timer that lies within its limit, moved to its expiry tick, has run for exactly the limit (R20, R81). -/
theorem sinceTicks_expiry {l0 lim : Nat} (hlim : lim ≤ 2000) (h0 : 0 ≤ sdiff nClk s.localCount l0)
    (h1 : sdiff nClk s.localCount l0 ≤ (lim * 27000 : Nat)) :
    sdiff nClk (advanceTo s (addMod nClk l0 (msTicks lim))).localCount l0 = (lim * 27000 : Nat) := by
  have hm : (addMod nClk l0 (msTicks lim) : Int) ≡ l0 + (lim * 27000 : Nat) [ZMOD nClk] := addMod_modEq _ _ _
  have hlt : 2 * (lim * 27000) < nClk := by simp only [nClk]; omega
  cases hr : atOrAfter nClk s.localCount (addMod nClk l0 (msTicks lim)) with
  | false =>
    rw [advanceTo_of_ahead hr]
    exact sdiff_of_ahead hlt (by rw [Int.natCast_mod]; exact (Int.mod_modEq _ _).trans hm)
  | true =>
    rw [advanceTo_of_reached hr]
    obtain ⟨d, hd, hcount⟩ := ahead_of_atOrAfter (by decide) hr
    have hs : ((lim * 27000 + d : Nat) : Int) ≡ sdiff nClk s.localCount l0 [ZMOD nClk] := by
      refine ((sdiff_modEq nClk s.localCount l0).trans ?_).symm
      refine ((hcount.trans (hm.add_right _)).sub_right _).trans ?_
      rw [show (l0 : Int) + (lim * 27000 : Nat) + d - l0 = (lim * 27000 + d : Nat) by push_cast; ring]
    have he := Int.ModEq.eq hs
    rw [Int.emod_eq_of_lt h0 (by omega)] at he
    by_cases hw : lim * 27000 + d < nClk
    · rw [Int.emod_eq_of_lt (by omega) (by omega)] at he
      omega
    · simp only [nClk] at *
      omega

theorem timerDone_of_since {l0 lim : Nat} (h : sdiff nClk s.localCount l0 = (lim * 27000 : Nat)) :
    timerDone s (some l0) lim = true := by
  simp [timerDone, sinceTicks, msTicks, h]

/-! ### Latching -/

/-- A SEEKING instance keeps all but its overdue mark (R81). -/
theorem latchSearches_seeking (w : State) {x : Inst} (hn : (w.sp i).nxt = some x) (hp : x.phase = .seeking) :
    ((latchSearches w i).sp i).nxt = some { x with overdue := seekOverdue w i x } := by
  rw [latchSearches, State.sp_modSp, if_pos rfl]
  simp only [hn, Option.map_some, hp]

/-- Latching a search leaves what is known of the return. -/
theorem latchSearches_ret (w : State) (i : Nat) : let p := (latchSearches w i).sp i
    p.ret = (w.sp i).ret ∧ p.retOverdue = (w.sp i).retOverdue ∧ p.retForced = (w.sp i).retForced
    ∧ p.retTimer = (w.sp i).retTimer ∧ p.retSeek = (w.sp i).retSeek := by
  intro p
  have hp : p = _ := State.sp_modSp w i i _
  rw [hp, if_pos rfl]
  exact ⟨rfl, rfl, rfl, rfl, rfl⟩

/-- A return found overdue: it goes on, and FORCED is raised once for it (R98, R102). -/
theorem latchReturn_spec {w : State} (h : (w.sp i).retOverdue = false) :
    let u := latchReturn w i
    (u.sp i).retOverdue = true ∧ (u.sp i).ret = (w.sp i).ret ∧ u.localCount = w.localCount
    ∧ (u.svc i).clk = (w.svc i).clk
    ∧ ((w.sp i).retForced = false → (u.svc i).cond.flags.getLsbD Cond.forced.pos = true)
    ∧ u = { w with services := u.services, boxes := u.boxes } := by
  intro u
  let v := w.modSp i (fun p => { p with retOverdue := true, retForced := true })
  have hu : u = raiseIf (!(w.sp i).retForced) v i .forced := by
    show latchReturn w i = _
    unfold latchReturn
    simp [h, v]
  have hsp : v.sp i = { w.sp i with retOverdue := true, retForced := true } := by rw [State.sp_modSp, if_pos rfl]
  have hk : Kept w u := by rw [hu]; exact ((Kept.refl w).modSp _ _).raiseIf _ _ _
  refine ⟨?_, ?_, hk.localCount, hk.clk i, fun hf => ?_, ?_⟩
  · rw [hu, raiseIf_sp, hsp]
  · rw [hu, raiseIf_sp, hsp]
  · rw [hu, hf]
    exact raise_flag _ _ _
  · rw [hu]
    unfold raiseIf
    split
    · rw [raise_frame]
      rfl
    · rfl

/-! ### The rows (R81, R98, R102) -/

/-- The one open search of a service, from the network, has reached its deadline on the service time (R81). -/
theorem search_overdue_row {i : Fin 48} {x : Inst} {p : Nat} (hr : s.resetAsserted = false) (hn : (s.sp i.val).nxt = some x)
    (hph : x.phase = .seeking) (ho : x.overdue = false) (hcx : (s.sp i.val).cutX = none) (hp : x.s = some p)
    (hc : (s.svc i.val).clk.st ≠ .unlocked) (hl : (lead s i.val).isSome = true) :
    ∃ u e, exec (.searchOverdue i) s = .next (rest u)
      ∧ (u.sp i.val).nxt = some { x with overdue := true }
      ∧ estimate u i.val = some e ∧ atOrAfter nPts e ((p + x.seekLimit * 90) % nPts) = true
      ∧ u = { s with localCount := u.localCount, services := u.services } := by
  obtain ⟨t, ht⟩ := estimateReaches_isSome hc hl (deadline p x.seekLimit)
  have hopen : openDeadlines (s.sp i.val) = [deadline p x.seekLimit] := by simp [openDeadlines, hn, hph, ho, hcx, hp]
  have hrow : exec (.searchOverdue i) s = .next (rest (latchSearches (advanceTo s t) i.val)) := by
    refine congrArg Host.Outcome.next (?_ : searchOverdue s i.val = _)
    simp [searchOverdue, hr, hopen, earliestPoint, ht]
  obtain ⟨c, hcount, hreach⟩ := advanceTo_cases s t
  rw [hcount] at hrow
  have hlatch := @latchSearches_kept { s with localCount := c } i.val
  obtain ⟨e, he, hpast⟩ := estimate_of_reached s i.val ht (hlatch.clk i.val) (hlatch.localCount ▸ hreach)
  refine ⟨_, e, hrow, ?_, he, hpast, rfl⟩
  refine (latchSearches_seeking { s with localCount := c } hn hph).trans ?_
  have hover := pastDeadline_of_reached (u := { s with localCount := c }) ht rfl hreach
  simp [seekOverdue, hp, hover]

/-- A seek timer's row, where one timer runs: the count stands at its expiry or later, and what is past is latched. -/
theorem exec_seekTimerExpiry {i : Fin 48} {t : Nat} (hr : s.resetAsserted = false) (ht : timerExpiries (s.sp i.val) = [t]) :
    exec (.seekTimerExpiry i) s = .next (rest (
      let u := latchSearches (advanceTo s t) i.val
      if (u.sp i.val).ret ≠ .idle ∧ timerDone u (u.sp i.val).retTimer (u.sp i.val).retSeek then latchReturn u i.val else u)) := by
  refine congrArg Host.Outcome.next (?_ : seekTimerExpiry s i.val = _)
  simp only [seekTimerExpiry, hr, ht, earliestPoint, List.foldl_nil]
  rfl

/-- The one open search of a service has run for its limit on the seek timer (R81). -/
theorem search_timer_row {i : Fin 48} {x : Inst} {l0 : Nat} (hr : s.resetAsserted = false) (hn : (s.sp i.val).nxt = some x)
    (hph : x.phase = .seeking) (ho : x.overdue = false) (hct : (s.sp i.val).cutTimer = none) (hret : (s.sp i.val).ret = .idle)
    (ht : x.seekTimer = some l0) (hlim : x.seekLimit ≤ 2000) (h0 : 0 ≤ sdiff nClk s.localCount l0)
    (h1 : sdiff nClk s.localCount l0 ≤ (x.seekLimit * 27000 : Nat)) :
    ∃ u, exec (.seekTimerExpiry i) s = .next (rest u)
      ∧ (u.sp i.val).nxt = some { x with overdue := true }
      ∧ sdiff nClk u.localCount l0 = (x.seekLimit * 27000 : Nat)
      ∧ u = { s with localCount := u.localCount, services := u.services } := by
  have hexp : timerExpiries (s.sp i.val) = [addMod nClk l0 (msTicks x.seekLimit)] := by
    simp [timerExpiries, hn, hph, ho, hct, hret, ht]
  have hsince := sinceTicks_expiry hlim h0 h1
  have hrow := exec_seekTimerExpiry hr hexp
  obtain ⟨c, hcount, -⟩ := advanceTo_cases s (addMod nClk l0 (msTicks x.seekLimit))
  rw [hcount] at hrow hsince
  let w : State := { s with localCount := c }
  have hidle : ((latchSearches w i.val).sp i.val).ret = .idle := (latchSearches_ret w i.val).1.trans hret
  dsimp only at hrow
  rw [if_neg (fun h => h.1 hidle)] at hrow
  refine ⟨_, hrow, ?_, hsince, rfl⟩
  refine (latchSearches_seeking w hn hph).trans ?_
  rw [seekOverdue, ht, timerDone_of_since hsince, Bool.or_true]

/-- A return toward a point has reached its deadline on the service time (R98). -/
theorem return_overdue_row {i : Fin 48} {p : Nat} (hr : s.resetAsserted = false) (hro : (s.sp i.val).retOverdue = false)
    (hret : (s.sp i.val).ret = .returning p) (hc : (s.svc i.val).clk.st ≠ .unlocked) (hl : (lead s i.val).isSome = true) :
    ∃ u e, exec (.returnOverdue i) s = .next (rest u)
      ∧ (u.sp i.val).retOverdue = true ∧ (u.sp i.val).ret = .returning p
      ∧ estimate u i.val = some e ∧ atOrAfter nPts e ((p + (s.sp i.val).retSeek * 90) % nPts) = true
      ∧ ((s.sp i.val).retForced = false → (u.svc i.val).cond.flags.getLsbD Cond.forced.pos = true)
      ∧ u = { s with localCount := u.localCount, services := u.services, boxes := u.boxes } := by
  obtain ⟨t, ht⟩ := estimateReaches_isSome hc hl (deadline p (s.sp i.val).retSeek)
  have hrow : exec (.returnOverdue i) s = .next (rest (latchReturn (advanceTo s t) i.val)) := by
    refine congrArg Host.Outcome.next (?_ : returnOverdue s i.val = _)
    simp [returnOverdue, hret, hr, hro, ht]
  obtain ⟨c, hcount, hreach⟩ := advanceTo_cases s t
  rw [hcount] at hrow
  obtain ⟨hover, hkeeps, hsame, hclk, hforced, hframe⟩ := latchReturn_spec (i := i.val) (w := { s with localCount := c }) hro
  obtain ⟨e, he, hpast⟩ := estimate_of_reached s i.val ht hclk (hsame ▸ hreach)
  refine ⟨_, e, hrow, hover, hkeeps.trans hret, he, hpast, hforced, ?_⟩
  rw [hframe]

/-- An emergency return has run for its limit on its timer (R102). -/
theorem return_timer_row {i : Fin 48} {l0 : Nat} (hr : s.resetAsserted = false) (hro : (s.sp i.val).retOverdue = false)
    (hret : (s.sp i.val).ret = .emergency) (ht : (s.sp i.val).retTimer = some l0) (hn : (s.sp i.val).nxt = none)
    (hct : (s.sp i.val).cutTimer = none) (hlim : (s.sp i.val).retSeek ≤ 2000)
    (h0 : 0 ≤ sdiff nClk s.localCount l0) (h1 : sdiff nClk s.localCount l0 ≤ ((s.sp i.val).retSeek * 27000 : Nat)) :
    ∃ u, exec (.seekTimerExpiry i) s = .next (rest u)
      ∧ (u.sp i.val).retOverdue = true ∧ (u.sp i.val).ret = .emergency
      ∧ sdiff nClk u.localCount l0 = ((s.sp i.val).retSeek * 27000 : Nat)
      ∧ ((s.sp i.val).retForced = false → (u.svc i.val).cond.flags.getLsbD Cond.forced.pos = true)
      ∧ u = { s with localCount := u.localCount, services := u.services, boxes := u.boxes } := by
  have hexp : timerExpiries (s.sp i.val) = [addMod nClk l0 (msTicks (s.sp i.val).retSeek)] := by
    simp [timerExpiries, hn, hct, hret, hro, ht]
  have hsince := sinceTicks_expiry hlim h0 h1
  have hrow := exec_seekTimerExpiry hr hexp
  obtain ⟨c, hcount, -⟩ := advanceTo_cases s (addMod nClk l0 (msTicks (s.sp i.val).retSeek))
  rw [hcount] at hrow hsince
  dsimp only at hrow
  obtain ⟨hvret, hvover, hvforced, hvtimer, hvseek⟩ := latchSearches_ret { s with localCount := c } i.val
  have hdone : timerDone (latchSearches { s with localCount := c } i.val) (s.sp i.val).retTimer (s.sp i.val).retSeek = true := by
    rw [ht]
    exact timerDone_of_since hsince
  rw [if_pos (by rw [hvret, hvtimer, hvseek]; exact ⟨fun h => (by cases hret.symm.trans h), hdone⟩)] at hrow
  obtain ⟨hover, hkeeps, hsame, -, hforced, hframe⟩ := latchReturn_spec (hvover.trans hro)
  refine ⟨_, hrow, hover, hkeeps.trans (hvret.trans hret), hsame ▸ hsince, fun h => hforced (hvforced.trans h), ?_⟩
  rw [hframe]
  rfl

/-! ### A component's packet (R81, R82, R83) -/

/-- Presence and the latch of the searches touch nothing but the lane, the queues and the service's splice record. -/
theorem latched_frame (k : Nat) : let w := latchSearches (acceptInput s k) i
    w = { s with lanes := w.lanes, services := w.services, boxes := w.boxes }
    ∧ (∀ l, w.svc l = { s.svc l with sp := (w.svc l).sp }) ∧ ∀ l, l ≠ i → w.svc l = s.svc l := by
  intro w
  have hsvc (l : Nat) : w.svc l = _ := State.svc_modSvc (acceptInput s k) i l _
  refine ⟨?_, fun l => ?_, fun l hl => ?_⟩
  · show { acceptInput s k with services := w.services } = _
    conv => lhs; rw [acceptInput_frame]
    rfl
  · rw [hsvc, acceptInput_svc, acceptInput_svc]
    split
    · next h => rw [h]
    · rfl
  · rw [hsvc, if_neg hl, acceptInput_svc]

/-- Settles O31: a search and a return become overdue by their deadlines' rows, by their timers' rows, and a search at a packet. -/
theorem searchesAndReturnsBecomeOverdue : Obligations.SearchesAndReturnsBecomeOverdue := by
  refine ⟨fun s i x hr hn hph ho hcx hct hret => ⟨fun p hp hc hl => ?_, fun l0 ht hlim h0 h1 => ?_⟩,
    fun s i hr hro => ⟨fun p hret hc hl => ?_, fun l0 hret ht hn _ hct hlim h0 h1 => ?_⟩, fun s k i j b _ => ?_⟩
  · exact search_overdue_row hr hn hph ho hcx hp hc hl
  · exact search_timer_row hr hn hph ho hct hret ht hlim h0 h1
  · exact return_overdue_row hr hro hret hc hl
  · exact return_timer_row hr hro hret ht hn hct hlim h0 h1
  · obtain ⟨hframe, hsplice, hothers⟩ := latched_frame (s := s) (i := i) k.val
    refine ⟨_, ?_, hframe, hsplice, hothers, fun x hn hph => ?_, fun y hy => ?_⟩
    · split
      · next h => exact observed_excluded h
      · next h => exact observed_examined (Bool.eq_false_iff.2 h)
    · rw [latchSearches_acceptInput, latchSearches_seeking s hn hph]
      rfl
    · rw [latchSearches_acceptInput, latchSearches, State.sp_modSp, if_pos rfl]
      simp only [hy]

end Sys2Proof.Machine
end

section
/-! One run of the arming computation, case by case (R56 to R61), and the trigger that runs it (R53). -/

namespace Sys2Proof.Machine

variable {s t u : State} {i n k : Nat} {e : Entry}

/-! ### References that an ending entry lowers (R72) -/

theorem foldl_dropRef_clip (l : List Nat) (w : State) (c : Nat) :
    (l.foldl State.dropRef w).clip c = (w.clip c).map (fun x => { x with refs := x.refs - l.count c }) := by
  induction l generalizing w with
  | nil => simp
  | cons d r ih =>
    rw [List.foldl_cons, ih, State.dropRef, State.clip_setClip]
    by_cases h : c = d
    · subst h
      cases w.clip c <;> simp [Nat.sub_sub, Nat.add_comm]
    · rw [if_neg h, List.count_cons_of_ne (Ne.symm h)]

/-- An entry that is not ARMED ends: its event, its references lowered clip by clip, its record gone (R72). -/
theorem endEntry_outcome (r : EntryResult) (hst : e.st ≠ .armed) (hnum : e.num = n) : let u := endEntry s e r
    u.entry n = none ∧ (∀ m, m ≠ n → u.entry m = s.entry m)
    ∧ (∀ p, u.box p = if p = e.origin then
        pushBox (s.box p) (.entryEnd r n e.svc e.podIdx (e.pod.headD 0) e.sEff e.e) else s.box p)
    ∧ (∀ c, u.clip c = (s.clip c).map (fun x => { x with refs := x.refs - e.pod.count c }))
    ∧ u = { s with dir := u.dir, entries := u.entries, boxes := u.boxes } := by
  intro u
  subst hnum
  refine ⟨?_, fun m hm => ?_, endEntry_box r hst, fun c => ?_, endEntry_frame r hst⟩
  · exact (endEntry_entry r hst _).trans (if_pos rfl)
  · exact (endEntry_entry r hst m).trans (if_neg hm)
  · show (endEntry s e r).clip c = _
    rw [endEntry_eq r hst]
    exact foldl_dropRef_clip _ _ c

/-! ### The instance that an arming entry asks for (R61, R77) -/

/-- Only the splice record, the flags and the events of one service have changed, and the reads in the flash unit; LATEARM stands. -/
structure AskOnly (i : Nat) (s t : State) : Prop where
  frame : t = { s with services := t.services, boxes := t.boxes, flash := t.flash }
  others : ∀ j, j ≠ i → t.svc j = s.svc j
  latearm : (t.svc i).cond.flags.getLsbD Cond.latearm.pos = (s.svc i).cond.flags.getLsbD Cond.latearm.pos

namespace AskOnly

theorem refl (i : Nat) (s : State) : AskOnly i s s := ⟨rfl, fun _ _ => rfl, rfl⟩

theorem trans (h : AskOnly i s t) (k : AskOnly i t u) : AskOnly i s u where
  frame := by rw [k.frame, h.frame]
  others j hj := (k.others j hj).trans (h.others j hj)
  latearm := k.latearm.trans h.latearm

theorem of_splice (h : SpliceOnly i s t) : AskOnly i s t where
  frame := by rw [h.frame]
  others := h.others
  latearm := by rw [h.own]

/-- UNMAP is a flag beside LATEARM. -/
theorem raiseIf_unmap (b : Bool) : AskOnly i s (raiseIf b s i .unmap) := by
  unfold raiseIf
  split
  · refine ⟨?_, fun j hj => ?_, ?_⟩
    · rw [raise_frame]
    · rw [raise_svc, if_neg hj]
    · rw [raise_svc, if_pos rfl]
      simp [condBit, Cond.pos]
  · exact refl i s

theorem placeInst (i : Nat) (s : State) (q : InstReq) : AskOnly i s (placeInst s i q) := by
  unfold Machine.placeInst
  split
  · exact refl i s
  · split
    · exact refl i s
    · exact (of_splice (SpliceOnly.modSp i s _)).trans (raiseIf_unmap _)

theorem requestNext (i : Nat) (s : State) (q : InstReq) : AskOnly i s (requestNext s i q) := by
  unfold Machine.requestNext
  split
  · exact placeInst i s q
  · split
    · exact (of_splice (SpliceOnly.discardRole i s .next)).trans (placeInst i _ q)
    · exact of_splice (SpliceOnly.modSp i s _)

end AskOnly

/-- With the next role free or SEEKING, the request becomes its SEEKING instance (R77). -/
theorem requestNext_placed {q : InstReq} {r : ClipRec} {v : Seal} (hfree : ∀ x, (s.sp i).nxt = some x → x.phase = .seeking)
    (hr : s.clip q.clip = some r) (hv : r.sealVals = some v) :
    ∃ w, ((requestNext s i q).sp i).nxt = some (newInst w i q r v) := by
  have hplace (w : State) (hw : w.clip q.clip = some r) : ((placeInst w i q).sp i).nxt = some (newInst w i q r v) := by
    exact congrArg SpliceRec.nxt (placeInst_spec w i q hw hv).2.2.1
  unfold requestNext
  split
  · exact ⟨_, hplace s hr⟩
  · next x hx =>
    rw [if_pos (hfree x hx)]
    exact ⟨_, hplace _ hr⟩

/-- With a PLAYING instance in the next role, the request waits behind it (R77). -/
theorem requestNext_waits {q : InstReq} {x : Inst} (hx : (s.sp i).nxt = some x) (hp : x.phase ≠ .seeking) :
    ((requestNext s i q).sp i).nxt = some x ∧ ((requestNext s i q).sp i).waiting = some q := by
  simp only [requestNext, hx, if_neg hp]
  rw [State.sp_modSp, if_pos rfl]
  exact ⟨hx, rfl⟩

/-! ### The ARMED entry that gives way (R61, R64) -/

theorem armedEntry_svc {l : Entry} (h : armedEntry s i = some l) : l.svc = i :=
  ((mem_entriesOf s i l).1 (List.mem_of_find?_eq_some h)).2

theorem armedEntry_st {l : Entry} (h : armedEntry s i = some l) : l.st = .armed := by
  simpa using List.find?_some h

/-- The state in which an entry arms: the service's ARMED entry, if there is one, is demoted. -/
def State.yielded (s : State) (i : Nat) : State :=
  match armedEntry s i with
  | some l => demote s l
  | none => s

/-- Discarding what an entry asked for takes at most a SEEKING instance out of the next role (R77). -/
theorem discardSeeking_nxt (o : Owner) : ((discardSeeking s i o).sp i).nxt = (s.sp i).nxt
    ∨ ((discardSeeking s i o).sp i).nxt = none ∧ ∃ x, (s.sp i).nxt = some x ∧ x.phase = .seeking := by
  unfold discardSeeking
  extract_lets s1
  rw [State.sp_modSp, if_pos rfl]
  dsimp only [s1]
  split
  · next x hx =>
    split
    · next h =>
      obtain ⟨_, _, hd⟩ := discardRole_next_sp (s := s) (i := i)
      exact .inr ⟨by rw [hd], x, hx, h.1⟩
    · exact .inl rfl
  · exact .inl rfl

/-- The state of an arming: the lower entry has yielded, entry `n` is ARMED as `x`, and its clip is asked for. -/
def State.arming (s : State) (i n : Nat) (x : Entry) (q : InstReq) : State :=
  requestNext ((s.yielded i).setEntry n (some x)) i q

/-- What yielding changes: the schedule at the demoted entry, and the service's splice record. -/
theorem yielded_spec (s : State) (i : Nat) : ∃ d E, SpliceOnly i s d ∧ s.yielded i = { d with entries := E }
    ∧ ((d.sp i).nxt = (s.sp i).nxt ∨ (d.sp i).nxt = none ∧ ∃ x, (s.sp i).nxt = some x ∧ x.phase = .seeking)
    ∧ (∀ l, armedEntry s i = some l →
        (s.yielded i).entry l.num = some { l with st := .waiting .held, s := none, commitment := 0 })
    ∧ ∀ m, (∀ l, armedEntry s i = some l → m ≠ l.num) → (s.yielded i).entry m = s.entry m := by
  unfold State.yielded
  cases hl : armedEntry s i with
  | none => exact ⟨s, s.entries, SpliceOnly.refl i s, rfl, .inl rfl, fun _ h => absurd h.symm (Option.some_ne_none _), fun _ _ => rfl⟩
  | some l =>
    have hi : l.svc = i := armedEntry_svc hl
    subst hi
    have hd := SpliceOnly.discardSeeking l.svc s (.entry l.num)
    have hn := discardSeeking_nxt (s := s) (i := l.svc) (.entry l.num)
    dsimp only [demote]
    generalize discardSeeking s l.svc (.entry l.num) = d at hd hn ⊢
    refine ⟨d, Table.set none d.entries l.num (some { l with st := .waiting .held, s := none, commitment := 0 }), hd, rfl, hn, ?_,
      fun m hm => ?_⟩
    · rintro _ ⟨⟩
      exact State.entry_setEntry_self d _ _
    · refine (State.entry_setEntry d _ _ m).trans ((if_neg (hm l rfl)).trans ?_)
      rw [State.entry, hd.frame]
      rfl

/-! ### The cases of R60 -/

/-- The trigger time of a run: the recorded one, or the one converted from the target (R57). -/
def Entry.triggerTime (e : Entry) (s : State) : Option Nat :=
  match e.a, e.trigger with
  | none, .time t => convert s e.svc t
  | x, _ => x

/-- S: the later of the trigger time and the earliest feasible point (R58). -/
def Entry.spliceTime (e : Entry) (s : State) (f : Nat) : Nat :=
  match e.triggerTime s with
  | some x => if atOrAfter nPts x f = true then x else f
  | none => f

/-- The commitment that the ARMED entry of a service gives back (R65). -/
def State.givenBack (s : State) (i : Nat) : Nat :=
  match armedEntry s i with
  | some l => l.commitment
  | none => 0

theorem later_spliceTime (f : Nat) : later (e.triggerTime s) (some f) = some (e.spliceTime s f) := by
  unfold later Entry.spliceTime
  cases e.triggerTime s with
  | none => rfl
  | some x =>
    dsimp only
    split <;> rfl

theorem later_none (a : Option Nat) : later a none = none := by cases a <;> rfl

/-- What an undamaged entry's run does at the trigger time `a` and the splice time `o`, absent without a lead (R59 to R61). -/
def State.judgedAt (s : State) (n k : Nat) (e : Entry) (a o : Option Nat) : State × Bool :=
  match o with
  | none => (s.setEntry n (some { e with st := .waiting .clock, a := a }), false)
  | some sp =>
    if (e.window : Int) < lateness sp a then (endEntry s { e with a := a } .missed, false)
    else if levelOf e.origin ≤ heldLevel s e.svc then (s.setEntry n (some { e with st := .waiting .held, a := a }), false)
    else if (s.lane k).cfg.pool < committed s k - s.givenBack e.svc + podRate s e.pod then
      (s.setEntry n (some { e with st := .waiting .pool, a := a }), false)
    else
      (raiseIf (a.isSome && a != some sp)
        (s.arming e.svc n { e with st := .armed, a := a, s := some sp, commitment := podRate s e.pod }
          { clip := e.pod.headD 0, owner := .entry n, s := some sp }) e.svc .latearm, (armedEntry s e.svc).isSome)

theorem armRun_eq (he : s.entry n = some e) (hk : s.laneOf e.svc = some k) : armRun s n =
    if e.pod.any s.clipDamaged then (endEntry s e .faulted, false)
    else s.judgedAt n k e (e.triggerTime s) (later (e.triggerTime s) (earliest s e.svc)) := by
  obtain rfl : (s.laneOf e.svc).getD 0 = k := by rw [hk]; rfl
  unfold armRun
  rw [he]
  rfl

/-! ### LATEARM (R61) -/

theorem raiseIf_frame (b : Bool) (i : Nat) (c : Cond) :
    raiseIf b s i c = { s with services := (raiseIf b s i c).services, boxes := (raiseIf b s i c).boxes } := by
  cases b
  · rfl
  · exact raise_frame s i c

theorem raiseIf_svc_of_ne (b : Bool) (c : Cond) {j : Nat} (hj : j ≠ i) : (raiseIf b s i c).svc j = s.svc j := by
  cases b
  · rfl
  · exact (raise_svc s i c j).trans (if_neg hj)

theorem raiseIf_flag (b : Bool) (c : Cond) : ((raiseIf b s i c).svc i).cond.flags.getLsbD c.pos =
    ((s.svc i).cond.flags.getLsbD c.pos || b) := by
  cases b
  · exact (Bool.or_false _).symm
  · exact (raise_flag s i c).trans (Bool.or_true _).symm

/-! ### An entry arms (R61) -/

theorem arming_frame (x : Entry) (q : InstReq) : let u := s.arming i n x q
    u = { s with entries := u.entries, services := u.services, boxes := u.boxes, flash := u.flash }
    ∧ (∀ j, j ≠ i → u.svc j = s.svc j)
    ∧ (u.svc i).cond.flags.getLsbD Cond.latearm.pos = (s.svc i).cond.flags.getLsbD Cond.latearm.pos := by
  intro u
  obtain ⟨d, E, hd, hy, -⟩ := yielded_spec s i
  have ha : AskOnly i ((s.yielded i).setEntry n (some x)) u := AskOnly.requestNext i _ q
  rw [hy] at ha
  refine ⟨?_, fun j hj => (ha.others j hj).trans (hd.others j hj), ha.latearm.trans ?_⟩
  · rw [ha.frame]
    unfold State.setEntry
    dsimp only
    rw [hd.frame]
  · exact (AskOnly.of_splice hd).latearm

theorem arming_entry (x : Entry) (q : InstReq) (m : Nat) : (s.arming i n x q).entry m =
    if m = n then some x else (s.yielded i).entry m := by
  have ha : AskOnly i ((s.yielded i).setEntry n (some x)) (s.arming i n x q) := AskOnly.requestNext i _ q
  rw [State.entry, ha.frame]
  exact State.entry_setEntry (s.yielded i) n (some x) m

/-- What the next role holds when the entry asks: nothing that was not there, and all that was, but for a SEEKING instance. -/
theorem yielded_setEntry_nxt (x : Entry) : let w := (s.yielded i).setEntry n (some x)
    ((w.sp i).nxt = (s.sp i).nxt ∨ (w.sp i).nxt = none ∧ ∃ y, (s.sp i).nxt = some y ∧ y.phase = .seeking)
    ∧ ∀ c, w.clip c = s.clip c := by
  obtain ⟨d, E, hd, hy, hn, -⟩ := yielded_spec s i
  rw [hy]
  refine ⟨hn, fun c => ?_⟩
  show d.clip c = _
  rw [State.clip, hd.frame]
  rfl

/-- With the next role free or SEEKING, the entry's clip becomes its SEEKING instance (R77). -/
theorem arming_placed {x : Entry} {q : InstReq} {r : ClipRec} {v : Seal} (hfree : ∀ y, (s.sp i).nxt = some y → y.phase = .seeking)
    (hr : s.clip q.clip = some r) (hv : r.sealVals = some v) :
    ∃ y, ((s.arming i n x q).sp i).nxt = some y ∧ y.clip = q.clip ∧ y.owner = q.owner ∧ y.phase = .seeking
      ∧ y.s = q.s ∧ y.sealVals = v ∧ y.chain = r.chain := by
  obtain ⟨hnxt, hclip⟩ := yielded_setEntry_nxt (s := s) (i := i) (n := n) x
  have hask : ∀ y, (((s.yielded i).setEntry n (some x)).sp i).nxt = some y → y.phase = .seeking := fun y hy => by
    rcases hnxt with h | ⟨h, -⟩
    · exact hfree y (h.symm.trans hy)
    · cases h.symm.trans hy
  obtain ⟨w, hw⟩ := requestNext_placed hask ((hclip q.clip).trans hr) hv
  exact ⟨_, hw, rfl, rfl, rfl, rfl, rfl, rfl⟩

/-- With a PLAYING instance in the next role, the request waits (R77). -/
theorem arming_waits {x : Entry} {q : InstReq} {y : Inst} (hy : (s.sp i).nxt = some y) (hp : y.phase ≠ .seeking) :
    ((s.arming i n x q).sp i).nxt = some y ∧ ((s.arming i n x q).sp i).waiting = some q := by
  rcases (yielded_setEntry_nxt (s := s) (i := i) (n := n) x).1 with h | ⟨-, z, hz, hzp⟩
  · exact requestNext_waits (h.trans hy) hp
  · cases hz.symm.trans hy
    exact absurd hzp hp

/-- What R61 says of an entry that arms, the demotion and the request of its clip in it. -/
theorem armed_outcome (he : s.entry n = some e) (hst : e.st ≠ .armed) (x : Entry) (sp : Nat) (b : Bool) : let i := e.svc
    let q : InstReq := { clip := e.pod.headD 0, owner := .entry n, s := some sp }
    let u := raiseIf b (s.arming i n x q) i .latearm
    u.entry n = some x
    ∧ (∀ l, armedEntry s i = some l → s.entry l.num = some l →
        u.entry l.num = some { l with st := .waiting .held, s := none, commitment := 0 })
    ∧ (∀ m, m ≠ n → (∀ l, armedEntry s i = some l → m ≠ l.num) → u.entry m = s.entry m)
    ∧ u = { s with entries := u.entries, services := u.services, boxes := u.boxes, flash := u.flash }
    ∧ (∀ j, j ≠ i → u.svc j = s.svc j)
    ∧ (u.svc i).cond.flags.getLsbD Cond.latearm.pos = ((s.svc i).cond.flags.getLsbD Cond.latearm.pos || b)
    ∧ (∀ r v, (∀ y, (s.sp i).nxt = some y → y.phase = .seeking) → s.clip (e.pod.headD 0) = some r → r.sealVals = some v →
        ∃ y, (u.sp i).nxt = some y ∧ y.clip = e.pod.headD 0 ∧ y.owner = .entry n ∧ y.phase = .seeking
          ∧ y.s = some sp ∧ y.sealVals = v ∧ y.chain = r.chain)
    ∧ (∀ y, (s.sp i).nxt = some y → y.phase ≠ .seeking → (u.sp i).nxt = some y
        ∧ (u.sp i).waiting = some { clip := e.pod.headD 0, owner := .entry n, s := some sp }) := by
  intro i q u
  obtain ⟨_, _, -, -, -, hlower, hrest⟩ := yielded_spec s i
  obtain ⟨hframe, hothers, hlate⟩ := arming_frame (s := s) (i := i) (n := n) x q
  have hu : u = raiseIf b (s.arming i n x q) i .latearm := rfl
  have hentry (m : Nat) : u.entry m = if m = n then some x else (s.yielded i).entry m := by
    rw [hu, State.entry, raiseIf_frame]
    exact arming_entry x q m
  have hsp : u.sp i = (s.arming i n x q).sp i := raiseIf_sp _ _ _ _
  refine ⟨(hentry n).trans (if_pos rfl), fun l hl hown => ?_, fun m hm hml => ?_, ?_, fun j hj => ?_, ?_, fun r v hfree hr hv => ?_,
    fun y hy hp => ?_⟩
  · have hln : l.num ≠ n := by
      rintro rfl
      cases hown.symm.trans he
      exact hst (armedEntry_st hl)
    exact ((hentry _).trans (if_neg hln)).trans (hlower l hl)
  · exact ((hentry m).trans (if_neg hm)).trans (hrest m hml)
  · rw [hu, raiseIf_frame, hframe]
  · exact (raiseIf_svc_of_ne b .latearm hj).trans (hothers j hj)
  · exact (raiseIf_flag b .latearm).trans (by rw [hlate])
  · rw [hsp]
    exact arming_placed hfree hr hv
  · rw [hsp]
    exact arming_waits hy hp

/-! ### The outcome (R60) -/

section
variable {a : Option Nat} {sp : Nat}

theorem judgedAt_missed (hl : e.window < lateness sp a) :
    s.judgedAt n k e a (some sp) = (endEntry s { e with a := a } .missed, false) := if_pos hl

theorem judgedAt_held (hl : lateness sp a ≤ e.window) (hh : levelOf e.origin ≤ heldLevel s e.svc) :
    s.judgedAt n k e a (some sp) = (s.setEntry n (some { e with st := .waiting .held, a := a }), false) :=
  (if_neg (Int.not_lt.2 hl)).trans (if_pos hh)

theorem judgedAt_pool (hl : lateness sp a ≤ e.window) (hh : heldLevel s e.svc < levelOf e.origin)
    (hp : ¬committed s k - s.givenBack e.svc + podRate s e.pod ≤ (s.lane k).cfg.pool) :
    s.judgedAt n k e a (some sp) = (s.setEntry n (some { e with st := .waiting .pool, a := a }), false) :=
  (if_neg (Int.not_lt.2 hl)).trans ((if_neg (Nat.not_le.2 hh)).trans (if_pos (Nat.not_le.1 hp)))

theorem judgedAt_arms (hl : lateness sp a ≤ e.window) (hh : heldLevel s e.svc < levelOf e.origin)
    (hp : committed s k - s.givenBack e.svc + podRate s e.pod ≤ (s.lane k).cfg.pool) :
    s.judgedAt n k e a (some sp) = (raiseIf (a.isSome && a != some sp)
      (s.arming e.svc n { e with st := .armed, a := a, s := some sp, commitment := podRate s e.pod }
        { clip := e.pod.headD 0, owner := .entry n, s := some sp }) e.svc .latearm, (armedEntry s e.svc).isSome) :=
  (if_neg (Int.not_lt.2 hl)).trans ((if_neg (Nat.not_le.2 hh)).trans (if_neg (Nat.not_lt.2 hp)))

end

/-- A run of the arming computation on an entry that is not ARMED has the outcome that R60 gives it. -/
theorem armRun_outcome (he : s.entry n = some e) (hnum : e.num = n) (hst : e.st ≠ .armed) (hk : s.laneOf e.svc = some k) :
    ArmingOutcome s n k e (armRun s n).1 (armRun s n).2 := by
  have hrun (f : Nat) (hd : ¬∃ c ∈ e.pod, s.clipDamaged c = true) (hf : earliest s e.svc = some f) :
      armRun s n = s.judgedAt n k e (e.triggerTime s) (some (e.spliceTime s f)) := by
    rw [armRun_eq he hk, if_neg fun h => hd (List.any_eq_true.1 h), hf, later_spliceTime]
  refine ⟨fun hd => ?_, fun hd hf => ?_, fun f hd hf => ⟨fun hl => ?_, fun hl hh => ?_, fun hl hh hp => ?_, fun hl hh hp => ?_⟩⟩
  · rw [armRun_eq he hk, if_pos (List.any_eq_true.2 hd)]
    exact ⟨rfl, endEntry_outcome .faulted hst hnum⟩
  · rw [armRun_eq he hk, if_neg fun h => hd (List.any_eq_true.1 h), hf, later_none]
    exact ⟨rfl, rfl⟩
  · rw [hrun f hd hf, judgedAt_missed (a := e.triggerTime s) (sp := e.spliceTime s f) hl]
    exact ⟨rfl, endEntry_outcome (e := { e with a := e.triggerTime s }) .missed hst hnum⟩
  · rw [hrun f hd hf, judgedAt_held (a := e.triggerTime s) (sp := e.spliceTime s f) hl hh]
    exact ⟨rfl, rfl⟩
  · rw [hrun f hd hf, judgedAt_pool (a := e.triggerTime s) (sp := e.spliceTime s f) hl hh hp]
    exact ⟨rfl, rfl⟩
  · rw [hrun f hd hf, judgedAt_arms (a := e.triggerTime s) (sp := e.spliceTime s f) hl hh hp]
    exact ⟨rfl, armed_outcome he hst _ _ _⟩

/-! ### The trigger (R53) -/

/-- The count moves to the tick of a service time, unless the service time is there or past it (R23; log 2). -/
theorem advanceTo_fire {c : Nat} (hclk : (s.svc i).clk.st ≠ .unlocked) (hc : c < nClk) :
    if atOrAfter nClk (addMod nClk s.localCount (s.svc i).clk.sigma) c = true then advanceTo s (localOf s i c) = s
    else serviceTime (advanceTo s (localOf s i c)) i = some c := by
  rw [← atOrAfter_localOf]
  split
  · next h => exact advanceTo_of_reached h
  · next h =>
    have hlt : localOf s i c < nClk := subMod_lt _ _ _ (by decide)
    rw [advanceTo_of_ahead (Bool.eq_false_iff.2 h), Nat.mod_eq_of_lt hlt]
    exact (if_neg hclk).trans (congrArg some (addMod_localOf s i hc))

/-- Settles O29: the count moves to T − preroll unless it is there or past it, and the run has the outcome of R60. -/
theorem timeTriggerRunsArming : Obligations.TimeTriggerRunsArming := by
  intro s n e k tt hr he hnum hst htrig hk hmode hclk
  let fire := subMod nClk tt (msTicks (s.lane k).cfg.preroll)
  let s' := advanceTo s (localOf s e.svc fire)
  have hframe : s' = { s with localCount := s'.localCount } := by
    show advanceTo s _ = { s with localCount := (advanceTo s _).localCount }
    rw [advanceTo_eq]
  have he' : s'.entry n.val = some e := by rw [State.entry, hframe]; exact he
  have hk' : s'.laneOf e.svc = some k := by rw [State.laneOf, State.svc, hframe]; exact hk
  refine ⟨s', _, _, ?_, hframe, ?_, armRun_outcome he' hnum (by rw [hst]; nofun) hk'⟩
  · refine congrArg Host.Outcome.next (?_ : timeTrigger s n.val = _)
    have hlive : s.live e.svc = true := by simp [State.live, hk, hmode]
    have hcfg : s.cfgOf e.svc = (s.lane k).cfg := State.cfgOf_of_laneOf hk
    have hrun : armAndArbitrate s' n.val =
        if (armRun s' n.val).2 then poolFreed (armRun s' n.val).1 k else (armRun s' n.val).1 := by
      simp only [armAndArbitrate, he', hk', Option.getD_some]
    rw [← hrun]
    simp [timeTrigger, he, hst, htrig, serviceTime, hclk, hr, hlive, hcfg, s', fire]
  · exact advanceTo_fire hclk (subMod_lt _ _ _ (by decide))

end Sys2Proof.Machine
end

section
/-! A packet on a service's cue PID: its section, the cue memory, and the FIFO (R35 to R39, R45). -/

namespace Sys2Proof.Machine

variable {s t : State} {i : Nat} {b : Pkt} {c : CueRec} {f : Byte}

/-! ### The comparison with the memory (R39) -/

theorem compareCue_of_mem {m : List CueRec} (h : c ∈ m) : compareCue m c = (m, false) := by
  simp [compareCue, h]

/-- A cue that the memory does not hold is an update of its id and kind, or joins (R38, R39). -/
theorem compareCue_of_not_mem {m : List CueRec} (h : c ∉ m) : compareCue m c =
    (if ∃ x ∈ m, x.id = c.id ∧ x.kind = c.kind then m.filter (fun x => !(x.id == c.id && x.kind == c.kind)) ++ [c]
      else if m.length < 8 then m ++ [c] else m.tail ++ [c], true) := by
  have hsame : (m.any fun x => x.id == c.id && x.kind == c.kind) = true ↔ ∃ x ∈ m, x.id = c.id ∧ x.kind = c.kind := by simp
  unfold compareCue
  rw [if_neg (by simpa using h)]
  dsimp only
  by_cases hu : ∃ x ∈ m, x.id = c.id ∧ x.kind = c.kind
  · rw [if_pos (hsame.2 hu), if_pos hu]
  · rw [if_neg (mt hsame.1 hu), if_neg hu]
    by_cases hl : m.length < 8
    · rw [if_pos hl, if_neg (Nat.not_le.2 hl)]
    · rw [if_neg hl, if_pos (Nat.not_lt.1 hl)]

/-! ### What the acts of a cue leave -/

namespace Kept

theorem outCue (h : Kept s t) (i : Nat) (c : CueRec) (f : Byte) : Kept s (outCue t i c f) := by
  unfold Machine.outCue
  split
  · exact h
  · refine foldl _ (fun m hm => ?_) _ ((h.modEntry _ _).armAndArbitrate _)
    split
    · split
      · exact hm.endEntry _ _
      · exact hm
    · exact hm

theorem inCue (h : Kept s t) (i : Nat) (c : CueRec) : Kept s (inCue t i c) := by
  unfold Machine.inCue
  repeat' split
  · exact h.setE _ _
  · exact h.setE _ _
  · exact h.awaitLead _ _
  · exact h
  · exact h

theorem cancelCue (h : Kept s t) (i : Nat) (c : CueRec) : Kept s (cancelCue t i c) := by
  have hf := foldl _ (fun e he => endEntry he e .cancelled) (boundEntries t i c.id) h
  unfold Machine.cancelCue
  dsimp only
  split
  · exact hf.afterEnd i
  · exact hf

end Kept

/-! ### The section (R36, R39) -/

/-- The state whose service has compared a cue with its memory (R39). -/
def State.compared (s : State) (i : Nat) (c : CueRec) : State :=
  s.modSvc i (fun v => { v with cues := (compareCue v.cues c).1 })

/-- What a cue that is handed on does, by its kind: an OUT of an id that stands cancelled in the memory `m` does nothing
(R41, R43, R44). -/
def State.cueActed (s : State) (i : Nat) (m : List CueRec) (c : CueRec) (f : Byte) : State :=
  match c.kind with
  | .out => if cancelHeld m c then s else outCue s i c f
  | .into => inCue s i c
  | .cancel => cancelCue s i c

theorem cuePacket_failed (hs : (pktPusi b && hasPayload b) = true) (hp : parseCue (b.drop (payloadAt b)) = none) :
    cuePacket s i b = raise s i .cuebad := by
  simp only [cuePacket, hs, hp, if_true]

theorem cuePacket_passed (hs : (pktPusi b && hasPayload b) = true) (hp : parseCue (b.drop (payloadAt b)) = some (c, f)) :
    cuePacket s i b =
      if c ∈ (s.svc i).cues then s.compared i c else (s.compared i c).cueActed i (s.svc i).cues c f := by
  have hcmp : s.modSvc i (fun v => { v with cues := (compareCue (s.svc i).cues c).1 }) = s.compared i c := rfl
  simp only [cuePacket, hs, hp, if_true, hcmp]
  by_cases hm : c ∈ (s.svc i).cues
  · rw [compareCue_of_mem hm, if_pos hm]
    rfl
  · rw [compareCue_of_not_mem hm, if_neg hm]
    rfl

theorem cueActed_kept (m : List CueRec) : Kept s (s.cueActed i m c f) := by
  unfold State.cueActed
  split
  · split
    · exact Kept.refl s
    · exact (Kept.refl s).outCue i c f
  · exact (Kept.refl s).inCue i c
  · exact (Kept.refl s).cancelCue i c

theorem cuePacket_passed_kept (hs : (pktPusi b && hasPayload b) = true)
    (hp : parseCue (b.drop (payloadAt b)) = some (c, f)) : Kept (s.compared i c) (cuePacket s i b) := by
  rw [cuePacket_passed hs hp]
  split
  · exact Kept.refl _
  · exact cueActed_kept _

theorem compared_cues : ((s.compared i c).svc i).cues = (compareCue (s.svc i).cues c).1 := by
  rw [State.compared, State.svc_modSvc, if_pos rfl]

/-- A section changes no lane. -/
theorem cuePacket_lanes : (cuePacket s i b).lanes = s.lanes := by
  by_cases hs : (pktPusi b && hasPayload b) = true
  · cases hp : parseCue (b.drop (payloadAt b)) with
    | none => rw [cuePacket_failed hs hp, raise_lanes]
    | some x => exact (cuePacket_passed_kept hs (c := x.1) (f := x.2) hp).lanes
  · rw [cuePacket, if_neg hs]

theorem cuePacket_localCount : (cuePacket s i b).localCount = s.localCount := by
  by_cases hs : (pktPusi b && hasPayload b) = true
  · cases hp : parseCue (b.drop (payloadAt b)) with
    | none => rw [cuePacket_failed hs hp, raise_localCount]
    | some x => exact (cuePacket_passed_kept hs (c := x.1) (f := x.2) hp).localCount
  · rw [cuePacket, if_neg hs]

/-! ### The row -/

/-- The packet after its section has been read: STRIP keeps it from the FIFO, PASS lets it in (R45). -/
def State.cuePassed (s : State) (k : Nat) (d : ServiceDef) (b : Pkt) : State :=
  if d.strip then s else (enterFifo s k b false).1

/-- It changes its lane and, in a full FIFO, the event queues. -/
theorem cuePassed_frame (s : State) (k : Nat) (d : ServiceDef) (b : Pkt) : s.cuePassed k d b =
    { s with lanes := (s.cuePassed k d b).lanes, boxes := (s.cuePassed k d b).boxes } := by
  unfold State.cuePassed
  split
  · rfl
  · exact enterFifo_frame false

theorem cuePassed_fifo {k : Nat} (d : ServiceDef) (h : (s.lane k).fifo.length < 16384) : ((s.cuePassed k d b).lane k).fifo =
    (s.lane k).fifo ++ (if d.strip then [] else [{ pkt := b, stamp := s.localCount, resume := false }]) := by
  unfold State.cuePassed
  split
  · exact (List.append_nil _).symm
  · rw [enterFifo_of_room h, State.lane_setLane_self]

theorem exec_cue {k : Fin 4} {d : ServiceDef} (h : s.accepts k b) (hi : serviceOfPid s k.val (pktPid b) = some i)
    (hc : compIndex (s.svc i) (pktPid b) = none) (hd : (s.svc i).defn = some d) (he : excluded b = false) :
    exec (.packetArrival k b) s = .next (rest ((cuePacket (acceptInput s k.val) i b).cuePassed k.val d b)) := by
  refine congrArg Host.Outcome.next ((packetArrival_running h.released h.sync h.running).trans (congrArg rest ?_))
  simp only [classifyPacket, if_neg h.notNull, acceptInput_serviceOfPid, acceptInput_svc, hi, hc, cuePidPacket, hd, he,
    Bool.false_eq_true, if_false, State.cuePassed]

/-- Settles O17: the section on the service's memory, the packet on the lane; `rest` leaves both. -/
theorem cueSectionUpdatesCueMemory : Obligations.CueSectionUpdatesCueMemory := by
  intro s k i d b hr hb hm h0 hi hc hd he hs hroom m
  let v := acceptInput s k.val
  let w := cuePacket v i b
  have hv : v.svc i = s.svc i := acceptInput_svc s k.val i
  have hk : Kept (w.cuePassed k.val d b) (rest (w.cuePassed k.val d b)) := (Kept.refl _).rest
  have hsvc : (w.cuePassed k.val d b).svc i = w.svc i := by rw [cuePassed_frame]; rfl
  refine ⟨_, exec_cue ⟨hr, hb, hm, h0⟩ hi hc hd he, fun hp => ?_, fun c f hp => ?_, ?_⟩
  · have hw : w = raise v i .cuebad := cuePacket_failed hs hp
    refine ⟨(hk.cues i).trans ?_, hk.flags i _ ?_⟩
    · rw [hsvc, hw, ((Kept.refl v).raise i .cuebad).cues, hv]
    · rw [hsvc, hw]
      exact raise_flag v i .cuebad
  · rw [hk.cues, hsvc, (cuePacket_passed_kept hs hp).cues, compared_cues, hv]
    by_cases hmem : c ∈ m
    · rw [compareCue_of_mem hmem, if_pos hmem]
    · rw [compareCue_of_not_mem hmem, if_neg hmem]
  · have hlane : w.lane k.val = (s.lane k.val).seen s.localCount := by
      rw [State.lane, cuePacket_lanes]
      exact (acceptInput_lane s k.val k.val).trans (if_pos rfl)
    have hcount : w.localCount = s.localCount := cuePacket_localCount.trans (acceptInput_localCount s k.val)
    rw [hk.lane, cuePassed_fifo d (by rw [hlane]; exact hroom), hlane, hcount]
    rfl

end Sys2Proof.Machine
end

section
/-! Entries that end together, the order of entries, and a schedule that no entry joins (R48, R61, R66, R67, R72). -/

namespace Sys2Proof.Machine

variable {s t u : State} {i n : Nat} {e : Entry}

/-! ### Orders of entries (R66; log 31) -/

/-- The order by levels lists each entry once. -/
theorem byLevel_perm (es : List Entry) : (byLevel es).Perm (es.map (·.num)) := by
  have hlist (l : List Entry) : byLevel l = (l.filter fun e => levelOf e.origin == 3).map (·.num)
      ++ ((l.filter fun e => levelOf e.origin == 2).map (·.num) ++ (l.filter fun e => levelOf e.origin == 1).map (·.num)) := by
    simp [byLevel]
  induction es with
  | nil => exact List.Perm.refl _
  | cons e r ih =>
    rw [hlist] at ih ⊢
    cases ho : e.origin
    case tp =>
      simp only [List.filter_cons, ho, levelOf, Nat.reduceBEq, Bool.false_eq_true, if_false, if_true, List.map_cons]
      rw [← List.append_assoc] at ih ⊢
      exact List.perm_middle.trans (ih.cons _)
    case pp =>
      simp only [List.filter_cons, ho, levelOf, Nat.reduceBEq, Bool.false_eq_true, if_false, if_true, List.map_cons]
      exact List.perm_middle.trans (ih.cons _)
    case ap =>
      simp only [List.filter_cons, ho, levelOf, Nat.reduceBEq, Bool.false_eq_true, if_false, if_true, List.map_cons]
      exact ih.cons _

theorem insertNat_perm {b : Nat} {l : List Nat} (h : b ∉ l) : (insertNat b l).Perm (b :: l) := by
  induction l with
  | nil => exact List.Perm.refl _
  | cons x r ih =>
    obtain ⟨hx, hr⟩ := not_or.1 (mt List.mem_cons.2 h)
    rw [insertNat]
    split
    · exact List.Perm.refl _
    · exact ((ih hr).cons x).trans (List.Perm.swap b x r)

/-- Numbers without a repeat, put in ascending order, are the same numbers. -/
theorem foldr_insertNat_perm {l : List Nat} (h : l.Nodup) : (l.foldr insertNat []).Perm l := by
  induction l with
  | nil => exact List.Perm.refl _
  | cons b r ih =>
    obtain ⟨hb, hr⟩ := List.nodup_cons.1 h
    exact (insertNat_perm fun hm => hb ((ih hr).subset hm)).trans ((ih hr).cons b)

/-! ### One entry ends, ARMED or not (R72) -/

/-- An end changes the schedule and the queues on a state whose splice record may have lost the entry's search. -/
theorem endEntry_spliceOnly (s : State) (e : Entry) (r : EntryResult) : ∃ d, SpliceOnly e.svc s d ∧
    endEntry s e r = (e.pod.foldl State.dropRef (d.push e.origin (e.endEvent r))).setEntry e.num none := by
  refine ⟨if e.st = .armed then discardSeeking s e.svc (.entry e.num) else s, ?_, rfl⟩
  split
  · exact SpliceOnly.discardSeeking _ _ _
  · exact SpliceOnly.refl _ _

theorem endEntry_entries_any (r : EntryResult) : (endEntry s e r).entries = Table.set none s.entries e.num none := by
  obtain ⟨d, hd, he⟩ := endEntry_spliceOnly s e r
  rw [he, foldl_dropRef_frame, hd.frame]
  rfl

theorem endEntry_entry_any (r : EntryResult) (m : Nat) :
    (endEntry s e r).entry m = if m = e.num then none else s.entry m := by
  rw [State.entry, endEntry_entries_any, Table.get_set, State.entry]

theorem endEntry_box_any (r : EntryResult) (p : PortId) : (endEntry s e r).box p =
    if p = e.origin then pushBox (s.box p) (e.endEvent r) else s.box p := by
  obtain ⟨d, hd, he⟩ := endEntry_spliceOnly s e r
  rw [he, foldl_dropRef_frame, hd.frame]
  refine (State.box_push _ e.origin p _).trans ?_
  split
  · next hp => rw [hp]; rfl
  · rfl

/-! ### Entries that end one after the other -/

/-- The entries of a list end with one result, in the list's order. -/
def State.endAll (s : State) (r : EntryResult) (es : List Entry) : State := es.foldl (fun s e => endEntry s e r) s

theorem endAll_cons (r : EntryResult) (es : List Entry) : s.endAll r (e :: es) = (endEntry s e r).endAll r es := rfl

theorem endAll_kept (r : EntryResult) (es : List Entry) : Kept s (s.endAll r es) :=
  Kept.foldl _ (fun e h => h.endEntry e r) es (Kept.refl s)

theorem endAll_entry (r : EntryResult) (es : List Entry) (m : Nat) :
    (s.endAll r es).entry m = if m ∈ es.map (·.num) then none else s.entry m := by
  induction es generalizing s with
  | nil => rfl
  | cons e es ih =>
    rw [endAll_cons, ih, endEntry_entry_any, List.map_cons]
    by_cases hm : m = e.num
    · simp [hm]
    · simp [hm]

/-- Where the queue has room for the events of them all, the event of each stands in its origin's queue. -/
theorem endAll_event (r : EntryResult) {es : List Entry} (he : e ∈ es)
    (hroom : (s.box e.origin).queue.length + es.length ≤ 32) : e.endEvent r ∈ ((s.endAll r es).box e.origin).queue := by
  induction es generalizing s with
  | nil => cases he
  | cons x es ih =>
    rw [List.length_cons] at hroom
    rw [endAll_cons]
    rcases List.mem_cons.1 he with rfl | he
    · refine ((endAll_kept r es).grows _).subset ?_
      rw [endEntry_box_any, if_pos rfl]
      exact mem_pushBox _ _ (by omega)
    · refine ih he ?_
      rw [endEntry_box_any]
      split
      · have := pushBox_length_le (s.box e.origin) (x.endEvent r)
        omega
      · omega

/-! ### A schedule that no entry joins -/

/-- The schedule is canonical, and each record stands at its number (R48). -/
structure State.Numbered (s : State) : Prop where
  wf : Table.wf none s.entries = true
  num : ∀ n x, s.entry n = some x → x.num = n

/-- The schedule is numbered as before, and no entry has joined it. -/
structure NoneJoins (s t : State) : Prop where
  numbered : t.Numbered
  absent : ∀ n, s.entry n = none → t.entry n = none

theorem State.Numbered.of_entries (h : s.Numbered) (he : t.entries = s.entries) : t.Numbered where
  wf := by rw [he]; exact h.wf
  num n x hx := h.num n x (by rw [State.entry, ← he]; exact hx)

/-- A listed record is the one that its number reads. -/
theorem State.Numbered.entry_of_mem (h : s.Numbered) (he : e ∈ s.schedule) : s.entry e.num = some e := by
  obtain ⟨m, hm⟩ := (mem_schedule_iff h.wf e).1 he
  rw [h.num m e hm]
  exact hm

theorem State.Numbered.mem_entriesOf (h : s.Numbered) : e ∈ entriesOf s i ↔ s.entry e.num = some e ∧ e.svc = i := by
  rw [Machine.mem_entriesOf]
  exact and_congr_left fun _ => ⟨h.entry_of_mem, mem_schedule_of_entry⟩

/-- An entry that a search of the service's entries finds stands at its number. -/
theorem State.Numbered.entry_of_find (h : s.Numbered) {q : Entry → Bool} (he : (entriesOf s i).find? q = some e) :
    s.entry e.num = some e := (h.mem_entriesOf.1 (List.mem_of_find?_eq_some he)).1

namespace NoneJoins

theorem refl (h : s.Numbered) : NoneJoins s s := ⟨h, fun _ h => h⟩

theorem trans (h : NoneJoins s t) (k : NoneJoins t u) : NoneJoins s u := ⟨k.numbered, fun n hn => k.absent n (h.absent n hn)⟩

theorem of_entries (h : NoneJoins s t) (he : u.entries = t.entries) : NoneJoins s u :=
  ⟨h.numbered.of_entries he, fun n hn => by rw [State.entry, he]; exact h.absent n hn⟩

theorem present (h : NoneJoins s t) {x : Entry} (hx : t.entry n = some x) : s.entry n ≠ none :=
  fun hn => by cases hx.symm.trans (h.absent n hn)

/-- An entry is changed. -/
theorem setEntry_some (h : NoneJoins s t) (hn : s.entry n ≠ none) {x : Entry} (hx : x.num = n) :
    NoneJoins s (t.setEntry n (some x)) where
  numbered := by
    refine ⟨?_, fun m z hz => ?_⟩
    · rw [State.setEntry_entries]
      exact Table.wf_set none _ _ _ h.numbered.wf
    · rw [State.entry_setEntry] at hz
      split at hz
      · next hmn => cases hz; rw [hx, hmn]
      · exact h.numbered.num m z hz
  absent m hm := by
    rw [State.entry_setEntry, if_neg (by rintro rfl; exact hn hm)]
    exact h.absent m hm

theorem endEntry (h : NoneJoins s t) (e : Entry) (r : EntryResult) : NoneJoins s (endEntry t e r) := by
  refine h.trans ⟨⟨?_, fun m z hz => ?_⟩, fun m hm => ?_⟩
  · rw [endEntry_entries_any]
    exact Table.wf_set none _ _ _ h.numbered.wf
  · rw [endEntry_entry_any] at hz
    split at hz
    · cases hz
    · exact h.numbered.num m z hz
  · rw [endEntry_entry_any, hm, ite_self]

theorem endAll (h : NoneJoins s t) (r : EntryResult) (es : List Entry) : NoneJoins s (t.endAll r es) := by
  induction es generalizing t with
  | nil => exact h
  | cons e es ih => exact ih (h.endEntry e r)

theorem demote (h : NoneJoins s t) (he : t.entry e.num = some e) : NoneJoins s (demote t e) := by
  have hd := SpliceOnly.discardSeeking e.svc t (.entry e.num)
  exact (h.of_entries (by rw [hd.frame])).setEntry_some (h.present he) rfl

theorem yielded (h : NoneJoins s t) (i : Nat) : NoneJoins s (t.yielded i) := by
  unfold State.yielded
  split
  · next l hl => exact h.demote (h.numbered.entry_of_find hl)
  · exact h

theorem raiseIf (h : NoneJoins s t) (b : Bool) (i : Nat) (c : Cond) : NoneJoins s (raiseIf b t i c) :=
  h.of_entries (by rw [raiseIf_frame])

/-- An entry arms: the ARMED one of its service yields, and its clip is asked for. -/
theorem arming (h : NoneJoins s t) (hn : s.entry n ≠ none) {x : Entry} (hx : x.num = n) {q : InstReq} :
    NoneJoins s (t.arming i n x q) := by
  have ha : AskOnly i ((t.yielded i).setEntry n (some x)) (t.arming i n x q) := AskOnly.requestNext i _ q
  exact ((h.yielded i).setEntry_some hn hx).of_entries (by rw [ha.frame])

theorem judgedAt (h : NoneJoins s t) (he : t.entry n = some e) (k : Nat) (a o : Option Nat) :
    NoneJoins s (t.judgedAt n k e a o).1 := by
  have hn : e.num = n := h.numbered.num n e he
  have hset {w : State} (hw : NoneJoins s w) {x : Entry} (hx : x.num = n) : NoneJoins s (w.setEntry n (some x)) :=
    hw.setEntry_some (h.present he) hx
  unfold State.judgedAt
  split
  · exact hset h hn
  · split
    · exact h.endEntry _ _
    · split
      · exact hset h hn
      · split
        · exact hset h hn
        · refine (h.arming (h.present he) ?_).raiseIf _ _ _
          exact hn

/-- A run of the arming computation changes its entry and the ARMED one, or ends its own (R60, R61). -/
theorem armRun (h : NoneJoins s t) (n : Nat) : NoneJoins s (armRun t n).1 := by
  cases he : t.entry n with
  | none =>
    rw [show (Machine.armRun t n).1 = t by simp [Machine.armRun, he]]
    exact h
  | some e =>
    have hrun : Machine.armRun t n = if e.pod.any t.clipDamaged then (Machine.endEntry t e .faulted, false)
        else t.judgedAt n ((t.laneOf e.svc).getD 0) e (e.triggerTime t) (later (e.triggerTime t) (earliest t e.svc)) := by
      unfold Machine.armRun
      rw [he]
      rfl
    rw [hrun]
    split
    · exact h.endEntry _ _
    · exact h.judgedAt he _ _ _

theorem arbiterPass (h : NoneJoins s t) (l : List Nat) (d : Bool) : NoneJoins s (arbiterPass l t d).1 := by
  induction l generalizing t d with
  | nil => exact h
  | cons n r ih =>
    unfold Machine.arbiterPass
    split
    · dsimp only
      split
      · exact h.armRun n
      · exact ih (h.armRun n) _
    · exact ih h _

theorem poolFreed (h : NoneJoins s t) (k : Nat) : NoneJoins s (poolFreed t k) := by
  unfold Machine.poolFreed
  generalize 257 = m
  induction m generalizing t with
  | zero => exact h
  | succ m ih =>
    unfold Machine.arbiterLoop
    dsimp only
    split
    · exact ih (h.arbiterPass _ _)
    · exact h.arbiterPass _ _

theorem armAndArbitrate (h : NoneJoins s t) (n : Nat) : NoneJoins s (armAndArbitrate t n) := by
  unfold Machine.armAndArbitrate
  dsimp only
  split
  · exact (h.armRun n).poolFreed _
  · exact h.armRun n

theorem reeval (h : NoneJoins s t) (i : Nat) (c : WaitCause) : NoneJoins s (reeval t i c) := by
  unfold Machine.reeval
  generalize byLevel _ = l
  induction l generalizing t with
  | nil => exact h
  | cons n r ih =>
    unfold Machine.reevalList
    refine ih ?_
    split
    · exact h.armAndArbitrate n
    · exact h

/-- The releases that follow an end bring no entry back (R67, R72). -/
theorem afterEnd (h : NoneJoins s t) (i : Nat) : NoneJoins s (afterEnd t i) := (h.poolFreed _).reeval _ _

end NoneJoins

end Sys2Proof.Machine
end

section
/-! What an OUT, an IN and a CANCEL do to the schedule (R41 to R44). -/

namespace Sys2Proof.Machine

variable {s u : State} {i n : Nat} {e : Entry} {c : CueRec} {f : Byte} {b : Pkt}

/-! ### The entries that an OUT finds (R41) -/

theorem mem_byLevel_entriesOf (h : s.Numbered) {q : Entry → Bool} {m : Nat} :
    m ∈ byLevel ((entriesOf s i).filter q) ↔ ∃ x, s.entry m = some x ∧ x.svc = i ∧ q x = true := by
  rw [(byLevel_perm _).mem_iff, List.mem_map]
  constructor
  · rintro ⟨x, hx, rfl⟩
    obtain ⟨hm, hq⟩ := List.mem_filter.1 hx
    obtain ⟨he, hi⟩ := h.mem_entriesOf.1 hm
    exact ⟨x, he, hi, hq⟩
  · rintro ⟨x, hx, hi, hq⟩
    have hnum : x.num = m := h.num m x hx
    exact ⟨x, List.mem_filter.2 ⟨h.mem_entriesOf.2 ⟨by rw [hnum]; exact hx, hi⟩, hq⟩, hnum⟩

theorem byLevel_entriesOf_nodup (h : s.Numbered) (q : Entry → Bool) : (byLevel ((entriesOf s i).filter q)).Nodup :=
  (byLevel_perm _).nodup_iff.2 ((entriesOf_nums_nodup h.wf h.num).sublist (List.filter_sublist.map _))

/-! ### An OUT (R41, R42) -/

/-- The entry bound to the cue that fires it, the cue's splice time its trigger time (R42). -/
def Entry.bound (e : Entry) (c : CueRec) (f : Byte) : Entry :=
  { e with
    a := c.content.splice
    binding := some { cueId := c.id, flags := f, splice := c.content.splice, duration := c.content.duration
                      auto := c.content.auto } }

/-- The bound entry that waits for the clock (R42, R60). -/
def Entry.fired (e : Entry) (c : CueRec) (f : Byte) : Entry := { e.bound c f with st := .waiting .clock }

/-- Without a lead an undamaged entry that fires waits for the clock (R60). -/
theorem armAndArbitrate_leadless (he : s.entry n = some e) (hl : (s.svc e.svc).clk.leads = [])
    (hd : ∀ y ∈ e.pod, s.clipDamaged y = false) :
    armAndArbitrate s n = s.setEntry n (some { e with st := .waiting .clock }) := by
  have hgood : e.pod.any s.clipDamaged = false := List.any_eq_false.2 fun y hy => by simp [hd y hy]
  have hrun := armRun_leadless he hl
  rw [hgood] at hrun
  simp [armAndArbitrate, hrun]

/-- An entry that loses a cue to another ends SUPERSEDED (R41). -/
def supersede (tag : Nat) (s : State) (m : Nat) : State :=
  match s.entry m with
  | some e => if e.awaitsTag tag then endEntry s e .superseded else s
  | none => s

theorem outCue_eq {others : List Nat} (hw : byLevel ((entriesOf s i).filter (·.awaitsTag c.content.tag)) = n :: others)
    (he : s.entry n = some e) : outCue s i c f = (others.foldr insertNat []).foldl (supersede c.content.tag)
      (armAndArbitrate (s.setEntry n (some (e.bound c f))) n) := by
  have hbound : s.modEntry n (fun x => x.bound c f) = s.setEntry n (some (e.bound c f)) := by
    simp [State.modEntry, he]
  unfold outCue
  rw [hw, ← hbound]
  rfl

theorem map_num_filterMap_entry {l : List Nat} (h : ∀ m ∈ l, ∃ x, s.entry m = some x ∧ x.num = m) :
    (l.filterMap s.entry).map (·.num) = l := by
  induction l with
  | nil => rfl
  | cons m l ih =>
    obtain ⟨x, hx, hnum⟩ := h m List.mem_cons_self
    rw [List.filterMap_cons_some hx, List.map_cons, hnum, ih fun y hy => h y (List.mem_cons_of_mem _ hy)]

/-- Losers that all still wait end one after the other. -/
theorem foldl_supersede {tag : Nat} {l : List Nat} (hl : l.Nodup)
    (h : ∀ m ∈ l, ∃ x, s.entry m = some x ∧ x.num = m ∧ x.awaitsTag tag = true) :
    l.foldl (supersede tag) s = s.endAll .superseded (l.filterMap s.entry) := by
  induction l generalizing s with
  | nil => rfl
  | cons m l ih =>
    obtain ⟨x, hx, rfl, ha⟩ := h m List.mem_cons_self
    obtain ⟨hm, hl⟩ := List.nodup_cons.1 hl
    have hstep : supersede tag s x.num = endEntry s x .superseded := by simp [supersede, hx, ha]
    have hrest : ∀ y ∈ l, (endEntry s x .superseded).entry y = s.entry y := fun y hy => by
      rw [endEntry_entry_any, if_neg (by rintro rfl; exact hm hy)]
    rw [List.foldl_cons, hstep, List.filterMap_cons_some hx, endAll_cons, ih hl, List.filterMap_congr hrest]
    exact fun y hy => by rw [hrest y hy]; exact h y (List.mem_cons_of_mem _ hy)

/-- An OUT on a service without a lead: the first entry is bound and waits for the clock, the others end. -/
theorem outCue_fires (hs : s.Numbered) {others : List Nat}
    (hw : byLevel ((entriesOf s i).filter (·.awaitsTag c.content.tag)) = n :: others) (he : s.entry n = some e)
    (hl : (s.svc i).clk.leads = []) (hd : ∀ y ∈ e.pod, s.clipDamaged y = false) :
    n ∉ others ∧ ∃ es : List Entry, (es.map (·.num)).Perm others
      ∧ (∀ m x, m ∈ others → s.entry m = some x → x ∈ es ∧ x.svc = i)
      ∧ outCue s i c f = (s.setEntry n (some (e.fired c f))).endAll .superseded es := by
  have hfound {m : Nat} (hm : m ∈ n :: others) : ∃ x, s.entry m = some x ∧ x.svc = i ∧ x.awaitsTag c.content.tag = true :=
    (mem_byLevel_entriesOf hs).1 (hw ▸ hm)
  obtain ⟨hn, hnodup⟩ := List.nodup_cons.1 (hw ▸ byLevel_entriesOf_nodup hs _)
  let l := others.foldr insertNat []
  have hperm : l.Perm others := foldr_insertNat_perm hnodup
  have hlosers : ∀ m ∈ l, ∃ x, s.entry m = some x ∧ x.num = m ∧ x.awaitsTag c.content.tag = true := fun m hm => by
    obtain ⟨x, hx, -, ha⟩ := hfound (List.mem_cons_of_mem _ (hperm.subset hm))
    exact ⟨x, hx, hs.num m x hx, ha⟩
  have hi : e.svc = i := by
    obtain ⟨x, hx, hi, -⟩ := hfound List.mem_cons_self
    cases he.symm.trans hx
    exact hi
  let v := s.setEntry n (some (e.fired c f))
  have hfire : armAndArbitrate (s.setEntry n (some (e.bound c f))) n = v := by
    rw [armAndArbitrate_leadless (e := e.bound c f) (State.entry_setEntry_self s n _) (hi ▸ hl) hd, State.setEntry_setEntry]
    rfl
  have hsame : ∀ m ∈ l, v.entry m = s.entry m := fun m hm => by
    rw [State.entry_setEntry, if_neg (by rintro rfl; exact hn (hperm.subset hm))]
  refine ⟨hn, l.filterMap s.entry, ?_, fun m x hm hx => ?_, ?_⟩
  · rw [map_num_filterMap_entry fun m hm => by
      obtain ⟨x, hx, hnum, -⟩ := hlosers m hm
      exact ⟨x, hx, hnum⟩]
    exact hperm
  · obtain ⟨y, hy, hyi, -⟩ := hfound (List.mem_cons_of_mem _ hm)
    cases hx.symm.trans hy
    exact ⟨List.mem_filterMap.2 ⟨m, hperm.mem_iff.2 hm, hx⟩, hyi⟩
  · rw [outCue_eq hw he, hfire, foldl_supersede (hperm.nodup_iff.2 hnodup), List.filterMap_congr hsame]
    exact fun m hm => by rw [hsame m hm]; exact hlosers m hm

/-! ### An IN (R43) -/

/-- A return point fixed on an entry whose return has not begun: the entry has it, and the return goes toward it (R70, R95). -/
theorem setE_open (he : s.entry n = some e) (hi : e.svc = i) (hb : returnBegun s i = false) (x : Nat) :
    (setE s n x).entry n = some { e with e := some x } ∧ ((setE s n x).sp i).ret = .returning x
    ∧ ∀ m, m ≠ n → (setE s n x).entry m = s.entry m := by
  obtain ⟨hbegun, hret⟩ := Bool.or_eq_false_iff.1 hb
  have hopen : (s.sp i).ret ≠ .emergency := by simpa using hret
  let v := s.setEntry n (some { e with e := some x })
  have hset : setE s n x = v.modSp i (fun p => p.handed x (openTimer v i) (v.cfgOf i).seekLimit) := by
    rw [← handE_of_open (s := v) hbegun hopen, ← hi]
    simp only [setE, he, v]
  rw [hset]
  refine ⟨?_, ?_, fun m hm => ?_⟩
  · rw [State.modSp_entry, State.entry_setEntry_self]
  · rw [State.sp_modSp, if_pos rfl]
    rfl
  · rw [State.modSp_entry, State.entry_setEntry, if_neg hm]

section
variable (he : activeEntry s i = some e) (hm : e.retMode = .cue) (hc : e.boundTo c.id = true) (hb : returnBegun s i = false)
include he hm hc hb

theorem inCue_of_splice {x : Nat} (hx : c.content.splice = some x) : inCue s i c = setE s e.num x := by
  simp [inCue, he, hm, hc, hb, hx]

theorem inCue_of_estimate {x : Nat} (hs : c.content.splice = none) (hx : estimate s i = some x) :
    inCue s i c = setE s e.num x := by
  simp [inCue, he, hm, hc, hb, hs, hx]

theorem inCue_awaits (hs : c.content.splice = none) (hx : estimate s i = none) : inCue s i c = awaitLead s i false := by
  simp [inCue, he, hm, hc, hb, hs, hx]

end

/-! ### A CANCEL (R44) -/

theorem cancelCue_eq : cancelCue s i c =
    if (boundEntries s i c.id).any (fun e => e.st == .armed) then
      afterEnd (s.endAll .cancelled (boundEntries s i c.id)) i
    else s.endAll .cancelled (boundEntries s i c.id) := rfl

/-- The bound entries are gone, and their events stand in their queues. -/
theorem cancelCue_ends (hs : s.Numbered) (he : e ∈ boundEntries s i c.id) : (cancelCue s i c).entry e.num = none
    ∧ ((s.box e.origin).queue.length + (boundEntries s i c.id).length ≤ 32 →
        e.endEvent .cancelled ∈ ((cancelCue s i c).box e.origin).queue) := by
  have hgone : (s.endAll .cancelled (boundEntries s i c.id)).entry e.num = none := by
    rw [endAll_entry, if_pos (List.mem_map_of_mem he)]
  have hjoin := (NoneJoins.refl hs).endAll .cancelled (boundEntries s i c.id)
  rw [cancelCue_eq]
  split
  · refine ⟨((NoneJoins.refl hjoin.numbered).afterEnd i).absent _ hgone, fun hroom => ?_⟩
    exact ((Kept.afterEnd (Kept.refl _) i).grows _).subset (endAll_event .cancelled he hroom)
  · exact ⟨hgone, endAll_event .cancelled he⟩

/-- Where none of them is ARMED, no other entry changes. -/
theorem cancelCue_entry_of_waiting (h : ∀ e ∈ boundEntries s i c.id, e.st ≠ .armed) {m : Nat}
    (hm : ∀ e ∈ boundEntries s i c.id, e.num ≠ m) : (cancelCue s i c).entry m = s.entry m := by
  rw [cancelCue_eq, if_neg, endAll_entry, if_neg]
  · simpa using hm
  · simpa using h

/-! ### The state on which a cue acts -/

/-- The packet has been seen on its lane, and its cue compared with the service's memory. -/
def State.heard (s : State) (k i : Nat) (c : CueRec) : State := (acceptInput s k).compared i c

section
variable (s) (k : Nat) (i : Nat) (c : CueRec)

theorem heard_frame : s.heard k i c = { s with
    lanes := (s.heard k i c).lanes, services := (s.heard k i c).services, boxes := (s.heard k i c).boxes } := by
  have hw : s.heard k i c = { acceptInput s k with services := (s.heard k i c).services } := rfl
  generalize (s.heard k i c).services = v at hw
  rw [hw, acceptInput_frame]

theorem heard_svc (j : Nat) : (s.heard k i c).svc j = { s.svc j with cues := ((s.heard k i c).svc j).cues } := by
  rw [State.heard, State.compared, State.svc_modSvc, acceptInput_svc, acceptInput_svc]
  split
  · next h => rw [h]
  · rfl

theorem heard_entries : (s.heard k i c).entries = s.entries := by rw [heard_frame]
theorem heard_entry (m : Nat) : (s.heard k i c).entry m = s.entry m := by rw [heard_frame]; rfl
theorem heard_clk (j : Nat) : ((s.heard k i c).svc j).clk = (s.svc j).clk := by rw [heard_svc]
theorem heard_sp (j : Nat) : (s.heard k i c).sp j = s.sp j := by rw [State.sp, heard_svc]; rfl
theorem heard_clipDamaged (y : Nat) : (s.heard k i c).clipDamaged y = s.clipDamaged y := by rw [heard_frame]; rfl
theorem heard_entriesOf (j : Nat) : entriesOf (s.heard k i c) j = entriesOf s j := by
  rw [entriesOf, State.schedule, heard_entries]; rfl
theorem heard_activeEntry (j : Nat) : activeEntry (s.heard k i c) j = activeEntry s j := by
  rw [activeEntry, heard_entriesOf]; rfl
theorem heard_estimate (j : Nat) : estimate (s.heard k i c) j = estimate s j := by
  have hcount : (s.heard k i c).localCount = s.localCount := by rw [heard_frame]
  simp only [estimate, leadPoint, serviceTime, lead, heard_clk, hcount]
theorem heard_returnBegun (j : Nat) : returnBegun (s.heard k i c) j = returnBegun s j := by
  rw [returnBegun, heard_sp]; rfl
theorem heard_boundEntries (j x : Nat) : boundEntries (s.heard k i c) j x = boundEntries s j x := by
  rw [boundEntries, heard_entriesOf]; rfl

/-- At most the event of the input has joined a queue (R7). -/
theorem heard_queue (p : PortId) : ((s.heard k i c).box p).queue.length ≤ (s.box p).queue.length + 1 := by
  rw [State.heard, State.compared, State.modSvc_box, acceptInput_box]
  split
  · omega
  · exact pushBox_length_le _ _

end

/-! ### The packet into the FIFO, after its cue -/

theorem cuePassed_entries (k : Nat) (d : ServiceDef) : (s.cuePassed k d b).entries = s.entries := by rw [cuePassed_frame]
theorem cuePassed_entry (k : Nat) (d : ServiceDef) (m : Nat) : (s.cuePassed k d b).entry m = s.entry m := by
  rw [cuePassed_frame]; rfl
theorem cuePassed_sp (k : Nat) (d : ServiceDef) (j : Nat) : (s.cuePassed k d b).sp j = s.sp j := by rw [cuePassed_frame]; rfl

theorem cuePassed_grows (k : Nat) (d : ServiceDef) (p : PortId) :
    (s.box p).queue <+: ((s.cuePassed k d b).box p).queue := by
  unfold State.cuePassed enterFifo
  dsimp only
  split
  · exact List.prefix_rfl
  · split
    · exact List.prefix_rfl
    · dsimp only
      split
      · exact List.prefix_rfl
      · rw [State.box_pushAll]
        exact pushBox_grows _ _

theorem cancelHeld_iff {m : List CueRec} : cancelHeld m c = true ↔ ∃ x ∈ m, x.id = c.id ∧ x.kind = .cancel := by
  simp [cancelHeld]

theorem lead_eq_none (h : lead s i = none) : (s.svc i).clk.leads = [] := by
  unfold lead leastLead at h
  split at h
  · assumption
  · cases h

end Sys2Proof.Machine
end

section
/-! O18: what a cue that is handed on does to the schedule. -/

namespace Sys2Proof.Machine

variable {s : State} {i k n : Nat} {e : Entry} {c : CueRec} {f : Byte} {b : Pkt} {d : ServiceDef}

/-- The state once a new or updated cue has acted and its packet has gone on. -/
def State.afterCue (s : State) (k i : Nat) (d : ServiceDef) (b : Pkt) (c : CueRec) (f : Byte) : State :=
  ((s.heard k i c).cueActed i (s.svc i).cues c f).cuePassed k d b

theorem exec_cue_new {k : Fin 4} (h : s.accepts k b) (hi : serviceOfPid s k.val (pktPid b) = some i)
    (hc : compIndex (s.svc i) (pktPid b) = none) (hd : (s.svc i).defn = some d) (he : excluded b = false)
    (hs : (pktPusi b && hasPayload b) = true) (hp : parseCue (b.drop (payloadAt b)) = some (c, f))
    (hnew : c ∉ (s.svc i).cues) : exec (.packetArrival k b) s = .next (rest (s.afterCue k.val i d b c f)) := by
  rw [exec_cue h hi hc hd he, cuePacket_passed hs hp, acceptInput_svc, if_neg hnew]
  rfl

theorem State.Numbered.heard (hs : s.Numbered) (k i : Nat) (c : CueRec) : (s.heard k i c).Numbered :=
  hs.of_entries (heard_entries s k i c)

/-- Entry `n`, which stood as `e`, has ended: its event stands where its queue had room for `room` more beside the input's. -/
def State.entryEnded (s u : State) (i : Nat) (r : EntryResult) (n : Nat) (e : Entry) (room : Nat) : Prop :=
  u.entry n = none
  ∧ ((s.box e.origin).queue.length + room + 1 < 32 →
      Event.entryEnd r n i e.podIdx (e.pod.headD 0) e.sEff e.e ∈ (u.box e.origin).queue)

/-- The queue of a state that has heard a cue has the room that is asked for. -/
theorem heard_room {p : PortId} {room : Nat} (h : (s.box p).queue.length + room + 1 < 32) :
    ((s.heard k i c).box p).queue.length + room ≤ 32 := by
  have := heard_queue s k i c p
  omega

/-! ### An OUT (R41, R42) -/

theorem afterCue_out (hk : c.kind = .out) : s.afterCue k i d b c f =
    (if cancelHeld (s.svc i).cues c then s.heard k i c else outCue (s.heard k i c) i c f).cuePassed k d b := by
  rw [State.afterCue, State.cueActed, hk]

/-- The schedule stays when an OUT finds its id cancelled, or no entry. -/
theorem afterCue_out_nothing (hk : c.kind = .out) (h : (∃ x ∈ (s.svc i).cues, x.id = c.id ∧ x.kind = .cancel)
      ∨ byLevel ((entriesOf s i).filter (·.awaitsTag c.content.tag)) = []) :
    (s.afterCue k i d b c f).entries = s.entries := by
  rw [afterCue_out hk, cuePassed_entries]
  split
  · exact heard_entries s k i c
  · next hcan =>
    have hnone := h.resolve_left (mt cancelHeld_iff.2 hcan)
    unfold outCue
    rw [heard_entriesOf, hnone]
    exact heard_entries s k i c

/-- The first entry is bound and waits for the clock, the others with the tag end SUPERSEDED, and no other changes. -/
theorem afterCue_out_fires (hs : s.Numbered) {others : List Nat} (hk : c.kind = .out)
    (hcan : ¬∃ x ∈ (s.svc i).cues, x.id = c.id ∧ x.kind = .cancel)
    (hw : byLevel ((entriesOf s i).filter (·.awaitsTag c.content.tag)) = n :: others) (he : s.entry n = some e)
    (hl : lead s i = none) (hd : ∀ y ∈ e.pod, s.clipDamaged y = false) : let u := s.afterCue k i d b c f
    u.entry n = some (e.fired c f)
    ∧ (∀ m x, m ∈ others → s.entry m = some x → s.entryEnded u i .superseded m x others.length)
    ∧ ∀ m, m ≠ n → m ∉ others → u.entry m = s.entry m := by
  intro u
  obtain ⟨hn, es, hes, hloser, hout⟩ := outCue_fires (f := f) (hs.heard k i c) (by rw [heard_entriesOf]; exact hw)
    ((heard_entry s k i c n).trans he) (by rw [heard_clk]; exact lead_eq_none hl)
    (fun y hy => by rw [heard_clipDamaged]; exact hd y hy)
  have hu : u = _ := (afterCue_out hk).trans (congrArg (State.cuePassed · k d b) ((if_neg (mt cancelHeld_iff.1 hcan)).trans hout))
  have hent (m : Nat) : u.entry m = if m ∈ others then none
      else if m = n then some (e.fired c f) else s.entry m := by
    rw [hu, cuePassed_entry, endAll_entry, State.entry_setEntry, heard_entry]
    simp only [hes.mem_iff]
  refine ⟨?_, fun m x hm hx => ⟨(hent m).trans (if_pos hm), fun hroom => ?_⟩, fun m hmn hm => ?_⟩
  · exact (hent n).trans ((if_neg hn).trans (if_pos rfl))
  · obtain ⟨hmem, hi⟩ := hloser m x hm ((heard_entry s k i c m).trans hx)
    have hlen : es.length = others.length := by simpa using hes.length_eq
    have hfit : ((s.heard k i c).box x.origin).queue.length + es.length ≤ 32 := by
      rw [hlen]
      exact heard_room hroom
    rw [hu, ← hs.num m x hx, ← hi]
    rw [← hi] at hfit
    exact (cuePassed_grows k d _).subset (endAll_event .superseded hmem hfit)
  · exact (hent m).trans ((if_neg hm).trans (if_neg hmn))

/-! ### An IN (R43) -/

section
variable (hk : c.kind = .into) (he : activeEntry s i = some e) (hm : e.retMode = .cue)
  (hc : e.boundTo c.id = true) (hb : returnBegun s i = false)
include hk he hm hc hb

/-- The return point of an IN: the cue's splice time, or else the estimate. -/
theorem afterCue_in_fixes (hs : s.Numbered) {x : Nat} (hx : c.content.splice = some x ∨ c.content.splice = none ∧ estimate s i = some x) :
    let u := s.afterCue k i d b c f
    u.entry e.num = some { e with e := some x } ∧ (u.sp i).ret = .returning x ∧ ∀ m, m ≠ e.num → u.entry m = s.entry m := by
  intro u
  have hact : activeEntry (s.heard k i c) i = some e := (heard_activeEntry s k i c i).trans he
  have hbeg : returnBegun (s.heard k i c) i = false := (heard_returnBegun s k i c i).trans hb
  have hin : inCue (s.heard k i c) i c = setE (s.heard k i c) e.num x := by
    rcases hx with hx | ⟨hn, hx⟩
    · exact inCue_of_splice hact hm hc hbeg hx
    · exact inCue_of_estimate hact hm hc hbeg hn ((heard_estimate s k i c i).trans hx)
  have hu : u = (setE (s.heard k i c) e.num x).cuePassed k d b := by
    rw [← hin]
    simp only [u, State.afterCue, State.cueActed, hk]
  obtain ⟨hfixed, hret, hothers⟩ := setE_open ((hs.heard k i c).entry_of_find hact) (activeEntry_svc hact) hbeg x
  rw [hu]
  refine ⟨(cuePassed_entry k d _).trans hfixed, (congrArg SpliceRec.ret (cuePassed_sp k d i)).trans hret, fun m hm => ?_⟩
  exact (cuePassed_entry k d m).trans ((hothers m hm).trans (heard_entry s k i c m))

/-- Without either it is awaited from the next lead PES start. -/
theorem afterCue_in_awaits (hn : c.content.splice = none) (hx : estimate s i = none) : let u := s.afterCue k i d b c f
    u.entries = s.entries ∧ (u.sp i).fixE = true := by
  intro u
  have hin : inCue (s.heard k i c) i c = awaitLead (s.heard k i c) i false :=
    inCue_awaits ((heard_activeEntry s k i c i).trans he) hm hc ((heard_returnBegun s k i c i).trans hb) hn
      ((heard_estimate s k i c i).trans hx)
  have hu : u = (awaitLead (s.heard k i c) i false).cuePassed k d b := by
    rw [← hin]
    simp only [u, State.afterCue, State.cueActed, hk]
  rw [hu, cuePassed_entries, cuePassed_sp, awaitLead, State.sp_modSp, if_pos rfl]
  exact ⟨heard_entries s k i c, rfl⟩

end

/-! ### A CANCEL (R44) -/

theorem afterCue_cancel (hk : c.kind = .cancel) :
    s.afterCue k i d b c f = (cancelCue (s.heard k i c) i c).cuePassed k d b := by
  rw [State.afterCue, State.cueActed, hk]

/-- Every bound entry that waits or is ARMED ends CANCELLED. -/
theorem afterCue_cancel_ends (hs : s.Numbered) (hk : c.kind = .cancel) (he : e ∈ boundEntries s i c.id) :
    s.entryEnded (s.afterCue k i d b c f) i .cancelled e.num e (boundEntries s i c.id).length := by
  have hsvc : e.svc = i := ((mem_entriesOf s i e).1 (List.mem_filter.1 he).1).2
  obtain ⟨hgone, hevent⟩ := cancelCue_ends (c := c) (hs.heard k i c) (by rw [heard_boundEntries]; exact he)
  rw [heard_boundEntries] at hevent
  rw [afterCue_cancel hk]
  refine ⟨(cuePassed_entry k d _).trans hgone, fun hroom => (cuePassed_grows k d _).subset ?_⟩
  rw [← hsvc] at hevent hroom ⊢
  exact hevent (heard_room hroom)

theorem afterCue_cancel_others (hk : c.kind = .cancel) (h : ∀ e ∈ boundEntries s i c.id, e.st ≠ .armed) {m : Nat}
    (hm : ∀ e ∈ boundEntries s i c.id, e.num ≠ m) : (s.afterCue k i d b c f).entry m = s.entry m := by
  rw [← heard_boundEntries s k i c] at h hm
  rw [afterCue_cancel hk, cuePassed_entry, cancelCue_entry_of_waiting h hm, heard_entry]

/-! ### The obligation -/

/-- Settles O18, kind by kind: the cue acts on the state that has heard it, and its packet's way on touches no entry. -/
theorem cueActsOnSchedule : Obligations.CueActsOnSchedule := by
  intro s k i d b c f ha hi hc hd he hs hp hnew hwf hnum cancelled waiting bound ended
  have hN : s.Numbered := ⟨hwf, hnum⟩
  refine ⟨_, exec_cue_new ha hi hc hd he hs hp hnew, fun hk h => ?_, fun n e others hk hcan hw hen hl hgood => ?_,
    fun e hk hact hret hbound hbegun => ⟨fun x hx => ?_, fun x hn hx => ?_, fun hn hx => ?_⟩,
    fun hk => ⟨fun e hmem => ?_, fun hst m hm => ?_⟩⟩
  · exact afterCue_out_nothing hk h
  · exact afterCue_out_fires hN hk hcan hw hen hl hgood
  · exact afterCue_in_fixes hk hact hret hbound hbegun hN (.inl hx)
  · exact afterCue_in_fixes hk hact hret hbound hbegun hN (.inr ⟨hn, hx⟩)
  · exact afterCue_in_awaits hk hact hret hbound hbegun hn hx
  · exact afterCue_cancel_ends hN hk hmem
  · exact afterCue_cancel_others hk hst hm

end Sys2Proof.Machine
end

section
/-! O51: Cancel Entry, by the state of its entry (R72 to R74). -/

namespace Sys2Proof.Machine

variable {s : State} {p : PortId} {n : Nat} {e : Entry}

/-! ### One entry ends, ARMED or not (R72) -/

/-- Entry `n`, which stood as `e`, is gone: no other changed, its event was handed to its port, its references are lowered. -/
structure State.EntryGone (s u : State) (r : EntryResult) (n : Nat) (e : Entry) : Prop where
  gone : u.entry n = none
  others : ∀ m, m ≠ n → u.entry m = s.entry m
  box : ∀ q, u.box q = if q = e.origin then
    pushBox (s.box q) (.entryEnd r n e.svc e.podIdx (e.pod.headD 0) e.sEff e.e) else s.box q
  clip : ∀ c, u.clip c = (s.clip c).map (fun x => { x with refs := x.refs - e.pod.count c })

theorem endEntry_gone (r : EntryResult) (hnum : e.num = n) : s.EntryGone (endEntry s e r) r n e := by
  subst hnum
  refine ⟨by rw [endEntry_entry_any, if_pos rfl], fun m hm => by rw [endEntry_entry_any, if_neg hm],
    fun q => endEntry_box_any r q, fun c => ?_⟩
  obtain ⟨d, hd, he⟩ := endEntry_spliceOnly s e r
  rw [he]
  refine (foldl_dropRef_clip _ _ c).trans ?_
  have hc : (d.push e.origin (e.endEvent r)).clip c = s.clip c := by
    rw [hd.frame]
    rfl
  rw [hc]

/-- What the end of an ARMED entry changes beside: the splice record of its service, and the reads that go with its prefetch. -/
theorem endEntry_frame_any (r : EntryResult) : let u := endEntry s e r
    u = { s with dir := u.dir, entries := u.entries, services := u.services, flash := u.flash, boxes := u.boxes }
    ∧ ∀ j, j ≠ e.svc → u.svc j = s.svc j := by
  intro u
  obtain ⟨d, hd, he⟩ := endEntry_spliceOnly s e r
  have hu : u = _ := he
  rw [foldl_dropRef_frame] at hu
  refine ⟨?_, fun j hj => ?_⟩
  · rw [hu]
    generalize (e.pod.foldl State.dropRef (d.push e.origin (e.endEvent r))).dir = D
    rw [hd.frame]
    rfl
  · rw [hu]
    exact hd.others j hj

/-- An ARMED entry that ends takes its search and its waiting request with it (R72, R77). -/
theorem discardSeeking_discards (s : State) (i : Nat) (o : Owner) : let u := discardSeeking s i o
    (∀ x, (s.sp i).nxt = some x → x.owner = o → x.phase = .seeking → (u.sp i).nxt = none)
    ∧ ∀ q, (s.sp i).waiting = some q → q.owner = o → (u.sp i).waiting = none := by
  refine ⟨fun x hx ho hp => ?_, fun q hq ho => ?_⟩
  · obtain ⟨h, r, hd⟩ := discardRole_next_sp (s := s) (i := i)
    rw [discardSeeking, State.sp_modSp, if_pos rfl]
    simp only [hx, hp, ho, and_self, if_true, hd]
  · have hw : ∀ v : State, (v.sp i).waiting = some q →
        ((v.modSp i (fun p => { p with waiting := if p.waiting.map (·.owner) = some o then none else p.waiting })).sp i).waiting
          = none := fun v hv => by
      rw [State.sp_modSp, if_pos rfl]
      simp [hv, ho]
    refine hw _ ?_
    split
    · split
      · obtain ⟨h, r, hd⟩ := discardRole_next_sp (s := s) (i := i)
        rw [hd]
        exact hq
      · exact hq
    · exact hq

theorem endEntry_sp_armed (r : EntryResult) (hst : e.st = .armed) :
    (endEntry s e r).sp e.svc = (discardSeeking s e.svc (.entry e.num)).sp e.svc := by
  rw [endEntry, if_pos hst, foldl_dropRef_frame]
  rfl

/-! ### The cancelled ACTIVE entry (R74) -/

theorem cancelActive_again (h : e.cancelled = true) : cancelActive s e = s := by simp [cancelActive, h]

theorem returnBegun_iff {i : Nat} : returnBegun s i = true ↔ (s.sp i).retBegun = true ∨ (s.sp i).ret = .emergency := by
  simp [returnBegun]

section
variable (h : e.cancelled = false)
include h

theorem cancelActive_begun (hb : returnBegun s e.svc = true) :
    cancelActive s e = s.setEntry e.num (some { e with cancelled := true }) := by
  simp only [cancelActive, h]
  exact if_pos hb

theorem cancelActive_open (hb : returnBegun s e.svc = false) :
    cancelActive s e =
      match estimate s e.svc with
      | some x => if ∃ y, e.e = some y ∧ sdiff nPts y x < 0 then s.setEntry e.num (some { e with cancelled := true })
          else setE (s.setEntry e.num (some { e with cancelled := true })) e.num x
      | none => awaitLead (s.setEntry e.num (some { e with cancelled := true, e := none })) e.svc true := by
  have hest : estimate (s.setEntry e.num (some { e with cancelled := true })) e.svc = estimate s e.svc := rfl
  unfold cancelActive
  simp only [h, hb, Bool.false_eq_true, if_false]
  cases estimate s e.svc with
  | none => simp [State.setEntry_setEntry]
  | some x => cases e.e <;> simp

end

/-- A return point that an open return takes, written out (R70, R95). -/
theorem setE_of_open (he : s.entry n = some e) (hb : returnBegun s e.svc = false) (x : Nat) :
    setE s n x = (s.setEntry n (some { e with e := some x })).modSp e.svc
      (fun p => p.handed x (openTimer s e.svc) (s.cfgOf e.svc).seekLimit) := by
  obtain ⟨hbegun, hret⟩ := Bool.or_eq_false_iff.1 hb
  simp only [setE, he]
  have hopen : (s.sp e.svc).ret ≠ .emergency := by simpa using hret
  exact handE_of_open (s := s.setEntry n _) hbegun hopen x

/-- The same of an entry that has just been cancelled. -/
theorem setE_cancelled (hb : returnBegun s e.svc = false) (x : Nat) :
    setE (s.setEntry n (some { e with cancelled := true })) n x =
      (s.setEntry n (some { e with cancelled := true, e := some x })).modSp e.svc
        (fun p => p.handed x (openTimer s e.svc) (s.cfgOf e.svc).seekLimit) := by
  rw [setE_of_open (State.entry_setEntry_self s n _) (by exact hb), State.setEntry_setEntry]
  rfl

/-- What Cancel Entry of an ACTIVE entry makes of the state (R74). -/
structure CancelledActive (s u : State) (n : Nat) (e : Entry) : Prop where
  others : ∀ m, m ≠ n → u.entry m = s.entry m
  svc : ∀ j, j ≠ e.svc → u.svc j = s.svc j
  again : e.cancelled = true → u.entry n = some e ∧ u.services = s.services
  begun : e.cancelled = false → returnBegun s e.svc = true →
    u.entry n = some { e with cancelled := true } ∧ u.services = s.services
  earlier : ∀ x y, e.cancelled = false → returnBegun s e.svc = false → estimate s e.svc = some x → e.e = some y →
    sdiff nPts y x < 0 → u.entry n = some { e with cancelled := true } ∧ u.services = s.services
  handed : ∀ x, e.cancelled = false → returnBegun s e.svc = false → estimate s e.svc = some x →
    (∀ y, e.e = some y → 0 ≤ sdiff nPts y x) → u.entry n = some { e with cancelled := true, e := some x }
      ∧ (u.sp e.svc).ret = .returning x ∧ (u.sp e.svc).retOverdue = false
  awaited : e.cancelled = false → returnBegun s e.svc = false → estimate s e.svc = none →
    u.entry n = some { e with cancelled := true, e := none } ∧ (u.sp e.svc).fixE = true ∧ (u.sp e.svc).ret = .idle

theorem cancelActive_frame (he : s.entry n = some e) (hnum : e.num = n) : let u := cancelActive s e
    u = { s with entries := u.entries, services := u.services } ∧ (∀ m, m ≠ n → u.entry m = s.entry m)
    ∧ ∀ j, j ≠ e.svc → u.svc j = s.svc j := by
  subst hnum
  have hset (x : Option Entry) (m : Nat) (hm : m ≠ e.num) : (s.setEntry e.num x).entry m = s.entry m :=
    (State.entry_setEntry s e.num x m).trans (if_neg hm)
  have hsp (v : State) (f : SpliceRec → SpliceRec) (j : Nat) (hj : j ≠ e.svc) : (v.modSp e.svc f).svc j = v.svc j :=
    (State.svc_modSvc v e.svc j _).trans (if_neg hj)
  intro u
  by_cases hc : e.cancelled = true
  · have hu : u = s := cancelActive_again hc
    rw [hu]
    exact ⟨rfl, fun _ _ => rfl, fun _ _ => rfl⟩
  · have hc := Bool.eq_false_iff.2 hc
    by_cases hb : returnBegun s e.svc = true
    · have hu : u = _ := cancelActive_begun hc hb
      rw [hu]
      exact ⟨rfl, hset _, fun _ _ => rfl⟩
    · have hb := Bool.eq_false_iff.2 hb
      have hu : u = _ := cancelActive_open hc hb
      rw [hu]
      split
      · split
        · exact ⟨rfl, hset _, fun _ _ => rfl⟩
        · rw [setE_cancelled hb]
          exact ⟨rfl, fun m hm => (State.modSp_entry ..).trans (hset _ m hm), hsp _ _⟩
      · exact ⟨rfl, fun m hm => (State.modSp_entry ..).trans (hset _ m hm), hsp _ _⟩

/-- The cases of R74. -/
theorem cancelActive_spec (he : s.entry n = some e) (hnum : e.num = n) : CancelledActive s (cancelActive s e) n e := by
  obtain ⟨-, hothers, hsvc⟩ := cancelActive_frame he hnum
  subst hnum
  have hset (x : Option Entry) : (s.setEntry e.num x).entry e.num = x := State.entry_setEntry_self s e.num x
  refine ⟨hothers, hsvc, fun hc => ?_, fun hc hb => ?_, fun x y hc hb hx hy hlt => ?_, fun x hc hb hx hy => ?_,
    fun hc hb hx => ?_⟩
  · rw [cancelActive_again hc]
    exact ⟨he, rfl⟩
  · rw [cancelActive_begun hc hb]
    exact ⟨hset _, rfl⟩
  · rw [cancelActive_open hc hb, hx]
    dsimp only
    rw [if_pos ⟨y, hy, hlt⟩]
    exact ⟨hset _, rfl⟩
  · rw [cancelActive_open hc hb, hx]
    dsimp only
    rw [if_neg fun ⟨y, hey, hlt⟩ => (Int.not_lt.2 (hy y hey)) hlt, setE_cancelled hb]
    refine ⟨(State.modSp_entry ..).trans (hset _), ?_⟩
    rw [State.sp_modSp, if_pos rfl]
    exact ⟨rfl, rfl⟩
  · rw [cancelActive_open hc hb, hx]
    refine ⟨(State.modSp_entry ..).trans (hset _), ?_⟩
    dsimp only [awaitLead]
    rw [State.sp_modSp, if_pos rfl]
    exact ⟨rfl, rfl⟩

/-! ### The command (R73) -/

theorem exec_cancelEntry (h : s.takes p) (hp : p ≠ .ap) :
    exec (.cancelEntry p n 0) s = .next ((runCancelEntry p n 0 (openExchange s p 0x21)).done p) := by
  have ha : admitted p 0x21 = true := by
    cases p with
    | ap => exact absurd rfl hp
    | tp => rfl
    | pp => rfl
  exact congrArg Host.Outcome.next (command_taken s p 0x21 (runCancelEntry p n 0) h ha)

/-- On a number that the command may name, the entry and the port decide. -/
theorem runCancelEntry_of_le (hn : n ≤ 255) : runCancelEntry p n 0 s = match s.entry n with
    | none => err s .notfound
    | some e => if e.origin ≠ p then err s .denied
        else ok (rest (if e.st = .active then cancelActive s e else endAndRelease s e .cancelled)) [e.st.bytes.headD 0] := by
  unfold runCancelEntry
  exact if_neg (by omega)

/-- A refusal of the command on the state as it stands. -/
theorem refused_onlyAnswers (s : State) (p : PortId) (code : Nat) (st : Status) :
    s.onlyAnswers (answer (openExchange s p code) p st []) p (byte1 code) st [] :=
  answer_onlyAnswers p code s _ st [] rfl (openExchange_frame s p code)

/-- What an act on the opened exchange changes beside the links, it changes of the state before. -/
theorem frame_of_opened {u v : State} (hv : v = { s with links := v.links })
    (hu : u = { v with dir := u.dir, entries := u.entries, services := u.services, flash := u.flash, boxes := u.boxes }) :
    u = { s with dir := u.dir, entries := u.entries, services := u.services, flash := u.flash, boxes := u.boxes, links := u.links } := by
  have hl : u.links = v.links := by rw [hu]
  refine hu.trans ?_
  rw [hl, hv]

/-- An ARMED entry's end, as the opened exchange finds it. -/
theorem cancelEntry_armed (hnum : e.num = n) (hst : e.st = .armed) : let u := endEntry (openExchange s p 0x21) e .cancelled
    u = { s with dir := u.dir, entries := u.entries, services := u.services, flash := u.flash, boxes := u.boxes, links := u.links }
    ∧ (∀ j, j ≠ e.svc → u.svc j = s.svc j)
    ∧ (∀ x, (s.sp e.svc).nxt = some x → x.owner = .entry n → x.phase = .seeking → (u.sp e.svc).nxt = none)
    ∧ ∀ q, (s.sp e.svc).waiting = some q → q.owner = .entry n → (u.sp e.svc).waiting = none := by
  subst hnum
  intro u
  obtain ⟨hframe, hsvc⟩ := endEntry_frame_any (s := openExchange s p 0x21) (e := e) .cancelled
  obtain ⟨hnxt, hwait⟩ := discardSeeking_discards (openExchange s p 0x21) e.svc (.entry e.num)
  rw [openExchange_sp] at hnxt hwait
  have hsp : u.sp e.svc = _ := endEntry_sp_armed .cancelled hst
  rw [hsp]
  exact ⟨frame_of_opened (openExchange_frame s p _) hframe, fun j hj => (hsvc j hj).trans (openExchange_svc s p _ j), hnxt, hwait⟩

/-- The entry's end on the opened exchange is its end on the state before. -/
theorem State.EntryGone.of_opened {r : EntryResult} {code : Nat} {u : State} (h : (openExchange s p code).EntryGone u r n e) :
    s.EntryGone u r n e where
  gone := h.gone
  others m hm := (h.others m hm).trans (openExchange_entry s p code m)
  box q := by rw [h.box, openExchange_box]
  clip c := by rw [h.clip, openExchange_clip]

/-- The cancel of an ACTIVE entry on the opened exchange, told of the state before. -/
theorem cancelActive_opened (he : s.entry n = some e) (hnum : e.num = n) : let u := cancelActive (openExchange s p 0x21) e
    u = { s with entries := u.entries, services := u.services, links := u.links } ∧ CancelledActive s u n e := by
  have he' : (openExchange s p 0x21).entry n = some e := (openExchange_entry s p _ n).trans he
  have hspec := cancelActive_spec he' hnum
  intro u
  refine ⟨?_, ?_⟩
  · have hframe := (cancelActive_frame he' hnum).1
    have hl : u.links = (openExchange s p 0x21).links := by
      dsimp only [u]
      rw [hframe]
    refine hframe.trans ?_
    rw [show cancelActive (openExchange s p 0x21) e = u from rfl, hl, openExchange_eq]
    rfl
  · rw [openExchange_eq] at hspec
    dsimp only [u]
    rw [openExchange_eq]
    exact ⟨hspec.others, hspec.svc, hspec.again, hspec.begun, hspec.earlier, hspec.handed, hspec.awaited⟩

/-- Settles O51, by the state of the entry. -/
theorem cancelEntryActsByState : Obligations.CancelEntryActsByState := by
  intro s p n ht hp hn
  rw [exec_cancelEntry ht hp, runCancelEntry_of_le hn, openExchange_entry]
  refine ⟨fun he => ?_, fun e he hnum => ⟨fun ho => ?_, fun ho => ?_⟩⟩
  · rw [he]
    exact ⟨_, rfl, refused_onlyAnswers s p 0x21 .notfound⟩
  · simp only [he, if_pos ho]
    exact ⟨_, rfl, refused_onlyAnswers s p 0x21 .denied⟩
  · subst ho
    intro ended st
    simp only [he, ne_eq, not_true_eq_false, if_false]
    have hb : [e.st.bytes.headD 0] = [st] := by
      dsimp only [st]
      cases e.st <;> rfl
    have hended : ended (endEntry (openExchange s e.origin 0x21) e .cancelled) := by
      obtain ⟨hgone, hothers, hbox, hclip⟩ := (endEntry_gone .cancelled hnum).of_opened
      exact ⟨hgone, hothers, hbox, hclip⟩
    rw [hb]
    refine ⟨fun harm hact => ⟨endEntry (openExchange s e.origin 0x21) e .cancelled, ?_, ?_, hended⟩,
      fun hst => ⟨endEntry (openExchange s e.origin 0x21) e .cancelled, ?_, ?_⟩, fun hst => ?_⟩
    · simp [hact, harm, endAndRelease]
    · have hframe := endEntry_frame (s := openExchange s e.origin 0x21) .cancelled harm
      generalize hv : openExchange s e.origin 0x21 = v at hframe ⊢
      have hl : (endEntry v e .cancelled).links = v.links := by rw [hframe]
      refine hframe.trans ?_
      rw [hl, ← hv, openExchange_frame]
    · simp [hst, endAndRelease]
    · obtain ⟨hframe, hsvc, hnxt, hwait⟩ := cancelEntry_armed (s := s) (p := e.origin) hnum hst
      exact ⟨hframe, hended, hsvc, hnxt, hwait⟩
    · obtain ⟨u, hu, hframe, hspec⟩ : ∃ u, cancelActive (openExchange s e.origin 0x21) e = u
          ∧ u = { s with entries := u.entries, services := u.services, links := u.links } ∧ CancelledActive s u n e :=
        ⟨_, rfl, cancelActive_opened he hnum⟩
      exact ⟨u, by simp [hst, hu], hframe, hspec.others, hspec.svc, hspec.again,
        fun hc hb => hspec.begun hc (returnBegun_iff.2 hb),
        fun x hc hb hx => ⟨fun ⟨y, hy, hlt⟩ => hspec.earlier x y hc (by simpa [returnBegun] using hb) hx hy hlt,
          hspec.handed x hc (by simpa [returnBegun] using hb) hx⟩,
        fun hc hb => hspec.awaited hc (by simpa [returnBegun] using hb)⟩

end Sys2Proof.Machine
end

section
/-! The runs of the arming computation that a release sets in motion, one after the other (R66, R67). -/

namespace Sys2Proof.Machine

variable {s t u : State} {i k n : Nat} {e : Entry} {P : State → Prop}

/-! ### What every run keeps, the arbiter and the re-evaluations keep -/

/-- Every run of the arming computation on an entry in a state that `Q` admits keeps a property. -/
def RunsKeep (Q : EntryState → Prop) (P : State → Prop) : Prop :=
  ∀ t n e, P t → t.entry n = some e → Q e.st → P (armRun t n).1

/-- Neither ARMED nor ACTIVE. -/
def EntryState.idle (x : EntryState) : Prop := x ≠ .armed ∧ x ≠ .active

theorem EntryState.idle_waiting (c : WaitCause) : (EntryState.waiting c).idle := ⟨nofun, nofun⟩
theorem EntryState.idle_pending : EntryState.pending.idle := ⟨nofun, nofun⟩

theorem inState_iff {x : EntryState} : inState s n x = true ↔ ∃ e, s.entry n = some e ∧ e.st = x := by
  unfold inState
  cases s.entry n <;> simp

namespace RunsKeep

variable {Q : EntryState → Prop}

theorem waiting (h : RunsKeep Q P) {c : WaitCause} (hc : Q (.waiting c)) (hP : P t) (hw : inState t n (.waiting c) = true) :
    P (armRun t n).1 := by
  obtain ⟨e, he, hst⟩ := inState_iff.1 hw
  exact h t n e hP he (hst ▸ hc)

theorem arbiterPass (h : RunsKeep Q P) (hq : Q (.waiting .pool)) (l : List Nat) (d : Bool) (hP : P t) : P (arbiterPass l t d).1 := by
  induction l generalizing t d with
  | nil => exact hP
  | cons n r ih =>
    unfold Machine.arbiterPass
    split
    · next hw =>
      dsimp only
      split
      · exact h.waiting hq hP hw
      · exact ih _ (h.waiting hq hP hw)
    · exact ih _ hP

theorem arbiterLoop (h : RunsKeep Q P) (hq : Q (.waiting .pool)) (f : Nat) (k : Nat) (hP : P t) : P (arbiterLoop f t k) := by
  induction f generalizing t with
  | zero => exact hP
  | succ f ih =>
    unfold Machine.arbiterLoop
    dsimp only
    split
    · exact ih (h.arbiterPass hq _ _ hP)
    · exact h.arbiterPass hq _ _ hP

theorem poolFreed (h : RunsKeep Q P) (hq : Q (.waiting .pool)) (k : Nat) (hP : P t) : P (poolFreed t k) := h.arbiterLoop hq 257 k hP

theorem armAndArbitrate (h : RunsKeep Q P) (hq : Q (.waiting .pool)) (hP : P t) (he : t.entry n = some e) (hst : Q e.st) :
    P (armAndArbitrate t n) := by
  unfold Machine.armAndArbitrate
  dsimp only
  split
  · exact h.poolFreed hq _ (h t n e hP he hst)
  · exact h t n e hP he hst

theorem reevalList (h : RunsKeep Q P) (hq : Q (.waiting .pool)) {c : WaitCause} (hc : Q (.waiting c)) (l : List Nat) (hP : P t) :
    P (reevalList c l t) := by
  induction l generalizing t with
  | nil => exact hP
  | cons n r ih =>
    unfold Machine.reevalList
    refine ih ?_
    split
    · next hw =>
      obtain ⟨e, he, hst⟩ := inState_iff.1 hw
      exact h.armAndArbitrate hq hP he (hst ▸ hc)
    · exact hP

theorem reeval (h : RunsKeep Q P) (hq : Q (.waiting .pool)) {c : WaitCause} (hc : Q (.waiting c)) (i : Nat) (hP : P t) :
    P (reeval t i c) := h.reevalList hq hc _ hP

theorem afterEnd (h : RunsKeep Q P) (hq : Q (.waiting .pool)) (hc : Q (.waiting .held)) (i : Nat) (hP : P t) : P (afterEnd t i) :=
  h.reeval hq hc i (h.poolFreed hq _ hP)

end RunsKeep

/-! ### The entries after one run -/

/-- A run, its entry found: it ends FAULTED or is judged (R59, R60). -/
theorem armRun_of_entry (he : t.entry n = some e) : armRun t n =
    if e.pod.any t.clipDamaged then (endEntry t e .faulted, false)
    else t.judgedAt n ((t.laneOf e.svc).getD 0) e (e.triggerTime t) (later (e.triggerTime t) (earliest t e.svc)) := by
  unfold armRun
  rw [he]
  rfl

/-- All that a run can do: its entry ends, or waits, or is ARMED where its level and its lane's pool allow it (R59 to R61). -/
theorem armRun_cases (he : t.entry n = some e) : let u := (armRun t n).1
    (∃ a r, u = endEntry t { e with a := a } r)
    ∨ (∃ a c, u = t.setEntry n (some { e with st := .waiting c, a := a }))
    ∨ ∃ a sp b, heldLevel t e.svc < levelOf e.origin
      ∧ committed t ((t.laneOf e.svc).getD 0) - t.givenBack e.svc + podRate t e.pod ≤ (t.lane ((t.laneOf e.svc).getD 0)).cfg.pool
      ∧ u = raiseIf b (t.arming e.svc n { e with st := .armed, a := a, s := some sp, commitment := podRate t e.pod }
          { clip := e.pod.headD 0, owner := .entry n, s := some sp }) e.svc .latearm := by
  intro u
  have hu : u = _ := congrArg Prod.fst (armRun_of_entry he)
  rw [hu]
  split
  · exact .inl ⟨e.a, .faulted, rfl⟩
  · unfold State.judgedAt
    split
    · exact .inr (.inl ⟨_, _, rfl⟩)
    · split
      · exact .inl ⟨_, _, rfl⟩
      · split
        · exact .inr (.inl ⟨_, _, rfl⟩)
        · next hlevel =>
          split
          · exact .inr (.inl ⟨_, _, rfl⟩)
          · next hfit => exact .inr (.inr ⟨_, _, _, Nat.not_le.1 hlevel, Nat.not_lt.1 hfit, rfl⟩)

theorem armRun_of_none (he : t.entry n = none) : (armRun t n).1 = t := by simp [armRun, he]

theorem yielded_entry_of_not_armed (hs : t.Numbered) {m : Nat} {x : Entry} (hx : t.entry m = some x) (hst : x.st ≠ .armed) :
    (t.yielded i).entry m = some x := by
  obtain ⟨d, E, -, -, -, -, hother⟩ := yielded_spec t i
  refine (hother m fun l hl hm => hst ?_).trans hx
  cases (hm ▸ hs.entry_of_find hl).symm.trans hx
  exact armedEntry_st hl

/-- The schedule after an entry has armed (R61). -/
theorem raiseIf_arming_entry (b : Bool) (x : Entry) (q : InstReq) (c : Cond) (m : Nat) :
    (raiseIf b (t.arming i n x q) i c).entry m = if m = n then some x else (t.yielded i).entry m := by
  rw [State.entry, raiseIf_frame]
  exact arming_entry x q m

/-- A run touches no other entry that is not ARMED (R60, R61). -/
theorem armRun_entry_other (hs : t.Numbered) {m : Nat} (hm : m ≠ n) {x : Entry} (hx : t.entry m = some x) (hst : x.st ≠ .armed) :
    (armRun t n).1.entry m = some x := by
  cases he : t.entry n with
  | none => rw [armRun_of_none he, hx]
  | some e =>
    have hnum : e.num = n := hs.num n e he
    rcases armRun_cases he with ⟨a, r, hu⟩ | ⟨a, c, hu⟩ | ⟨a, sp, b, -, -, hu⟩
    · rw [hu, endEntry_entry_any, if_neg (by exact hnum ▸ hm), hx]
    · rw [hu, State.entry_setEntry, if_neg hm, hx]
    · rw [hu, raiseIf_arming_entry, if_neg hm]
      exact yielded_entry_of_not_armed hs hx hst

/-- The schedule is numbered, and each of its entries stood in `s` at its number, on its service. -/
structure SameServices (s t : State) : Prop where
  joins : NoneJoins s t
  svc : ∀ n x, t.entry n = some x → ∃ y, s.entry n = some y ∧ y.svc = x.svc
  kept : Kept s t

theorem SameServices.refl (h : s.Numbered) : SameServices s s := ⟨NoneJoins.refl h, fun _ x hx => ⟨x, hx, rfl⟩, Kept.refl s⟩

theorem yielded_svc (hs : t.Numbered) {m : Nat} {x : Entry} (hx : (t.yielded i).entry m = some x) :
    ∃ y, t.entry m = some y ∧ y.svc = x.svc := by
  obtain ⟨d, E, -, -, -, hlower, hother⟩ := yielded_spec t i
  by_cases h : ∃ l, armedEntry t i = some l ∧ m = l.num
  · obtain ⟨l, hl, rfl⟩ := h
    rw [hlower l hl] at hx
    cases hx
    exact ⟨l, hs.entry_of_find hl, rfl⟩
  · exact ⟨x, (hother m fun l hl hm => h ⟨l, hl, hm⟩).symm.trans hx, rfl⟩

/-- A run moves no entry to another service. -/
theorem armRun_svc (hs : t.Numbered) {m : Nat} {x : Entry} (hx : (armRun t n).1.entry m = some x) :
    ∃ y, t.entry m = some y ∧ y.svc = x.svc := by
  cases he : t.entry n with
  | none => exact ⟨x, by rw [← hx, armRun_of_none he], rfl⟩
  | some e =>
    rcases armRun_cases he with ⟨a, r, hu⟩ | ⟨a, c, hu⟩ | ⟨a, sp, b, -, -, hu⟩
    · rw [hu, endEntry_entry_any] at hx
      split at hx
      · cases hx
      · exact ⟨x, hx, rfl⟩
    · rw [hu, State.entry_setEntry] at hx
      split at hx
      · next hm =>
        cases hx
        exact ⟨e, hm ▸ he, rfl⟩
      · exact ⟨x, hx, rfl⟩
    · rw [hu, raiseIf_arming_entry] at hx
      split at hx
      · next hm =>
        cases hx
        exact ⟨e, hm ▸ he, rfl⟩
      · exact yielded_svc hs hx

theorem SameServices.runsKeep (s : State) : RunsKeep EntryState.idle (SameServices s) := fun t n _ h _ _ => by
  refine ⟨h.joins.armRun n, fun m x hx => ?_, h.kept.armRun n⟩
  obtain ⟨y, hy, hsvc⟩ := armRun_svc h.joins.numbered hx
  obtain ⟨z, hz, hzs⟩ := h.svc m y hy
  exact ⟨z, hz, hzs.trans hsvc⟩

/-! ### The order of the entries (R66) -/

/-- By levels, higher first, and in each level in the given order. -/
theorem byLevel_pairwise {es : List Entry} (h : es.Pairwise (fun a b => a.num < b.num)) {R : Nat → Nat → Prop}
    (hR : ∀ x ∈ es, ∀ y ∈ es, levelOf y.origin < levelOf x.origin ∨ levelOf x.origin = levelOf y.origin ∧ x.num < y.num →
      R x.num y.num) : (byLevel es).Pairwise R := by
  have hlevel (l : Nat) : ((es.filter fun e => levelOf e.origin == l).map (·.num)).Pairwise R := by
    rw [List.pairwise_map]
    refine (h.filter _).imp_of_mem fun {x y} hx hy hlt => ?_
    obtain ⟨hx, hxl⟩ := List.mem_filter.1 hx
    obtain ⟨hy, hyl⟩ := List.mem_filter.1 hy
    exact hR x hx y hy (.inr ⟨(beq_iff_eq.1 hxl).trans (beq_iff_eq.1 hyl).symm, hlt⟩)
  unfold byLevel
  rw [List.pairwise_flatMap]
  refine ⟨fun l _ => hlevel l, ?_⟩
  have hdown : [3, 2, 1].Pairwise (fun a b => b < a) := by decide
  refine hdown.imp fun {a b} hab m hm o ho => ?_
  obtain ⟨x, hx, rfl⟩ := List.mem_map.1 hm
  obtain ⟨y, hy, rfl⟩ := List.mem_map.1 ho
  obtain ⟨hx, hxl⟩ := List.mem_filter.1 hx
  obtain ⟨hy, hyl⟩ := List.mem_filter.1 hy
  rw [beq_iff_eq] at hxl hyl
  exact hR x hx y hy (.inl (by omega))

/-- The order of R66 and R67 is one list only. -/
theorem inOrder_unique {q : Entry → Prop} {l m : List Nat} (hl : s.inOrder q l) (hm : s.inOrder q m) : l = m := by
  have hnodup {l : List Nat} (h : s.inOrder q l) : l.Nodup := by
    refine h.sorted.imp_of_mem fun {a b} ha _ hab => ?_
    rintro rfl
    obtain ⟨x, hx, -⟩ := (h.mem a).1 ha
    rcases hab x x hx hx with h | ⟨-, h⟩ <;> omega
  have hperm : l.Perm m := (List.perm_ext_iff_of_nodup (hnodup hl) (hnodup hm)).2 fun a => (hl.mem a).trans (hm.mem a).symm
  refine hperm.eq_of_pairwise (fun a b ha hb hab hba => ?_) hl.sorted hm.sorted
  obtain ⟨x, hx, -⟩ := (hl.mem a).1 ha
  obtain ⟨y, hy, -⟩ := (hm.mem b).1 hb
  rcases hab x y hx hy with h | ⟨h, h'⟩ <;> rcases hba y x hy hx with g | ⟨g, g'⟩ <;> omega

/-- The schedule lists its entries by ascending number. -/
theorem State.Numbered.nums_ascend (hs : s.Numbered) : s.schedule.Pairwise (fun a b => a.num < b.num) := by
  obtain ⟨hp, -⟩ := (Table.wf_iff none s.entries).1 hs.wf
  refine List.pairwise_filterMap.2 (hp.imp_of_mem fun {a b} ha hb hlt x hx y hy => ?_)
  have hnum {a : Nat × Option Entry} (ha : a ∈ s.entries) {x : Entry} (hx : a.2 = some x) : x.num = a.1 :=
    hs.num a.1 x ((Table.get_of_mem hp (by exact ha)).trans hx)
  rw [hnum ha hx, hnum hb hy]
  exact hlt

/-- The entries of the schedule with a property, in their order. -/
theorem byLevel_inOrder (hs : s.Numbered) (q : Entry → Bool) :
    s.inOrder (fun e => q e = true) (byLevel (s.schedule.filter q)) where
  mem n := by
    rw [(byLevel_perm _).mem_iff, List.mem_map]
    constructor
    · rintro ⟨e, he, rfl⟩
      obtain ⟨he, hq⟩ := List.mem_filter.1 he
      exact ⟨e, hs.entry_of_mem he, hq⟩
    · rintro ⟨e, he, hq⟩
      exact ⟨e, List.mem_filter.2 ⟨mem_schedule_of_entry he, hq⟩, hs.num n e he⟩
  sorted := by
    refine byLevel_pairwise (hs.nums_ascend.filter q) fun x hx y hy h a b ha hb => ?_
    cases (hs.entry_of_mem (List.mem_filter.1 hx).1).symm.trans ha
    cases (hs.entry_of_mem (List.mem_filter.1 hy).1).symm.trans hb
    exact h

theorem inOrder_congr {q q' : Entry → Prop} (h : ∀ e, q e ↔ q' e) {l : List Nat} (hl : s.inOrder q l) : s.inOrder q' l :=
  ⟨fun n => (hl.mem n).trans (exists_congr fun e => and_congr_right fun _ => h e), hl.sorted⟩

theorem poolQueue_eq (hs : s.Numbered) {ns : List Nat} (h : s.inOrder (fun e => s.laneOf e.svc = some k ∧ e.st = .waiting .pool) ns) :
    poolQueue s k = ns :=
  inOrder_unique (byLevel_inOrder hs _) (inOrder_congr (fun e => by simp) h)

theorem reevalQueue_eq (hs : s.Numbered) {c : WaitCause} {ns : List Nat}
    (h : s.inOrder (fun e => e.svc = i ∧ e.st = .waiting c) ns) :
    byLevel ((entriesOf s i).filter (fun e => e.st == .waiting c)) = ns := by
  rw [entriesOf, List.filter_filter]
  exact inOrder_unique (byLevel_inOrder hs _) (inOrder_congr (fun e => by simp [and_comm]) h)

/-! ### One run of the arbiter (R66) -/

/-- The state after runs on the entries of a list, one after the other. -/
def State.runs (s : State) (l : List Nat) : State := l.foldl (fun t m => (armRun t m).1) s

/-- One of the runs on the entries of a list demotes an entry. -/
def State.demotes (s : State) : List Nat → Bool
  | [] => false
  | m :: r => (armRun s m).2 || (armRun s m).1.demotes r

theorem runs_cons (m : Nat) (l : List Nat) : s.runs (m :: l) = (armRun s m).1.runs l := rfl

theorem demotes_iff {l : List Nat} : s.demotes l = true ↔ ∃ h m q, l = h ++ m :: q ∧ (armRun (s.runs h) m).2 = true := by
  induction l generalizing s with
  | nil => simp [State.demotes]
  | cons a l ih =>
    rw [State.demotes, Bool.or_eq_true, ih]
    constructor
    · rintro (h | ⟨h, m, q, rfl, hd⟩)
      · exact ⟨[], a, l, rfl, h⟩
      · exact ⟨a :: h, m, q, rfl, hd⟩
    · rintro ⟨h, m, q, heq, hd⟩
      cases h with
      | nil =>
        cases heq
        exact .inl hd
      | cons b h =>
        cases heq
        exact .inr ⟨h, m, q, rfl, hd⟩

/-- The arbiter's run stops at the first entry of its queue that still waits for pool, or at the last. -/
theorem arbiterPass_eq (hs : s.Numbered) {l r : List Nat} (hnd : (l ++ n :: r).Nodup)
    (hwait : ∀ m ∈ l ++ n :: r, inState s m (.waiting .pool) = true)
    (hon : ∀ h m q, l = h ++ m :: q → inState (s.runs (h ++ [m])) m (.waiting .pool) = false)
    (hstop : inState (s.runs (l ++ [n])) n (.waiting .pool) = true ∨ r = []) (d : Bool) :
    arbiterPass (l ++ n :: r) s d = (s.runs (l ++ [n]), d || s.demotes (l ++ [n])) := by
  induction l generalizing s d with
  | nil =>
    have hn := hwait n (by simp)
    simp only [List.nil_append, arbiterPass, hn, if_true, State.demotes, Bool.or_false]
    rcases hstop with h | rfl
    · exact if_pos h
    · split <;> rfl
  | cons m l ih =>
    have hm := hwait m (by simp)
    have hgo : inState (armRun s m).1 m (.waiting .pool) = false := hon [] m l rfl
    obtain ⟨hmem, hnd⟩ := List.nodup_cons.1 hnd
    simp only [List.cons_append, arbiterPass, hm, if_true, hgo, Bool.false_eq_true, if_false, State.demotes, runs_cons]
    rw [← Bool.or_assoc]
    refine ih ((NoneJoins.refl hs).armRun m).numbered hnd (fun x hx => ?_) (fun h x q hq => ?_) hstop _
    · obtain ⟨e, he, hst⟩ := inState_iff.1 (hwait x (List.mem_cons_of_mem _ hx))
      have hxm : x ≠ m := by
        rintro rfl
        exact hmem hx
      exact inState_iff.2 ⟨e, armRun_entry_other hs hxm he (by simp [hst]), hst⟩
    · exact hon (m :: h) x q (by rw [hq]; rfl)

/-! ### Re-evaluations (R67) -/

/-- A re-evaluation of one entry, with the lane of its service. -/
theorem armAndArbitrate_on (he : t.entry n = some e) (hk : t.laneOf e.svc = some k) :
    armAndArbitrate t n = if (armRun t n).2 then poolFreed (armRun t n).1 k else (armRun t n).1 := by
  simp [armAndArbitrate, he, hk]

/-- A re-evaluation of entries of one service, with its lane. -/
theorem reevalList_eq (hk : s.laneOf i = some k) {c : WaitCause} {ns : List Nat}
    (hns : ∀ m ∈ ns, ∀ e, s.entry m = some e → e.svc = i) (ht : SameServices s t) :
    reevalList c ns t = ns.foldl (fun t m => if inState t m (.waiting c) then
      (if (armRun t m).2 then poolFreed (armRun t m).1 k else (armRun t m).1) else t) t := by
  induction ns generalizing t with
  | nil => rfl
  | cons m ns ih =>
    have hstep : (if inState t m (.waiting c) then armAndArbitrate t m else t) = if inState t m (.waiting c) then
        (if (armRun t m).2 then poolFreed (armRun t m).1 k else (armRun t m).1) else t := by
      refine ite_congr rfl (fun hw => ?_) fun _ => rfl
      obtain ⟨x, hx, -⟩ := inState_iff.1 hw
      obtain ⟨y, hy, hsvc⟩ := ht.svc m x hx
      have hi : x.svc = i := hsvc.symm.trans (hns m List.mem_cons_self y hy)
      exact armAndArbitrate_on hx (by rw [hi, ht.kept.laneOf]; exact hk)
    rw [reevalList, List.foldl_cons, hstep]
    refine ih (fun x hx => hns x (List.mem_cons_of_mem _ hx)) ?_
    rw [← hstep]
    exact (SameServices.runsKeep s).reevalList (EntryState.idle_waiting _) (EntryState.idle_waiting _) [m] ht

/-! ### The obligation -/

/-- Settles O30: one run by `armRun_outcome`, the arbiter and the re-evaluations by the runs on their queues. -/
theorem releasesRunWaitingEntries : Obligations.ReleasesRunWaitingEntries := by
  refine ⟨fun s n k e he hnum hst hk => armRun_outcome he hnum hst hk, fun s hwf hnum => ?_⟩
  have hs : s.Numbered := ⟨hwf, hnum⟩
  refine ⟨fun k => rfl, fun k f ns hns => ⟨fun hnil => ?_, fun l n r hsplit hon hstop => ?_⟩, fun i k c ns hk hns => ?_,
    fun i k hk => ?_⟩
  · rw [arbiterLoop, poolQueue_eq hs hns, hnil]
    rfl
  · have hwait : ∀ m ∈ l ++ n :: r, inState s m (.waiting .pool) = true := fun m hm => by
      obtain ⟨e, he, -, hst⟩ := (hns.mem m).1 (hsplit ▸ hm)
      exact inState_iff.2 ⟨e, he, hst⟩
    have hnd : (l ++ n :: r).Nodup := by
      rw [← hsplit, ← poolQueue_eq hs hns]
      exact (byLevel_perm _).nodup_iff.2
        ((Table.vals_keys_sorted hs.wf hs.num).sublist (List.filter_sublist.map _))
    have hpass := arbiterPass_eq hs hnd hwait (fun h m q hq => Bool.eq_false_iff.2 fun hw => hon h m q hq (inState_iff.1 hw))
      (hstop.imp_left inState_iff.2) false
    rw [arbiterLoop, poolQueue_eq hs hns, hsplit, hpass, Bool.false_or]
    exact ⟨fun hd => if_neg (mt demotes_iff.1 hd), fun hd => if_pos (demotes_iff.2 hd)⟩
  · rw [reeval, reevalQueue_eq hs hns]
    refine reevalList_eq hk (fun m hm e he => ?_) (SameServices.refl hs)
    obtain ⟨x, hx, hi, -⟩ := (hns.mem m).1 hm
    cases hx.symm.trans he
    exact hi
  · rw [afterEnd, hk]
    rfl

end Sys2Proof.Machine
end

section
/-! Records as lists of chunks: the bytes at an offset (R200). -/

namespace Sys2Proof.Machine

/-! ### Slices of chunks -/

section
variable {a r : List Byte} {off n : Nat}

theorem slice_skip (h : a.length ≤ off) : slice (a ++ r) off n = slice r (off - a.length) n := by
  simp [slice, List.drop_append, List.drop_eq_nil_of_le h]

theorem slice_here (h : off + n ≤ a.length) : slice (a ++ r) off n = slice a off n := by
  unfold slice
  rw [List.drop_append_of_le_length (by omega), List.take_append_of_le_length (by simp; omega)]

/-- A slice within a slice. -/
theorem slice_slice {m o : Nat} (h : o + n ≤ m) : slice (slice a off m) o n = slice a (off + o) n := by
  unfold slice
  rw [List.drop_take, List.take_take, List.drop_drop, Nat.min_eq_left (by omega)]

section
variable {cs mid : List (List Byte)} {lens : List Nat} (hl : cs.map List.length = lens)
include hl

/-- The chunks from the `m`-th on, `k` of them, stand at the sum of the lengths before them. -/
theorem slice_fields (m k : Nat) (hm : (cs.drop m).take k = mid) (ho : (lens.take m).sum = off)
    (hn : ((lens.drop m).take k).sum = n) : slice cs.flatten off n = mid.flatten := by
  subst hm hl
  rw [← List.map_take, ← List.length_flatten] at ho
  rw [← List.map_drop, ← List.map_take, ← List.length_flatten] at hn
  have hsplit : cs.flatten = (cs.take m).flatten ++ (((cs.drop m).take k).flatten ++ ((cs.drop m).drop k).flatten) := by
    rw [← List.flatten_append, ← List.flatten_append, List.take_append_drop, List.take_append_drop]
  rw [hsplit, slice_skip (by omega), ho, Nat.sub_self, slice_here (by omega)]
  simp [slice, ← hn]

theorem slice_field (m : Nat) (hm : (cs.drop m).take 1 = [a]) (ho : (lens.take m).sum = off)
    (hn : ((lens.drop m).take 1).sum = n) : slice cs.flatten off n = a := by
  rw [slice_fields hl m 1 hm ho hn]
  simp

theorem slice_two_fields (m : Nat) (hm : (cs.drop m).take 2 = [a, r]) (ho : (lens.take m).sum = off)
    (hn : ((lens.drop m).take 2).sum = n) : slice cs.flatten off n = a ++ r := by
  rw [slice_fields hl m 2 hm ho hn]
  simp

end

theorem slice_rest (h : a.length = off) : slice (a ++ r) off n = slice r 0 n := by
  rw [slice_skip (by omega), h, Nat.sub_self]

/-- The bytes within one of several chunks of one length. -/
theorem slice_flatMap {α : Type} {f : α → List Byte} {w : Nat} (hf : ∀ x, (f x).length = w) {l : List α} {j o : Nat} {x : α}
    (hx : l[j]? = some x) (ho : o + n ≤ w) : slice (l.flatMap f ++ r) (w * j + o) n = slice (f x) o n := by
  induction l generalizing j with
  | nil => simp at hx
  | cons y l ih =>
    rw [List.flatMap_cons, List.append_assoc]
    cases j with
    | zero =>
      cases hx
      rw [Nat.mul_zero, Nat.zero_add, slice_here (by rw [hf]; exact ho)]
    | succ j =>
      rw [slice_skip (by rw [hf, Nat.mul_add]; omega), hf, show w * (j + 1) + o - w = w * j + o by rw [Nat.mul_add]; omega]
      exact ih hx

theorem length_flatMap_const {α : Type} {f : α → List Byte} {w : Nat} (hf : ∀ x, (f x).length = w) (l : List α) :
    (l.flatMap f).length = w * l.length := by
  induction l with
  | nil => rfl
  | cons y l ih => rw [List.flatMap_cons, List.length_append, hf, ih, List.length_cons, Nat.mul_add]; omega

end

/-! ### Lengths of the encodings of R200 -/

@[simp] theorem ptsBytes_length (x : Option Nat) : (ptsBytes x).length = 5 := by cases x <;> simp [ptsBytes, leBytes_length]
@[simp] theorem tickBytes_length (x : Option Nat) : (tickBytes x).length = 6 := by cases x <;> simp [tickBytes, leBytes_length]
@[simp] theorem idBytes_length (x : Option Nat) : (idBytes x).length = 2 := by cases x <;> simp [idBytes, leBytes_length]
@[simp] theorem leadBytes_length (x : Option Int) : (leadBytes x).length = 5 := by cases x <;> simp [leadBytes, leBytes_length]
@[simp] theorem condBytes_length (x : BitVec 10) : (condBytes x).length = 2 := leBytes_length 2 _
@[simp] theorem freeBytes_length (n a b : Nat) : (freeBytes n a b).length = n := leBytes_length n _
@[simp] theorem instBytes_length (x : Option Inst) : (instBytes x).length = 8 := by
  cases x <;> simp [instBytes, leBytes_length, ptsBytes_length, idBytes_length]
@[simp] theorem leadBytesOf_length (l : List Comp) : (leadBytesOf l).length = 3 := by
  unfold leadBytesOf
  split <;> simp [leBytes_length]

/-- The three bytes of one component position (R201). -/
def positionBytes (x : Option Comp) : List Byte :=
  match x with
  | some c => leBytes 2 c.pid ++ [byte1 c.kind.code]
  | none => [0, 0, 0]

@[simp] theorem positionBytes_length (x : Option Comp) : (positionBytes x).length = 3 := by
  cases x <;> simp [positionBytes, leBytes_length]

theorem compBytes_eq (l : List Comp) : compBytes l = (List.range 8).flatMap (fun j => positionBytes l[j]?) := rfl

@[simp] theorem compBytes_length (l : List Comp) : (compBytes l).length = 24 := by
  rw [compBytes_eq, length_flatMap_const fun j => positionBytes_length _]
  rfl

@[simp] theorem state_bytes_length (x : EntryState) : x.bytes.length = 2 := by cases x <;> rfl
@[simp] theorem triggerBytes_length (x : Trigger) : (triggerBytes x).length = 7 := by cases x <;> simp [triggerBytes, leBytes_length]
@[simp] theorem retModeBytes_length (x : RetMode) : (retModeBytes x).length = 5 := by cases x <;> simp [retModeBytes, leBytes_length]
@[simp] theorem bindingBytes_length (x : Option Binding) : (bindingBytes x).length = 15 := by
  cases x <;> simp [bindingBytes, leBytes_length, ptsBytes_length]

end Sys2Proof.Machine
end

section
/-! O49: the reports, and the fields of their records (R75, R109, R168, R169, R203, R204, R206). -/

namespace Sys2Proof.Machine

variable {s u v : State} {p : PortId} {code : Nat} {run : State → Ans} {c : Instr} {st : Status} {b : List Byte}

/-! ### A report changes nothing -/

/-- A command that a port may send, taken, answers at once on a state that differs from `u` beside the links only. -/
theorem exec_answers (hc : exec c s = .next (command p code s run)) (ht : s.takes p) (ha : admitted p code = true)
    (hrun : run (openExchange s p code) = ⟨v, some (st, b)⟩) (hl : v.links = (openExchange u p code).links)
    (hv : v = { u with links := v.links }) : ∃ t, exec c s = .next t ∧ u.onlyAnswers t p (byte1 code) st b := by
  refine ⟨answer v p st b, ?_, answer_onlyAnswers p code u v st b hl hv⟩
  rw [hc, command_taken s p code run ht ha, hrun]
  rfl

/-- One that leaves the opened exchange as it is. -/
theorem exec_only_answers (hc : exec c s = .next (command p code s run)) (ht : s.takes p) (ha : admitted p code = true)
    (hrun : run (openExchange s p code) = ⟨openExchange s p code, some (st, b)⟩) :
    ∃ t, exec c s = .next t ∧ s.onlyAnswers t p (byte1 code) st b :=
  exec_answers hc ht ha hrun rfl (openExchange_frame s p code)

theorem admitted_of_report (p : PortId) (h : code < 0x20 ∨ 0x22 ≤ code ∧ code < 0x40 ∨ 0x45 ≤ code) : admitted p code = true := by
  unfold admitted
  rw [if_neg (by omega), if_neg (by omega)]

theorem serviceBytes_opened (i : Nat) : serviceBytes (openExchange s p code) i = serviceBytes s i := by
  rw [openExchange_eq]
  rfl

theorem entryBytes_opened (e : Entry) : entryBytes (openExchange s p code) e = entryBytes s e := by
  rw [openExchange_eq]
  rfl

theorem directoryBytes_opened (a n : Nat) : directoryBytes (openExchange s p code) a n = directoryBytes s a n := by
  rw [openExchange_eq]
  rfl

theorem clipBytes_opened (a : Nat) (r : ClipRec) : clipBytes (openExchange s p code) a r = clipBytes s a r := by
  rw [openExchange_eq]
  rfl

theorem openExchange_fresh_frame : (openExchange s p code).fresh.2 =
    { ({ s with freeCtr := s.freeCtr + 1 } : State) with links := (openExchange s p code).links } := by
  rw [openExchange_eq]
  rfl

/-- A reported record with a free field moves the selector on (log 11). -/
theorem exec_fresh_answers (hc : exec c s = .next (command p code s run)) (ht : s.takes p) (ha : admitted p code = true)
    (hrun : run (openExchange s p code) = ⟨(openExchange s p code).fresh.2, some (st, b)⟩) :
    ∃ t, exec c s = .next t ∧ ({ s with freeCtr := s.freeCtr + 1 } : State).onlyAnswers t p (byte1 code) st b := by
  refine exec_answers hc ht ha hrun ?_ openExchange_fresh_frame
  rw [openExchange_eq, openExchange_eq]
  rfl

section
variable (ht : s.takes p)
include ht

theorem exec_readService {i : Nat} (hi : i ≤ 47) : ∃ t, exec (.readService p i 0) s = .next t
    ∧ s.onlyAnswers t p 0x14#8 .ok (serviceBytes s i) := by
  refine exec_only_answers (run := runReadService i 0) rfl ht (admitted_of_report p (by omega)) ?_
  rw [runReadService, if_neg (by omega), serviceBytes_opened]
  rfl

theorem exec_readEntry {n : Nat} (hn : n ≤ 255) :
    (∀ e, s.entry n = some e → ∃ t, exec (.readEntry p n 0) s = .next t ∧ s.onlyAnswers t p 0x22#8 .ok (entryBytes s e))
    ∧ (s.entry n = none → ∃ t, exec (.readEntry p n 0) s = .next t ∧ s.onlyAnswers t p 0x22#8 .notfound []) := by
  refine ⟨fun e he => ?_, fun he => ?_⟩
  all_goals
    refine exec_only_answers (run := runReadEntry n 0) rfl ht (admitted_of_report p (by omega)) ?_
    unfold runReadEntry
    rw [if_neg (by omega), openExchange_entry, he]
  · exact congrArg (fun b => ok _ b) (entryBytes_opened e)
  · rfl

theorem exec_listDirectory {n : Nat} (h1 : 1 ≤ n) (hn : n ≤ 65534) : ∃ t, exec (.listDirectory p n 0) s = .next t
    ∧ ({ s with freeCtr := s.freeCtr + 1 } : State).onlyAnswers t p 0x36#8 .ok (directoryBytes s s.freeCtr n) := by
  refine exec_fresh_answers (run := runListDirectory n 0) rfl ht (admitted_of_report p (by omega)) ?_
  rw [runListDirectory, if_neg (by omega), directoryBytes_opened]
  exact congrArg (fun x => ok (openExchange s p 0x36).fresh.2 (directoryBytes s x n)) (openExchange_freeCtr s p 0x36)

theorem exec_readClip {n : Nat} {r : ClipRec} (h1 : 1 ≤ n) (hn : n ≤ 65534) (hr : s.clip n = some r) :
    ∃ t, exec (.readClip p n 0) s = .next t
      ∧ ({ s with freeCtr := s.freeCtr + 1 } : State).onlyAnswers t p 0x37#8 .ok (clipBytes s s.freeCtr r) := by
  have hok : ¬(badClip n = true ∨ 0 ≠ 0) := by simp [badClip]; omega
  refine exec_fresh_answers (run := runReadClip n 0) rfl ht (admitted_of_report p (by omega)) ?_
  unfold runReadClip
  rw [if_neg hok, openExchange_clip, hr]
  refine (congrArg (fun b => ok _ b) (clipBytes_opened _ r)).trans ?_
  exact congrArg (fun x => ok (openExchange s p 0x37).fresh.2 (clipBytes s x r)) (openExchange_freeCtr s p 0x37)

theorem exec_readProtection : ∃ t, exec (.readProtection p 0) s = .next t ∧ s.onlyAnswers t p 0x45#8 .ok
    [lockByte s.flash.prot, byte1 s.flash.prot.count, flagByte s.flash.unusable, flagByte s.flash.release.isSome] := by
  refine exec_only_answers (run := runReadProtection 0) rfl ht (admitted_of_report p (by omega)) ?_
  simp [runReadProtection, ok]

/-- Set Masks and Clear Conditions report the flags as they stood (R107, R108). -/
theorem exec_conditions {i : Nat} {m : BitVec 16} (hi : i ≤ 47) (hd : (s.svc i).defn.isSome = true) (hm : m.toNat < 1024) :
    (∃ t, exec (.setMasks p i m 0) s = .next t ∧ t.replied p 0x12#8 .ok (condBytes (s.svc i).cond.flags))
    ∧ ∃ t, exec (.clearConditions p i m 0) s = .next t ∧ t.replied p 0x13#8 .ok (condBytes (s.svc i).cond.flags) := by
  have hhigh : m >>> 10 = 0#16 := by
    apply BitVec.eq_of_toNat_eq
    rw [BitVec.toNat_ushiftRight, Nat.shiftRight_eq_div_pow]
    exact Nat.div_eq_of_lt hm
  have hok (code : Nat) : conditionArgsOk (openExchange s p code) i m 0 = true := by
    simp [conditionArgsOk, hi, hhigh, hd]
  refine ⟨?_, ?_⟩
  · obtain ⟨t, h, ha⟩ := exec_answers (u := s.modSvc i (fun v => { v with cond := { v.cond with masks := m.setWidth 10 } }))
      (run := runSetMasks i m 0) (c := .setMasks p i m 0) rfl ht (admitted_of_report p (by omega))
      (by rw [runSetMasks, hok, openExchange_svc]; rfl) (by rw [openExchange_eq, openExchange_eq]; rfl)
      (by rw [openExchange_eq]; rfl)
    exact ⟨t, h, ha.reply⟩
  · obtain ⟨t, h, ha⟩ := exec_answers
      (u := s.modSvc i (fun v => { v with cond := { v.cond with flags := v.cond.flags &&& ~~~(m.setWidth 10) } }))
      (run := runClearConditions i m 0) (c := .clearConditions p i m 0) rfl ht (admitted_of_report p (by omega))
      (by rw [runClearConditions, hok, openExchange_svc]; rfl) (by rw [openExchange_eq, openExchange_eq]; rfl)
      (by rw [openExchange_eq]; rfl)
    exact ⟨t, h, ha.reply⟩

end

/-! ### The record of Read Service (R204) -/

/-- The fields of a configured service's record, in their order. -/
def serviceFields (s : State) (i : Nat) (d : ServiceDef) : List (List Byte) :=
  let v := s.svc i
  let h := holderOf s i
  [[byte1 i, 1, byte1 d.lane, flagByte (s.live i), byte1 d.comps.length], compBytes d.comps, leadBytesOf d.comps,
    leBytes 2 d.pcrPid, idBytes d.cuePid, [byte1 (if d.strip then 0 else 1)], leBytes 2 d.ceiling, [byte1 h.1, byte1 h.2.1],
    [byte1 (heldLevel s i)], idBytes ((armedEntry s i).map (·.num)),
    [byte1 (match v.clk.st with | .unlocked => 0 | .locked => 1 | .holdover => 2)], tickBytes (some v.clk.sigma),
    leadBytes (lead s i), [flagByte v.clk.cand.isSome, byte1 (match s.monitor with | .reference => 0 | .backup => 1),
      byte1 (match v.sp.ret with | .idle => 0 | .returning _ => 1 | .emergency => 2)],
    instBytes v.sp.cur, instBytes v.sp.nxt, leBytes 4 (match v.sp.cur with | some n => n.k | none => 0), tickBytes v.sp.sigmaP,
    ptsBytes h.2.2.1, ptsBytes h.2.2.2, ptsBytes ((armedEntry s i).bind (·.s)),
    [byte1 (pagesHeld v.sp.cur), byte1 (pagesHeld v.sp.nxt)], condBytes v.cond.flags, condBytes v.cond.masks]

theorem serviceBytes_configured {i : Nat} {d : ServiceDef} (hd : (s.svc i).defn = some d) :
    serviceBytes s i = (serviceFields s i d).flatten := by
  simp [serviceBytes, hd, serviceFields] <;> exact ⟨rfl, rfl, rfl, rfl⟩

theorem serviceFields_lengths (s : State) (i : Nat) (d : ServiceDef) : (serviceFields s i d).map List.length =
    [5, 24, 3, 2, 2, 1, 2, 2, 1, 2, 1, 6, 5, 3, 8, 8, 4, 6, 5, 5, 5, 2, 2, 2] := by
  simp [serviceFields, leBytes_length]

theorem holderOf_active {i : Nat} {e : Entry} (he : activeEntry s i = some e) : holderOf s i = (1, e.num, e.s, e.e) := by
  simp [holderOf, he]

theorem holderOf_alert {i r : Nat} {t : Target} (hn : activeEntry s i = none) (hr : holdingAlert s i = some r)
    (ht : (s.alert r).target i = some t) : holderOf s i = (2, r, t.s, t.e) := by
  simp [holderOf, hn, hr, ht]

theorem holderOf_none {i : Nat} (hn : activeEntry s i = none) (hr : holdingAlert s i = none) : holderOf s i = (0, 0, none, none) := by
  simp [holderOf, hn, hr]

/-- λ, when it is not negative, as its number (R200). -/
theorem leadBytes_ofNat (x : Nat) : leadBytes (some (x : Int)) = leBytes 5 x := by
  have hcongr : ∀ n v w, v % 256 ^ n = w % 256 ^ n → leBytes n v = leBytes n w := by
    intro n
    induction n with
    | zero => exact fun _ _ _ => rfl
    | succ n ih =>
      intro v w h
      have h1 : v % 256 = w % 256 := by
        have := congrArg (· % 256) h
        simpa [Nat.mod_mod_of_dvd _ (dvd_pow_self 256 (Nat.succ_ne_zero n))] using this
      have h2 : v / 256 % 256 ^ n = w / 256 % 256 ^ n := by
        rw [pow_succ', ← Nat.mod_mul_right_div_self] at *
        rw [← Nat.mod_mul_right_div_self w, h]
      rw [leBytes, leBytes, ih _ _ h2]
      refine congrArg (· :: _) (BitVec.eq_of_toNat_eq ?_)
      rw [BitVec.toNat_ofNat, BitVec.toNat_ofNat]
      exact h1
  refine hcongr 5 _ x ?_
  rw [show ((x : Int) % 1099511627776).toNat = x % 1099511627776 by omega]
  exact Nat.mod_mod _ _

/-- Component `j` of a configured service's record (R204). -/
theorem serviceBytes_position {i j : Nat} {d : ServiceDef} (hd : (s.svc i).defn = some d) (hj : j < 8) :
    slice (serviceBytes s i) (5 + 3 * j) 3 = positionBytes d.comps[j]? := by
  have hpos : slice (serviceBytes s i) 5 24 = compBytes d.comps := by
    rw [serviceBytes_configured hd]
    exact slice_field (serviceFields_lengths s i d) 1 rfl rfl rfl
  have hrange : (List.range 8)[j]? = some j := List.getElem?_range hj
  rw [← slice_slice (a := serviceBytes s i) (m := 24) (off := 5) (by omega), hpos, compBytes_eq,
    ← List.append_nil (List.flatMap _ _)]
  exact (slice_flatMap (fun j => positionBytes_length d.comps[j]?) hrange (o := 0) (by omega)).trans
    (by rw [slice, List.drop_zero, List.take_of_length_le (by simp)])

/-- The fields of an entry's record (R203). -/
def entryFields (s : State) (e : Entry) : List (List Byte) :=
  [[byte1 e.num, portByte e.origin, byte1 e.svc, byte1 (levelOf e.origin)], e.st.bytes, triggerBytes e.trigger,
    retModeBytes e.retMode, leBytes 4 e.window, [byte1 e.pod.length], (List.range 4).flatMap (fun j => idBytes e.pod[j]?),
    ptsBytes e.a, bindingBytes e.binding, ptsBytes e.s, ptsBytes e.sEff, ptsBytes e.e,
    [byte1 e.podIdx, flagByte e.cancelled, byte1 (heldLevel s e.svc)]]

theorem entryBytes_eq (e : Entry) : entryBytes s e = (entryFields s e).flatten := by
  simp [entryBytes, entryFields]

theorem entryFields_lengths (e : Entry) : (entryFields s e).map List.length = [4, 2, 7, 5, 4, 1, 8, 5, 15, 5, 5, 5, 3] := by
  simp [entryFields, leBytes_length, length_flatMap_const (fun j => idBytes_length e.pod[j]?)]

/-! ### The clips' records (R168, R169) -/

theorem listBytes_length (seed : Nat) (r : ClipRec) : (listBytes s seed r).length = 15 := by
  unfold listBytes
  split <;> simp [leBytes_length]

/-- The unit that receives a clip, when it is the only one. -/
theorem ingestOf_of_unit {c : Nat} (h : (s.ingest p).st ≠ .none) (hc : (s.ingest p).clip = c)
    (hone : ∀ q, (s.ingest q).st ≠ .none → (s.ingest q).clip = c → q = p) : ingestOf s c = some (p, s.ingest p) := by
  have hfind : allPorts.find? (fun q => (s.ingest q).st != .none && (s.ingest q).clip == c) = some p := by
    obtain ⟨q, hq⟩ : ∃ q, allPorts.find? (fun q => (s.ingest q).st != .none && (s.ingest q).clip == c) = some q := by
      refine Option.isSome_iff_exists.1 (List.find?_isSome.2 ⟨p, ?_, by simp [h, hc]⟩)
      cases p <;> decide
    have hprop := List.find?_some hq
    rw [Bool.and_eq_true, bne_iff_ne, beq_iff_eq] at hprop
    rw [hq, hone q hprop.1 hprop.2]
  rw [ingestOf, hfind]
  rfl

/-- The fields of a record of List Directory (R168). -/
def listFields (s : State) (seed : Nat) (r : ClipRec) : List (List Byte) :=
  [leBytes 2 r.clip, [byte1 r.region.code, byte1 r.st.code], leBytes 2 r.chain.length, leBytes 2 r.rate,
    leBytes 4 (packetsOf s r), leBytes 2 r.refs, if r.st = .ingesting then freeBytes 1 seed r.clip else [byte1 r.marker.code]]

theorem listBytes_eq (seed : Nat) (r : ClipRec) : listBytes s seed r = (listFields s seed r).flatten := by
  simp [listBytes, listFields]

theorem listFields_lengths (seed : Nat) (r : ClipRec) : (listFields s seed r).map List.length = [2, 2, 2, 2, 4, 2, 1] := by
  unfold listFields
  split <;> simp [leBytes_length]

/-- The clips that one List Directory reports (R168). -/
def reportedClips (s : State) (start : Nat) : List ClipRec := s.directory.filter (fun r => decide (start ≤ r.clip))

/-- What follows the records of List Directory: the next clip id and the lengths of the lists (R168). -/
def directoryTail (s : State) (next : Option Nat) : List Byte :=
  idBytes next ++ leBytes 2 s.directory.length ++ leBytes 2 s.flash.freeA.length ++ leBytes 2 s.flash.dirtyA.length
    ++ leBytes 2 s.flash.freeM.length ++ leBytes 2 s.flash.dirtyM.length ++ leBytes 2 s.flash.bad.length

theorem directoryTail_length (s : State) (next : Option Nat) : (directoryTail s next).length = 14 := by
  simp [directoryTail, leBytes_length]

theorem directoryBytes_eq (seed start : Nat) : let l := reportedClips s start
    directoryBytes s seed start = [byte1 (l.take 32).length] ++ ((l.take 32).flatMap (listBytes s seed)
      ++ directoryTail s (if (l.drop 32).isEmpty then none else (l.take 32).getLast?.map (fun r => r.clip + 1))) := by
  simp only [directoryBytes, directoryTail, List.append_assoc]
  rfl

/-- A byte range within record `j`. -/
theorem directoryBytes_record {seed start j o n : Nat} {r : ClipRec} (hr : (reportedClips s start)[j]? = some r) (hj : j < 32)
    (ho : o + n ≤ 15) : slice (directoryBytes s seed start) (1 + 15 * j + o) n = slice (listBytes s seed r) o n := by
  rw [directoryBytes_eq, slice_skip (by simp; omega), show 1 + 15 * j + o - [byte1 _].length = 15 * j + o by simp; omega]
  exact slice_flatMap (fun r => listBytes_length seed r) (by rw [List.getElem?_take, if_pos hj, hr]) ho

theorem directoryBytes_tail (seed start : Nat) : let l := reportedClips s start
    slice (directoryBytes s seed start) (1 + 15 * (l.take 32).length) 14
      = directoryTail s (if 32 < l.length then (l[31]?).map (fun r => r.clip + 1) else none) := by
  intro l
  have hlen := length_flatMap_const (fun r => listBytes_length (s := s) seed r) (l.take 32)
  have hnext : (if (l.drop 32).isEmpty then none else (l.take 32).getLast?.map (fun r => r.clip + 1))
      = if 32 < l.length then (l[31]?).map (fun r => r.clip + 1) else none := by
    by_cases h : 32 < l.length
    · rw [if_pos h, if_neg (by simpa using h), List.getLast?_eq_getElem?, List.length_take, Nat.min_eq_left (by omega),
        List.getElem?_take, if_pos (by omega)]
    · rw [if_neg h, if_pos (by simpa using h)]
  rw [directoryBytes_eq, slice_skip (by simp), show 1 + 15 * (l.take 32).length - [byte1 _].length = 15 * (l.take 32).length by simp,
    slice_rest hlen, hnext, slice, List.drop_zero, List.take_of_length_le (by rw [directoryTail_length])]

/-- The fields before the seal values or the declared values in the record of Read Clip (R169). -/
def clipFields (seed : Nat) (r : ClipRec) : List (List Byte) :=
  [[byte1 r.region.code, byte1 r.st.code], if r.st = .ingesting then freeBytes 1 seed 0 else [byte1 r.marker.code],
    leBytes 2 r.refs, [byte1 r.chain.length], r.chain.flatMap (leBytes 2)]

theorem clipFields_lengths (seed : Nat) (r : ClipRec) :
    (clipFields seed r).map List.length = [2, 1, 2, 1, 2 * r.chain.length] := by
  unfold clipFields
  split <;> simp [leBytes_length, length_flatMap_const (fun c => leBytes_length 2 c)]

/-- The end of the record of Read Clip (R169). -/
def clipValues (s : State) (r : ClipRec) : List Byte :=
  match r.sealVals with
  | some v => sealReply v
  | none => match ingestOf s r.clip with
    | some g => ingestReply g.1 g.2
    | none => []

theorem clipBytes_eq (seed : Nat) (r : ClipRec) : clipBytes s seed r = (clipFields seed r ++ [clipValues s r]).flatten := by
  simp only [clipBytes, clipFields, List.append_assoc, List.cons_append, List.nil_append, List.flatten_cons, List.flatten_nil,
    List.append_nil]
  rfl

/-! ### The obligation -/

/-- The fields of a configured service's record whose place depends on nothing (R204). -/
theorem serviceBytes_field {i : Nat} {d : ServiceDef} (hd : (s.svc i).defn = some d) (m : Nat) {off n : Nat} {a : List Byte}
    (hm : ((serviceFields s i d).drop m).take 1 = [a])
    (ho : ([5, 24, 3, 2, 2, 1, 2, 2, 1, 2, 1, 6, 5, 3, 8, 8, 4, 6, 5, 5, 5, 2, 2, 2].take m).sum = off)
    (hn : (([5, 24, 3, 2, 2, 1, 2, 2, 1, 2, 1, 6, 5, 3, 8, 8, 4, 6, 5, 5, 5, 2, 2, 2].drop m).take 1).sum = n) :
    slice (serviceBytes s i) off n = a := by
  rw [serviceBytes_configured hd]
  exact slice_field (serviceFields_lengths s i d) m hm ho hn

theorem serviceBytes_two_fields {i : Nat} {d : ServiceDef} (hd : (s.svc i).defn = some d) (m : Nat) {off n : Nat} {a r : List Byte}
    (hm : ((serviceFields s i d).drop m).take 2 = [a, r])
    (ho : ([5, 24, 3, 2, 2, 1, 2, 2, 1, 2, 1, 6, 5, 3, 8, 8, 4, 6, 5, 5, 5, 2, 2, 2].take m).sum = off)
    (hn : (([5, 24, 3, 2, 2, 1, 2, 2, 1, 2, 1, 6, 5, 3, 8, 8, 4, 6, 5, 5, 5, 2, 2, 2].drop m).take 2).sum = n) :
    slice (serviceBytes s i) off n = a ++ r := by
  rw [serviceBytes_configured hd]
  exact slice_two_fields (serviceFields_lengths s i d) m hm ho hn

/-- The holder's fields stand in two places (R109). -/
theorem serviceBytes_holder {i : Nat} {d : ServiceDef} (hd : (s.svc i).defn = some d) {h : Nat × Nat × Option Nat × Option Nat}
    (hh : holderOf s i = h) : slice (serviceBytes s i) 39 2 = [byte1 h.1, byte1 h.2.1]
      ∧ slice (serviceBytes s i) 85 10 = ptsBytes h.2.2.1 ++ ptsBytes h.2.2.2 := by
  subst hh
  exact ⟨serviceBytes_field hd 7 rfl rfl rfl, serviceBytes_two_fields hd 18 rfl rfl rfl⟩

theorem entryBytes_field (e : Entry) (m : Nat) {off n : Nat} {a : List Byte} (hm : ((entryFields s e).drop m).take 1 = [a])
    (ho : ([4, 2, 7, 5, 4, 1, 8, 5, 15, 5, 5, 5, 3].take m).sum = off)
    (hn : (([4, 2, 7, 5, 4, 1, 8, 5, 15, 5, 5, 5, 3].drop m).take 1).sum = n) : slice (entryBytes s e) off n = a := by
  rw [entryBytes_eq]
  exact slice_field (entryFields_lengths e) m hm ho hn

theorem entryBytes_pod (e : Entry) {j : Nat} (hj : j < 4) : slice (entryBytes s e) (23 + 2 * j) 2 = idBytes e.pod[j]? := by
  have hpod : slice (entryBytes s e) 23 8 = (List.range 4).flatMap (fun j => idBytes e.pod[j]?) := entryBytes_field e 6 rfl rfl rfl
  rw [← slice_slice (m := 8) (off := 23) (by omega), hpod, ← List.append_nil (List.flatMap _ _)]
  exact (slice_flatMap (fun j => idBytes_length e.pod[j]?) (List.getElem?_range hj) (o := 0) (by omega)).trans
    (by rw [slice, List.drop_zero, List.take_of_length_le (by simp)])

theorem entryBytes_binding (e : Entry) : slice (entryBytes s e) 36 15 = bindingBytes e.binding := entryBytes_field e 8 rfl rfl rfl

theorem bindingBytes_fields (y : Binding) : slice (bindingBytes (some y)) 0 6 = [1] ++ leBytes 4 y.cueId ++ [y.flags]
    ∧ slice (bindingBytes (some y)) 6 5 = ptsBytes y.splice ∧ slice (bindingBytes (some y)) 11 4 = leBytes 4 (y.duration.getD 0) := by
  have hb : bindingBytes (some y) = [[1] ++ leBytes 4 y.cueId ++ [y.flags], ptsBytes y.splice, leBytes 4 (y.duration.getD 0)].flatten := by
    simp [bindingBytes]
  have hl : [[1] ++ leBytes 4 y.cueId ++ [y.flags], ptsBytes y.splice, leBytes 4 (y.duration.getD 0)].map List.length = [6, 5, 4] := by
    simp [leBytes_length]
  rw [hb]
  exact ⟨slice_field hl 0 rfl rfl rfl, slice_field hl 1 rfl rfl rfl, slice_field hl 2 rfl rfl rfl⟩

/-- An instance in the record, field by field (R204). -/
theorem instBytes_eq (x : Option Inst) : instBytes x = match x with
    | some n => leBytes 2 n.clip ++ [match n.phase with | .seeking => 0#8 | .playing => 1#8 | .ending => 2#8] ++ ptsBytes n.delta
    | none => [0xFF#8, 0xFF#8, 0#8] ++ List.replicate 5 0xFF#8 := by
  cases x with
  | none => rfl
  | some n =>
    simp only [instBytes]
    cases n.phase <;> rfl

/-- Settles O49: each report answers on the opened exchange, and each field is a chunk of its record. -/
theorem reportsChangeNothing : Obligations.ReportsChangeNothing := by
  refine ⟨fun s p ht => ⟨fun i hi => exec_readService ht hi, fun n e hn he => (exec_readEntry ht hn).1 e he,
    fun n hn he => (exec_readEntry ht hn).2 he, fun c h1 hc => exec_listDirectory ht h1 hc,
    fun c r h1 hc hr => exec_readClip ht h1 hc hr, exec_readProtection ht, fun i m hi hd hm => exec_conditions ht hi hd hm⟩, fun s => ?_⟩
  intro one pts ticks id port level inst marker comps unit pages
  refine ⟨fun i d hd hc => ?_, fun i hd => ?_, fun e he => ?_, fun seed start => ?_, fun seed r => ?_⟩
  · intro b v
    refine ⟨?_, ?_, fun j hj => ?_, fun j c hj hx => ?_, ?_, ?_, ?_, fun e he => ?_, fun r t hn hr ht => ?_, fun hn hr => ?_,
      ?_, ?_, ?_, ?_, ?_, fun hl => ?_, fun x hl => ?_, ?_, ?_, ?_, fun n hn => ?_, ?_, ?_, ?_⟩
    · show (serviceBytes s i).length = 106
      rw [serviceBytes_configured hd, List.length_flatten, serviceFields_lengths]
      rfl
    · exact serviceBytes_field hd 0 rfl rfl rfl
    · exact (serviceBytes_position hd hj).trans (by cases d.comps[j]? <;> rfl)
    · refine (serviceBytes_field hd 2 rfl rfl rfl).trans ?_
      simp only [leadBytesOf, hj, Option.bind_some, hx]
      rfl
    · exact serviceBytes_field hd 3 rfl rfl rfl
    · exact serviceBytes_field hd 4 rfl rfl rfl
    · refine (serviceBytes_two_fields hd 5 rfl rfl rfl).trans ?_
      cases d.strip <;> rfl
    · exact serviceBytes_holder hd (holderOf_active he)
    · exact serviceBytes_holder hd (holderOf_alert hn hr ht)
    · exact serviceBytes_holder hd (holderOf_none hn hr)
    · exact serviceBytes_field hd 8 rfl rfl rfl
    · exact serviceBytes_field hd 9 rfl rfl rfl
    · exact serviceBytes_field hd 20 rfl rfl rfl
    · refine (serviceBytes_field hd 10 rfl rfl rfl).trans ?_
      cases v.clk.st <;> rfl
    · exact serviceBytes_field hd 11 rfl rfl rfl
    · refine (serviceBytes_field hd 12 rfl rfl rfl).trans ?_
      rw [hl]
      rfl
    · refine (serviceBytes_field hd 12 rfl rfl rfl).trans ?_
      rw [hl]
      exact leadBytes_ofNat x
    · refine (serviceBytes_field hd 13 rfl rfl rfl).trans ?_
      cases s.monitor <;> cases v.sp.ret <;> rfl
    · refine (serviceBytes_field hd 14 rfl rfl rfl).trans ?_
      exact instBytes_eq _
    · refine (serviceBytes_field hd 15 rfl rfl rfl).trans ?_
      exact instBytes_eq _
    · refine (serviceBytes_field hd 16 rfl rfl rfl).trans ?_
      rw [show (s.svc i).sp.cur = some n from hn]
    · exact serviceBytes_field hd 17 rfl rfl rfl
    · exact serviceBytes_field hd 21 rfl rfl rfl
    · exact serviceBytes_two_fields hd 22 rfl rfl rfl
  · simp only [serviceBytes, hd]
    exact ⟨rfl, rfl, rfl, rfl, rfl⟩
  · intro b
    refine ⟨?_, ?_, ?_, ?_, ?_, ?_, fun j hj => entryBytes_pod e hj, entryBytes_field e 7 rfl rfl rfl, fun hn => ?_,
      fun y hy => ?_, ?_, entryBytes_field e 12 rfl rfl rfl⟩
    · show (entryBytes s e).length = 69
      rw [entryBytes_eq, List.length_flatten, entryFields_lengths]
      rfl
    · refine (entryBytes_field e 0 rfl rfl rfl).trans ?_
      dsimp only [one, port, level]
      cases e.origin <;> rfl
    · refine (entryBytes_field e 1 rfl rfl rfl).trans ?_
      rcases e.st with _ | c | _ | _
      case waiting => cases c <;> rfl
      all_goals rfl
    · refine (entryBytes_field e 2 rfl rfl rfl).trans ?_
      cases e.trigger <;> rfl
    · refine (entryBytes_field e 3 rfl rfl rfl).trans ?_
      cases e.retMode <;> rfl
    · dsimp only [b]
      rw [entryBytes_eq]
      exact slice_two_fields (entryFields_lengths e) 4 rfl rfl rfl
    · exact (entryBytes_binding e).trans (by rw [hn]; rfl)
    · obtain ⟨hid, hsplice, hdur⟩ := bindingBytes_fields y
      have hb : slice b 36 15 = bindingBytes (some y) := (entryBytes_binding e).trans (by rw [hy])
      have hin {o n : Nat} (h : o + n ≤ 15) : slice b (36 + o) n = slice (bindingBytes (some y)) o n := by
        rw [← hb, slice_slice h]
      refine ⟨(hin (o := 0) (by omega)).trans hid, fun x hx => (hin (o := 6) (by omega)).trans ?_,
        fun x hx => (hin (o := 11) (by omega)).trans ?_⟩
      · rw [hsplice, hx]
        rfl
      · rw [hdur, hx]
        rfl
    · dsimp only [b]
      rw [entryBytes_eq]
      refine (slice_fields (mid := [ptsBytes e.s, ptsBytes e.sEff, ptsBytes e.e]) (entryFields_lengths e) 9 3 rfl rfl rfl).trans ?_
      show _ = ptsBytes e.s ++ ptsBytes e.sEff ++ ptsBytes e.e
      simp
  · intro l b n
    refine ⟨?_, fun j r hj hr => ?_, directoryBytes_tail seed start⟩
    · dsimp only [b]
      rw [directoryBytes_eq, slice_here (by simp)]
      rfl
    · have hfields {o n off : Nat} (hoff : off = 1 + 15 * j + o) (h : o + n ≤ 15) :
          slice b off n = slice (listFields s seed r).flatten o n := by
        rw [hoff, ← listBytes_eq]
        exact directoryBytes_record hr hj h
      have hfield {o n off : Nat} (hoff : off = 1 + 15 * j + o) (h : o + n ≤ 15) (m : Nat) {a : List Byte}
          (hm : ((listFields s seed r).drop m).take 1 = [a]) (ho : ([2, 2, 2, 2, 4, 2, 1].take m).sum = o)
          (hn : (([2, 2, 2, 2, 4, 2, 1].drop m).take 1).sum = n) : slice b off n = a :=
        (hfields hoff h).trans (slice_field (listFields_lengths seed r) m hm ho hn)
      have hpackets : slice b (9 + 15 * j) 4 = leBytes 4 (packetsOf s r) :=
        hfield (o := 8) (by omega) (by omega) 4 rfl rfl rfl
      refine ⟨?_, fun v hv => ⟨?_, ?_⟩, fun d hv hd => ?_, fun p hv ⟨hu, hc, hone⟩ => ?_, hfield (o := 12) (by omega) (by omega) 5 rfl rfl rfl,
        fun hst => ?_⟩
      · refine (hfields (o := 0) (n := 8) rfl (by omega)).trans ?_
        refine (slice_fields (mid := [leBytes 2 r.clip, [byte1 r.region.code, byte1 r.st.code], leBytes 2 r.chain.length, leBytes 2 r.rate])
          (listFields_lengths seed r) 0 4 rfl rfl rfl).trans ?_
        show _ = leBytes 2 r.clip ++ [byte1 r.region.code, byte1 r.st.code] ++ leBytes 2 r.chain.length ++ leBytes 2 r.rate
        simp
      · simp [ClipRec.rate, hv]
      · rw [hpackets, packetsOf, hv]
      · simp [ClipRec.rate, hv, hd]
      · rw [hpackets, packetsOf, hv, ingestOf_of_unit hu hc hone]
      · refine (hfield (o := 14) (n := 1) (by omega) (by omega) 6 rfl rfl rfl).trans ?_
        rw [if_neg hst]
        cases r.marker <;> rfl
  · intro b n
    have hb : b = (clipFields seed r ++ [clipValues s r]).flatten := clipBytes_eq seed r
    have hlens : (clipFields seed r ++ [clipValues s r]).map List.length = [2, 1, 2, 1, n, (clipValues s r).length] := by
      rw [List.map_append, clipFields_lengths]
      rfl
    have hvalues : b.drop (6 + n) = clipValues s r := by
      have hlen : (clipFields seed r).flatten.length = 6 + n := by
        rw [List.length_flatten, clipFields_lengths]
        simp [n]
        omega
      rw [hb, List.flatten_append, ← hlen, List.drop_left]
      simp
    refine ⟨?_, fun hst => ?_, ?_, ?_, fun v hv => ?_, fun p hv ⟨hu, hc, hone⟩ => ?_⟩
    · rw [hb]
      exact slice_field hlens 0 rfl rfl rfl
    · rw [hb]
      refine (slice_field hlens 1 rfl rfl rfl).trans ?_
      rw [if_neg hst]
      cases r.marker <;> rfl
    · rw [hb]
      exact slice_two_fields hlens 2 rfl rfl rfl
    · rw [hb]
      exact slice_field hlens 4 rfl rfl rfl
    · rw [hvalues, clipValues, hv]
      dsimp only [sealReply, portByte]
      cases v.origin <;> rfl
    · rw [hvalues, clipValues, hv, ingestOf_of_unit hu hc hone]
      dsimp only [ingestReply, portByte]
      cases p <;> rfl

end Sys2Proof.Machine
end

section
/-! A new entry in the schedule: what it leaves, and its arming on a free service (R50, R51, R56 to R61, R65). -/

namespace Sys2Proof.Machine

variable {s u : State} {p : PortId} {i k n : Nat} {e : Entry} {a : EntryArgs}

/-! ### The references of a pod (R127) -/

theorem foldl_addRef_frame (l : List Nat) (s : State) : l.foldl State.addRef s = { s with dir := (l.foldl State.addRef s).dir } := by
  induction l generalizing s with
  | nil => rfl
  | cons c r ih =>
    rw [List.foldl_cons, ih]
    rfl

theorem foldl_addRef_clip (l : List Nat) (s : State) (c : Nat) :
    (l.foldl State.addRef s).clip c = (s.clip c).map (fun r => { r with refs := r.refs + l.count c }) := by
  induction l generalizing s with
  | nil => simp
  | cons d r ih =>
    rw [List.foldl_cons, ih, State.addRef, State.clip_setClip]
    by_cases h : c = d
    · subst h
      cases s.clip c with
      | none => simp
      | some r =>
        simp
        omega
    · rw [if_neg h, List.count_cons_of_ne (Ne.symm h)]

/-! ### A record that joins a table -/

/-- The values of a table with a record put in: the new one, and some of the old. -/
theorem Table.vals_set_split {α : Type} [DecidableEq α] (t : Table (Option α)) (k : Nat) (v : α) :
    ∃ l, (Table.vals (Table.set none t k (some v))).Perm (v :: l) ∧ l.Sublist (Table.vals t) := by
  have hinsert : ∀ t : Table (Option α), (Table.vals (Table.insert k (some v) t)).Perm (v :: Table.vals t) := by
    intro t
    induction t with
    | nil => exact List.Perm.refl _
    | cons e r ih =>
      obtain ⟨j, w⟩ := e
      unfold Table.insert
      split
      · exact List.Perm.refl _
      · cases w with
        | none => exact ih
        | some w => exact (ih.cons w).trans (List.Perm.swap _ _ _)
  refine ⟨Table.vals (t.filter (fun e => e.1 != k)), ?_, List.filter_sublist.filterMap _⟩
  rw [Table.set, if_neg (by simp)]
  exact hinsert _

/-! ### The state with the entry in it (R51) -/

/-- The state that holds the new entry and the references of its pod. -/
def State.added (s : State) (n : Nat) (e : Entry) : State := (e.pod.foldl State.addRef s).setEntry n (some e)

theorem added_frame (s : State) (n : Nat) (e : Entry) :
    s.added n e = { s with dir := (s.added n e).dir, entries := Table.set none s.entries n (some e) } := by
  unfold State.added
  rw [foldl_addRef_frame]
  rfl

theorem added_entry (s : State) (n : Nat) (e : Entry) (m : Nat) : (s.added n e).entry m = if m = n then some e else s.entry m := by
  rw [State.entry, added_frame, Table.get_set]
  rfl

theorem added_clip (s : State) (n : Nat) (e : Entry) (c : Nat) :
    (s.added n e).clip c = (s.clip c).map (fun r => { r with refs := r.refs + e.pod.count c }) := foldl_addRef_clip e.pod s c

section
variable (s : State) (n : Nat) (e : Entry)

theorem added_svc (j : Nat) : (s.added n e).svc j = s.svc j := by rw [added_frame]; rfl
theorem added_sp (j : Nat) : (s.added n e).sp j = s.sp j := by rw [added_frame]; rfl
theorem added_lane (j : Nat) : (s.added n e).lane j = s.lane j := by rw [added_frame]; rfl
theorem added_laneOf (j : Nat) : (s.added n e).laneOf j = s.laneOf j := by rw [added_frame]; rfl
theorem added_cfgOf (j : Nat) : (s.added n e).cfgOf j = s.cfgOf j := by rw [added_frame]; rfl
theorem added_serviceTime (j : Nat) : serviceTime (s.added n e) j = serviceTime s j := by rw [added_frame]; rfl
theorem added_earliest (j : Nat) : earliest (s.added n e) j = earliest s j := by rw [added_frame]; rfl
theorem added_holdingAlert (j : Nat) : holdingAlert (s.added n e) j = holdingAlert s j := by rw [added_frame]; rfl

theorem added_clipDamaged (c : Nat) : (s.added n e).clipDamaged c = s.clipDamaged c := by
  rw [State.clipDamaged, added_clip, State.clipDamaged]
  cases s.clip c <;> rfl

theorem added_podRate (l : List Nat) : podRate (s.added n e) l = podRate s l := by
  have hseal : (s.added n e).sealOf = s.sealOf := funext fun c => by
    rw [State.sealOf, added_clip, State.sealOf]
    cases s.clip c <;> rfl
  simp only [podRate, hseal]

end

/-! ### A PENDING entry that joins changes no commitment (R65) -/

/-- The new entry and some of the old ones are the schedule. -/
theorem added_schedule (s : State) (n : Nat) (e : Entry) :
    ∃ l, (s.added n e).schedule.Perm (e :: l) ∧ l.Sublist s.schedule := by
  rw [State.schedule, added_frame]
  exact Table.vals_set_split s.entries n e

/-- An entry of the service stands in a state after a new one in another state has joined only if one did before. -/
theorem added_find_none {st : EntryState} (hst : e.st ≠ st) (h : (entriesOf s i).find? (fun x => x.st == st) = none) :
    (entriesOf (s.added n e) i).find? (fun x => x.st == st) = none := by
  obtain ⟨l, hperm, hsub⟩ := added_schedule s n e
  rw [List.find?_eq_none] at h ⊢
  intro x hx
  obtain ⟨hx, hi⟩ := (mem_entriesOf _ _ _).1 hx
  rcases List.mem_cons.1 (hperm.subset hx) with rfl | hx
  · simpa using hst
  · exact h x ((mem_entriesOf _ _ _).2 ⟨hsub.subset hx, hi⟩)

theorem added_committed (hst : e.st = .pending) (k : Nat) : committed (s.added n e) k ≤ committed s k := by
  obtain ⟨l, hperm, hsub⟩ := added_schedule s n e
  have hlane : (s.added n e).laneOf = s.laneOf := funext (added_laneOf s n e)
  unfold committed
  rw [hlane]
  rw [((hperm.filter _).map _).sum_eq, List.filter_cons_of_neg (by simp [hst])]
  exact ((hsub.filter _).map _).sum_le_sum fun _ _ => Nat.zero_le _

/-! ### An instance in a free next role (R77) -/

theorem placeInst_frame (s : State) (i : Nat) (q : InstReq) :
    placeInst s i q = { s with services := (placeInst s i q).services, boxes := (placeInst s i q).boxes } := by
  unfold placeInst
  split
  · rfl
  · split
    · rfl
    · dsimp only
      rw [raiseIf_frame]
      rfl

/-- A run on a service that nothing holds and with room in its lane's pool arms the entry, and demotes none (R60, R61). -/
theorem armRun_free {sp : Nat} (he : s.entry n = some e) (hk : s.laneOf e.svc = some k) (hd : ∀ c ∈ e.pod, s.clipDamaged c = false)
    (ha : e.triggerTime s = none) (hf : earliest s e.svc = some sp) (hfree : heldLevel s e.svc = 0)
    (harm : armedEntry s e.svc = none) (hfit : committed s k + podRate s e.pod ≤ (s.lane k).cfg.pool) :
    armRun s n = (requestNext (s.setEntry n (some { e with st := .armed, a := none, s := some sp, commitment := podRate s e.pod }))
      e.svc { clip := e.pod.headD 0, owner := .entry n, s := some sp }, false) := by
  have hgood : ¬e.pod.any s.clipDamaged = true := by simpa using hd
  have hlevel : heldLevel s e.svc < levelOf e.origin := by
    rw [hfree]
    cases e.origin <;> decide
  have hlate : lateness sp none ≤ (e.window : Int) := Int.natCast_nonneg _
  have hgive : s.givenBack e.svc = 0 := by rw [State.givenBack, harm]
  have hyield : s.yielded e.svc = s := by rw [State.yielded, harm]
  rw [armRun_eq he hk, if_neg hgood, ha, hf, later, judgedAt_arms hlate hlevel (by rw [hgive]; exact hfit), State.arming, hyield, harm]
  rfl

/-- Without a feasible point an undamaged entry without a trigger time waits for the clock (R56, R60). -/
theorem armAndArbitrate_clock (he : s.entry n = some e) (hd : ∀ c ∈ e.pod, s.clipDamaged c = false) (ha : e.triggerTime s = none)
    (hf : earliest s e.svc = none) (hnone : e.a = none) :
    armAndArbitrate s n = s.setEntry n (some { e with st := .waiting .clock }) := by
  have hgood : ¬e.pod.any s.clipDamaged = true := by simpa using hd
  have hrun : armRun s n = (s.setEntry n (some { e with st := .waiting .clock }), false) := by
    rw [armRun_of_entry he, if_neg hgood, ha, hf, later, State.judgedAt, ← hnone]
  simp [armAndArbitrate, hrun]

end Sys2Proof.Machine
end

section
/-! O50: Add Entry. -/

namespace Sys2Proof.Machine

variable {s u : State} {p : PortId} {k n : Nat} {e : Entry} {a : EntryArgs}

/-! ### The checks of R50 -/

theorem entryArgsOk_iff : entryArgsOk a = true ↔ a.svc ≤ 47 ∧ 1 ≤ a.podCount ∧ a.podCount ≤ 4
    ∧ (∀ c ∈ a.pod.take a.podCount, c ≠ 0 ∧ c ≠ 65535) ∧ (∀ c ∈ a.pod.drop a.podCount, c = 0) ∧ a.trigKind ≤ 2 ∧ a.retKind ≤ 2
    ∧ (a.trigKind = 0 → a.trigValue < 65536) ∧ (a.trigKind = 1 → a.trigValue < nClk) ∧ (a.trigKind = 2 → a.trigValue = 0)
    ∧ (a.retKind = 1 → 1 ≤ a.duration ∧ a.duration ≤ 324000000) ∧ (a.retKind ≠ 1 → a.duration = 0)
    ∧ a.window ≤ 900000 ∧ a.res = 0 := by
  have hret : (if a.retKind = 1 then decide (1 ≤ a.duration ∧ a.duration ≤ 324000000) else decide (a.duration = 0)) = true
      ↔ (a.retKind = 1 → 1 ≤ a.duration ∧ a.duration ≤ 324000000) ∧ (a.retKind ≠ 1 → a.duration = 0) := by
    by_cases h : a.retKind = 1 <;> simp [h]
  have htrig : (decide (a.trigKind ≤ 2) && match a.trigKind with
        | 0 => decide (a.trigValue < 65536)
        | 1 => decide (a.trigValue < nClk)
        | _ => decide (a.trigValue = 0)) = true
      ↔ a.trigKind ≤ 2 ∧ (a.trigKind = 0 → a.trigValue < 65536) ∧ (a.trigKind = 1 → a.trigValue < nClk)
        ∧ (a.trigKind = 2 → a.trigValue = 0) := by
    obtain h | h | h | ⟨m, h⟩ : a.trigKind = 0 ∨ a.trigKind = 1 ∨ a.trigKind = 2 ∨ ∃ m, a.trigKind = m + 3 := by
      rcases a.trigKind with _ | _ | _ | m
      · exact .inl rfl
      · exact .inr (.inl rfl)
      · exact .inr (.inr (.inl rfl))
      · exact .inr (.inr (.inr ⟨m, rfl⟩))
    all_goals simp [h]
  unfold entryArgsOk
  simp only [Bool.and_eq_true, hret, List.all_eq_true, decide_eq_true_eq, bne_iff_ne, beq_iff_eq] at htrig ⊢
  constructor
  · rintro ⟨⟨⟨⟨⟨⟨⟨⟨⟨hs, hp1, hp4⟩, hpod⟩, hdrop⟩, hk⟩, hr⟩, hv⟩, hd, hd'⟩, hw⟩, hres⟩
    obtain ⟨-, h0, h1, h2⟩ := htrig.1 ⟨hk, hv⟩
    exact ⟨hs, hp1, hp4, hpod, hdrop, hk, hr, h0, h1, h2, hd, hd', hw, hres⟩
  · rintro ⟨hs, hp1, hp4, hpod, hdrop, hk, hr, h0, h1, h2, hd, hd', hw, hres⟩
    exact ⟨⟨⟨⟨⟨⟨⟨⟨⟨hs, hp1, hp4⟩, hpod⟩, hdrop⟩, hk⟩, hr⟩, (htrig.2 ⟨hk, h0, h1, h2⟩).2⟩, hd, hd'⟩, hw⟩, hres⟩

theorem live_iff (i : Nat) : s.live i = true ↔ ∃ d, (s.svc i).defn = some d ∧ (s.lane d.lane).mode = .running := by
  unfold State.live State.laneOf
  cases (s.svc i).defn <;> simp

theorem playable_iff (c : Nat) : playable s c = true ↔ ∃ r, s.clip c = some r ∧ r.st = .good ∧ r.region = .main := by
  unfold playable
  cases s.clip c <;> simp

/-- The pod's rate is the largest of its clips' (R48). -/
theorem podRate_le_iff (l : List Nat) (m : Nat) : podRate s l ≤ m ↔ ∀ c r v, c ∈ l → s.clip c = some r → r.sealVals = some v → v.rate ≤ m := by
  have hfold (g : Nat → Nat) : ∀ (l : List Nat) (b : Nat), l.foldl (fun m c => max m (g c)) b ≤ m ↔ b ≤ m ∧ ∀ c ∈ l, g c ≤ m := by
    intro l
    induction l with
    | nil => simp
    | cons c l ih =>
      intro b
      rw [List.foldl_cons, ih, List.forall_mem_cons, Nat.max_le, and_assoc]
  refine (hfold (fun c => match s.sealOf c with | some v => v.rate | none => 0) l 0).trans ?_
  refine (and_iff_right (Nat.zero_le m)).trans (forall_congr' fun c => ?_)
  unfold State.sealOf
  cases hr : s.clip c with
  | none => simp
  | some r =>
    cases hv : r.sealVals with
    | none =>
      simp only [Option.bind_some, hv, Option.some.injEq]
      exact ⟨fun _ x w _ hx hw => absurd (hv.symm.trans (hx ▸ hw)) (by simp), fun _ _ => Nat.zero_le m⟩
    | some v =>
      simp only [Option.bind_some, hv, Option.some.injEq]
      exact ⟨fun h x w hc hx hw => Option.some.inj (hv.symm.trans (hx ▸ hw)) ▸ h hc, fun h hc => h r v hc rfl hv⟩

theorem playable_not_damaged {c : Nat} (h : playable s c = true) : s.clipDamaged c = false := by
  obtain ⟨r, hr, hst, -⟩ := (playable_iff c).1 h
  simp [State.clipDamaged, hr, hst]

theorem freeNumber_eq (hn : n < 256) (hfree : s.entry n = none) (hless : ∀ m, m < n → (s.entry m).isSome = true) :
    freeNumber s = some n := by
  rw [freeNumber, List.find?_range_eq_some]
  exact ⟨by simp [hfree], List.mem_range.2 hn, fun m hm => by simpa using hless m hm⟩

/-! ### The command (R50, R51) -/

theorem exec_addEntry (h : s.takes p) (hp : p ≠ .ap) :
    exec (.addEntry p a) s = .next ((runAddEntry p a (openExchange s p 0x20)).done p) := by
  have ha : admitted p 0x20 = true := by
    cases p with
    | ap => exact absurd rfl hp
    | tp => rfl
    | pp => rfl
  exact congrArg Host.Outcome.next (command_taken s p 0x20 (runAddEntry p a) h ha)

/-- What R50 checks, told of the state before the exchange. -/
structure EntryAccepted (s : State) (a : EntryArgs) : Prop where
  args : entryArgsOk a = true
  cue : a.retKind = 0 → a.trigKind = 0
  live : s.live a.svc = true
  found : ∀ c ∈ a.pod.take a.podCount, playable s c = true
  within : podRate s (a.pod.take a.podCount) ≤ ((s.svc a.svc).defn.map (·.ceiling)).getD 0

theorem runAddEntry_accepted (h : EntryAccepted s a) : runAddEntry p a s = match freeNumber s with
    | none => err s .full
    | some n => ok (rest (applyTrigger (s.added n (newEntry p a n)) n))
        (byte1 n :: addReply (applyTrigger (s.added n (newEntry p a n)) n) n) := by
  have hall : (a.pod.take a.podCount).all (playable s) = true := List.all_eq_true.2 h.found
  unfold runAddEntry
  simp only [h.args, hall, h.live, Bool.not_true, Bool.false_eq_true, if_false, if_neg (Nat.not_lt.2 h.within),
    if_neg (fun hc : a.retKind = 0 ∧ a.trigKind ≠ 0 => hc.2 (h.cue hc.1))]
  rfl

/-- The conditions read nothing that the opened exchange changes. -/
theorem EntryAccepted.opened (h : EntryAccepted s a) (code : Nat) : EntryAccepted (openExchange s p code) a := by
  obtain ⟨hargs, hcue, hlive, hfound, hwithin⟩ := h
  rw [openExchange_eq]
  exact ⟨hargs, hcue, hlive, hfound, hwithin⟩

/-- The refusals, in the order of R50. -/
theorem runAddEntry_refused (h : entryArgsOk a = false ∨ (a.retKind = 0 ∧ a.trigKind ≠ 0) ∨ s.live a.svc = false) :
    runAddEntry p a s = err s .badparam := by
  unfold runAddEntry
  by_cases h1 : entryArgsOk a = true
  · by_cases h2 : a.retKind = 0 ∧ a.trigKind ≠ 0
    · simp [h1, h2]
    · have h3 : s.live a.svc = false := (h.resolve_left (by simp [h1])).resolve_left h2
      simp [h1, h2, h3]
  · simp [h1]

section
variable (h1 : entryArgsOk a = true) (h2 : a.retKind = 0 → a.trigKind = 0) (h3 : s.live a.svc = true)
include h1 h2 h3

theorem runAddEntry_notfound (h4 : ¬∀ c ∈ a.pod.take a.podCount, playable s c = true) : runAddEntry p a s = err s .notfound := by
  have hall : (a.pod.take a.podCount).all (playable s) = false := Bool.eq_false_iff.2 (mt List.all_eq_true.1 h4)
  unfold runAddEntry
  simp only [h1, hall, h3, Bool.not_true, Bool.not_false, Bool.false_eq_true, if_false, if_true,
    if_neg (fun hc : a.retKind = 0 ∧ a.trigKind ≠ 0 => hc.2 (h2 hc.1))]

theorem runAddEntry_overrate (h4 : ∀ c ∈ a.pod.take a.podCount, playable s c = true)
    (h5 : ((s.svc a.svc).defn.map (·.ceiling)).getD 0 < podRate s (a.pod.take a.podCount)) : runAddEntry p a s = err s .badparam := by
  have hall : (a.pod.take a.podCount).all (playable s) = true := List.all_eq_true.2 h4
  unfold runAddEntry
  simp only [h1, hall, h3, Bool.not_true, Bool.false_eq_true, if_false, if_pos h5,
    if_neg (fun hc : a.retKind = 0 ∧ a.trigKind ≠ 0 => hc.2 (h2 hc.1))]

end

/-! ### The trigger of the new entry (R51) -/

theorem added_self (s : State) (n : Nat) (e : Entry) : (s.added n e).entry n = some e := by rw [added_entry, if_pos rfl]

theorem applyTrigger_cue {t : Nat} (ht : e.trigger = .cue t) : applyTrigger (s.added n e) n = s.added n e := by
  simp [applyTrigger, added_self, ht]

theorem applyTrigger_time {t : Nat} (ht : e.trigger = .time t) : applyTrigger (s.added n e) n =
    if timeDue s e then armAndArbitrate (s.added n e) n else s.added n e := by
  have hdue : timeDue (s.added n e) e = timeDue s e := by
    rw [added_frame]
    rfl
  simp [applyTrigger, added_self, ht, hdue]

theorem applyTrigger_now (ht : e.trigger = .now) : applyTrigger (s.added n e) n = armAndArbitrate (s.added n e) n := by
  simp [applyTrigger, added_self, ht]

/-- A new entry that finds no lead waits for the clock. -/
theorem added_clock (hp : ∀ c ∈ e.pod, playable s c = true) (ha : e.triggerTime s = none) (hf : earliest s e.svc = none)
    (hnone : e.a = none) : armAndArbitrate (s.added n e) n = (s.added n e).setEntry n (some { e with st := .waiting .clock }) := by
  refine armAndArbitrate_clock (added_self s n e) (fun c hc => ?_) ?_ ((added_earliest s n e _).trans hf) hnone
  · rw [added_clipDamaged]
    exact playable_not_damaged (hp c hc)
  · rw [added_frame]
    exact ha

/-- Nothing that the entry changes at its number is seen at another. -/
theorem added_set_entry (x : Entry) (m : Nat) (hm : m ≠ n) : ((s.added n e).setEntry n (some x)).entry m = s.entry m := by
  rw [State.entry_setEntry, if_neg hm, added_entry, if_neg hm]

theorem triggerTime_of_untimed (hnone : e.a = none) (h : ∀ t, e.trigger = .time t → convert s e.svc t = none) : e.triggerTime s = none := by
  unfold Entry.triggerTime
  rw [hnone]
  cases ht : e.trigger with
  | time t => exact h t ht
  | cue t => rfl
  | now => rfl

theorem earliest_of_no_lead {i : Nat} (h : (s.svc i).clk.st = .unlocked ∨ lead s i = none) (x : Int) : leadPoint s i x = none := by
  unfold leadPoint
  rcases h with h | h
  · simp [serviceTime, h]
  · rw [h]
    cases serviceTime s i <;> rfl

theorem convert_of_no_lead {i : Nat} (h : lead s i = none) (t : Nat) : convert s i t = none := by
  unfold convert
  cases serviceTime s i with
  | none => rfl
  | some c => exact earliest_of_no_lead (.inr h) _

theorem heldLevel_zero {i : Nat} (h : heldLevel s i = 0) :
    holdingAlert s i = none ∧ activeEntry s i = none ∧ armedEntry s i = none := by
  have hlevel (q : PortId) : levelOf q ≠ 0 := by cases q <;> decide
  unfold heldLevel at h
  obtain ⟨ha, h⟩ := Nat.max_eq_zero_iff.1 h
  obtain ⟨hb, hc⟩ := Nat.max_eq_zero_iff.1 h
  refine ⟨?_, ?_, ?_⟩
  · cases hx : holdingAlert s i with
    | none => rfl
    | some r => simp [hx] at ha
  · cases hx : activeEntry s i with
    | none => rfl
    | some r => exact absurd (by simpa [hx] using hb) (hlevel r.origin)
  · cases hx : armedEntry s i with
    | none => rfl
    | some r => exact absurd (by simpa [hx] using hc) (hlevel r.origin)

/-- A new NOW entry on a free service with room in its lane's pool is ARMED, its clip asked for at once. -/
theorem added_arms {sp : Nat} (hst : e.st = .pending) (hp : ∀ c ∈ e.pod, playable s c = true) (ha : e.a = none) (ht : e.trigger = .now)
    (hk : s.laneOf e.svc = some k) (hf : earliest s e.svc = some sp) (hfree : heldLevel s e.svc = 0) (hnxt : (s.sp e.svc).nxt = none)
    (hfit : committed s k + podRate s e.pod ≤ (s.lane k).cfg.pool) :
    armAndArbitrate (s.added n e) n =
      placeInst ((s.added n e).setEntry n (some { e with st := .armed, s := some sp, commitment := podRate s e.pod })) e.svc
        { clip := e.pod.headD 0, owner := .entry n, s := some sp } := by
  obtain ⟨hal, hact, harm⟩ := heldLevel_zero hfree
  have harm' : armedEntry (s.added n e) e.svc = none := added_find_none (by simp [hst]) harm
  have hact' : activeEntry (s.added n e) e.svc = none := added_find_none (by simp [hst]) hact
  have hfree' : heldLevel (s.added n e) e.svc = 0 := by simp [heldLevel, added_holdingAlert, hal, hact', harm']
  have hrun := armRun_free (sp := sp) (added_self s n e) ((added_laneOf s n e _).trans hk)
    (fun c hc => by rw [added_clipDamaged]; exact playable_not_damaged (hp c hc))
    (triggerTime_of_untimed ha (by simp [ht])) ((added_earliest s n e _).trans hf) hfree' harm'
    (by rw [added_podRate, added_lane]; have := added_committed (s := s) (n := n) hst k; omega)
  have hset : { e with st := .armed, a := none, s := some sp, commitment := podRate s e.pod }
      = { e with st := .armed, s := some sp, commitment := podRate s e.pod } := by
    rw [← ha]
  rw [added_podRate, hset] at hrun
  unfold armAndArbitrate
  rw [hrun]
  unfold requestNext
  have hn : (((s.added n e).setEntry n (some { e with st := .armed, s := some sp, commitment := podRate s e.pod })).sp e.svc).nxt = none :=
    (congrArg SpliceRec.nxt (added_sp s n e e.svc)).trans hnxt
  simp [hn]

/-! ### The obligation -/

/-- The refusals of R50, each on the opened exchange. -/
theorem addEntry_refusals (ht : s.takes p) (hp : p ≠ .ap) :
    let answers := fun (st : Status) => ∃ t, exec (.addEntry p a) s = .next t ∧ s.onlyAnswers t p 0x20#8 st []
    let pod := a.pod.take a.podCount
    ((entryArgsOk a = false ∨ (a.retKind = 0 ∧ a.trigKind ≠ 0) ∨ s.live a.svc = false) → answers .badparam)
    ∧ (entryArgsOk a = true → (a.retKind = 0 → a.trigKind = 0) → s.live a.svc = true →
      ((¬∀ c ∈ pod, playable s c = true) → answers .notfound)
      ∧ ((∀ c ∈ pod, playable s c = true) → ((s.svc a.svc).defn.map (·.ceiling)).getD 0 < podRate s pod → answers .badparam)
      ∧ (EntryAccepted s a → freeNumber s = none → answers .full)) := by
  intro answers pod
  have hanswer {st : Status} (h : runAddEntry p a (openExchange s p 0x20) = err (openExchange s p 0x20) st) : answers st :=
    ⟨_, (exec_addEntry ht hp).trans (by rw [h]; rfl), refused_onlyAnswers s p 0x20 st⟩
  have hopen : ∃ l, openExchange s p 0x20 = { s with links := l } := ⟨_, openExchange_frame s p 0x20⟩
  obtain ⟨l, hl⟩ := hopen
  refine ⟨fun h => hanswer (runAddEntry_refused ?_), fun h1 h2 h3 => ⟨fun h4 => hanswer (runAddEntry_notfound h1 h2 ?_ ?_),
    fun h4 h5 => hanswer (runAddEntry_overrate h1 h2 ?_ ?_ ?_), fun h hn => hanswer ?_⟩⟩
  · rw [hl]
    exact h
  · rw [hl]
    exact h3
  · rw [hl]
    exact h4
  · rw [hl]
    exact h3
  · rw [hl]
    exact h4
  · rw [hl]
    exact h5
  · have hfree : freeNumber (openExchange s p 0x20) = none := by
      rw [hl]
      exact hn
    rw [runAddEntry_accepted (h.opened 0x20), hfree]

theorem triggerOf_eq (m v : Nat) : triggerOf m v = if m = 0 then .cue v else if m = 1 then .time v else .now := by
  rcases m with _ | _ | m
  · rfl
  · rfl
  · rfl

/-- A PENDING entry's trigger time T is due (R53). -/
theorem timeDue_iff {t : Nat} {c : LaneSettings} (ht : e.trigger = .time t) (hst : e.st = .pending) (hc : s.cfgOf e.svc = c) :
    timeDue s e = true ↔ (s.svc e.svc).clk.st ≠ .unlocked
      ∧ atOrAfter nClk ((s.localCount + (s.svc e.svc).clk.sigma) % nClk) (subMod nClk t (c.preroll * 27000)) = true := by
  by_cases h : (s.svc e.svc).clk.st = .unlocked
  · simp [timeDue, ht, serviceTime, h]
  · simp [timeDue, ht, serviceTime, h, hst, hc, addMod, msTicks]

/-- The command taken: the entry joins, its trigger acts, and the reply gives its state. -/
theorem exec_addEntry_accepted (ht : s.takes p) (hp : p ≠ .ap) (h : EntryAccepted s a) (hn : freeNumber s = some n) :
    exec (.addEntry p a) s = .next (answer (rest (applyTrigger ((openExchange s p 0x20).added n (newEntry p a n)) n)) p .ok
      (byte1 n :: addReply (applyTrigger ((openExchange s p 0x20).added n (newEntry p a n)) n) n)) := by
  have hfree : freeNumber (openExchange s p 0x20) = some n := by
    rw [openExchange_eq]
    exact hn
  rw [exec_addEntry ht hp, runAddEntry_accepted (h.opened 0x20), hfree]
  rfl

/-- Settles O50: the checks by the branches of R50, an accepted entry by its trigger. -/
theorem addEntryTakesEffectByItsTrigger : Obligations.AddEntryTakesEffectByItsTrigger := by
  refine ⟨fun s p a ht hp => ?_, fun s p a k n ht hp hargs hcue hk hrun => ?_⟩
  · intro answers pod sound cue live found within
    obtain ⟨hbad, hrest⟩ := addEntry_refusals (a := a) ht hp
    have hsound : sound ↔ entryArgsOk a = true := entryArgsOk_iff.symm
    have hlive : live ↔ s.live a.svc = true := (live_iff a.svc).symm
    have hfound : found ↔ ∀ c ∈ pod, playable s c = true := forall₂_congr fun c _ => (playable_iff c).symm
    have hwithin (hl : live) : within ↔ podRate s pod ≤ ((s.svc a.svc).defn.map (·.ceiling)).getD 0 := by
      obtain ⟨d, hd, -⟩ := hl
      rw [podRate_le_iff, hd]
      exact ⟨fun h c r v hc hr hv => h d c r v hd hc hr hv, fun h d' c r v hd' hc hr hv => by
        cases hd.symm.trans hd'
        exact h c r v hc hr hv⟩
    refine ⟨fun h => hbad ?_, fun h1 h2 h3 h4 => ?_, fun h1 h2 h3 h4 h5 => ?_, fun h1 h2 h3 h4 h5 h6 => ?_⟩
    · rw [hsound, hlive, Bool.not_eq_true, Bool.not_eq_true] at h
      exact h.imp_right (Or.imp_left fun h => Classical.not_imp.1 h)
    · exact (hrest (hsound.1 h1) h2 (hlive.1 h3)).1 (mt hfound.2 h4)
    · exact (hrest (hsound.1 h1) h2 (hlive.1 h3)).2.1 (hfound.1 h4) (Nat.not_le.1 (mt (hwithin h3).2 h5))
    · refine (hrest (hsound.1 h1) h2 (hlive.1 h3)).2.2
        ⟨hsound.1 h1, h2, hlive.1 h3, hfound.1 h4, (hwithin h3).1 h5⟩ (List.find?_eq_none.2 fun n hn => ?_)
      simpa using Option.isSome_iff_ne_none.1 (h6 n (List.mem_range.1 hn))
  · intro pod hfound hrate hn hfree hless v now due trigger added stands only
    have hlive : s.live a.svc = true := by simp [State.live, hk, hrun]
    have hcfg : s.cfgOf a.svc = (s.lane k).cfg := State.cfgOf_of_laneOf hk
    have hnew : newEntry p a n = added := by simp only [newEntry, triggerOf_eq, added, trigger, pod]
    have hdue : a.trigKind = 1 → (timeDue (openExchange s p 0x20) added = true ↔ due) := fun h => by
      rw [openExchange_eq]
      exact timeDue_iff (e := added) (by simp [added, trigger, h]) rfl hcfg
    have hexec := exec_addEntry_accepted ht hp ⟨hargs, hcue, hlive, hfound, hrate⟩ (freeNumber_eq hn hfree hless)
    rw [hnew] at hexec
    have honly {x : Entry} {st cause : Byte} (hb : x.st.bytes = [st, cause])
        (hu : applyTrigger ((openExchange s p 0x20).added n added) n = ((openExchange s p 0x20).added n added).setEntry n (some x)) :
        only x st cause := by
      refine ⟨((openExchange s p 0x20).added n added).setEntry n (some x), hexec.trans ?_, ?_, State.entry_setEntry_self _ n _,
        fun m hm => ?_, fun c => ?_⟩
      · rw [hu, addReply, State.entry_setEntry_self]
        exact congrArg (fun b => Host.Outcome.next (answer _ p .ok (byte1 n :: b))) hb
      · rw [added_frame, openExchange_eq]
        rfl
      · rw [added_set_entry _ m hm, openExchange_entry]
      · refine (added_clip _ n added c).trans ?_
        rw [openExchange_clip]
    have hself : (openExchange s p 0x20).added n added = ((openExchange s p 0x20).added n added).setEntry n (some added) := by
      rw [State.added, State.setEntry_setEntry]
    have hplay : ∀ c ∈ added.pod, playable (openExchange s p 0x20) c = true := by
      rw [openExchange_eq]
      exact hfound
    have hlead : ∀ j, lead (openExchange s p 0x20) j = lead s j := fun j => by rw [openExchange_eq]; rfl
    have hearly : ∀ j, earliest (openExchange s p 0x20) j = earliest s j := fun j => by rw [openExchange_eq]; rfl
    refine ⟨fun h => honly rfl ?_, fun h hd => honly rfl ?_, fun h hd hl => honly rfl ?_, fun h hl => honly rfl ?_,
      fun f h hf hfreeSvc hnxt hfit => ?_⟩
    · exact (applyTrigger_cue (t := a.trigValue) (by simp [added, trigger, h])).trans hself
    · rw [applyTrigger_time (t := a.trigValue) (by simp [added, trigger, h]), if_neg (mt (hdue h).1 hd)]
      exact hself
    · rw [applyTrigger_time (t := a.trigValue) (by simp [added, trigger, h]), if_pos ((hdue h).2 hd)]
      refine added_clock hplay (triggerTime_of_untimed rfl fun t _ => convert_of_no_lead ((hlead _).trans hl) t) ?_ rfl
      exact (hearly _).trans (earliest_of_no_lead (.inr hl) _)
    · rw [applyTrigger_now (by simp [added, trigger, h])]
      refine added_clock hplay (triggerTime_of_untimed rfl fun t ht => by simp [added, trigger, h] at ht) ?_ rfl
      exact (hearly _).trans (earliest_of_no_lead hl _)
    · let x : Entry := { added with st := .armed, s := some f, commitment := podRate s pod }
      let w := ((openExchange s p 0x20).added n added).setEntry n (some x)
      let q : InstReq := { clip := pod.headD 0, owner := .entry n, s := some f }
      have hu : applyTrigger ((openExchange s p 0x20).added n added) n = placeInst w a.svc q := by
        rw [applyTrigger_now (by simp [added, trigger, h])]
        have hopen : ∃ l, openExchange s p 0x20 = { s with links := l } := ⟨_, openExchange_frame s p 0x20⟩
        obtain ⟨l, hl⟩ := hopen
        simp only [w, hl] at hplay ⊢
        exact added_arms (s := { s with links := l }) (e := added) rfl hplay rfl (by simp [added, trigger, h]) hk hf hfreeSvc hnxt hfit
      have hentry (m : Nat) : (placeInst w a.svc q).entry m = w.entry m := by
        rw [State.entry, placeInst_frame]
        rfl
      refine ⟨placeInst w a.svc q, hexec.trans ?_, ⟨?_, fun m hm => ?_, fun c => ?_⟩, fun r hr hv => ?_, ?_⟩
      · rw [hu, addReply, hentry, State.entry_setEntry_self]
        rfl
      · rw [hentry, State.entry_setEntry_self]
      · rw [hentry, added_set_entry _ m hm, openExchange_entry]
      · rw [State.clip, placeInst_frame]
        refine (added_clip _ n added c).trans ?_
        rw [openExchange_clip]
      · obtain ⟨y, hy⟩ := Option.isSome_iff_exists.1 hv
        have hclip : w.clip q.clip = some { r with refs := r.refs + added.pod.count q.clip } := by
          refine (added_clip _ n added q.clip).trans ?_
          rw [openExchange_clip, hr]
          rfl
        obtain ⟨-, -, hsp, -⟩ := placeInst_spec w a.svc q hclip hy
        exact ⟨_, congrArg SpliceRec.nxt hsp, rfl, rfl, rfl, rfl⟩
      · have hw : w = { s with dir := w.dir, entries := w.entries, links := w.links } := by
          dsimp only [w]
          rw [added_frame, openExchange_eq]
          rfl
        rw [placeInst_frame]
        generalize (placeInst w a.svc q).services = sv
        generalize (placeInst w a.svc q).boxes = bx
        rw [hw]

end Sys2Proof.Machine
end

section
/-! What the releases of the scheduler leave unchanged: the runs of the arming computation that follow an end or a release (R64 to R67,
R72). -/

namespace Sys2Proof.Machine

variable {s t u : State} {i k n : Nat} {e : Entry}

/-! ### The frame of the scheduler's acts -/

/-- Only the schedule, the directory's counts, the services, the reads in the flash unit and the event queues have changed. -/
def ScheduleFrame (s t : State) : Prop :=
  t = { s with dir := t.dir, entries := t.entries, services := t.services, flash := t.flash, boxes := t.boxes }

namespace ScheduleFrame

theorem refl (s : State) : ScheduleFrame s s := rfl

theorem trans (h : ScheduleFrame s t) (k : ScheduleFrame t u) : ScheduleFrame s u := by
  unfold ScheduleFrame at *
  rw [k, h]

theorem alerts (h : ScheduleFrame s t) : t.alerts = s.alerts := by rw [h]
theorem alert (h : ScheduleFrame s t) (r : Nat) : t.alert r = s.alert r := by rw [State.alert, h.alerts]; rfl
theorem links (h : ScheduleFrame s t) : t.links = s.links := by rw [h]
theorem holdingAlert (h : ScheduleFrame s t) (i : Nat) : holdingAlert t i = holdingAlert s i := by
  simp only [Machine.holdingAlert, h.alert]

theorem of_ask (h : AskOnly i s t) : ScheduleFrame s t := by
  unfold ScheduleFrame
  rw [h.frame]

theorem setEntry (h : ScheduleFrame s t) (n : Nat) (x : Option Entry) : ScheduleFrame s (t.setEntry n x) := h.trans rfl

theorem endEntry (h : ScheduleFrame s t) (e : Entry) (r : EntryResult) : ScheduleFrame s (endEntry t e r) :=
  h.trans (endEntry_frame_any r).1

theorem arming (h : ScheduleFrame s t) (i : Nat) (x : Entry) (q : InstReq) (b : Bool) (c : Cond) :
    ScheduleFrame s (raiseIf b (t.arming i n x q) i c) := by
  refine h.trans ?_
  unfold ScheduleFrame
  rw [raiseIf_frame, (arming_frame (s := t) x q).1]

theorem armRun (h : ScheduleFrame s t) (n : Nat) : ScheduleFrame s (armRun t n).1 := by
  cases he : t.entry n with
  | none => exact (armRun_of_none he).symm ▸ h
  | some e =>
    rcases armRun_cases he with ⟨a, r, hu⟩ | ⟨a, c, hu⟩ | ⟨a, sp, b, -, -, hu⟩
    · exact hu ▸ h.endEntry _ _
    · exact hu ▸ h.setEntry _ _
    · exact hu ▸ h.arming _ _ _ _ _

theorem runsKeep (s : State) : RunsKeep EntryState.idle (ScheduleFrame s) := fun _ n _ h _ _ => h.armRun n

theorem poolFreed (h : ScheduleFrame s t) (k : Nat) : ScheduleFrame s (poolFreed t k) :=
  (runsKeep s).poolFreed (EntryState.idle_waiting _) k h

theorem reeval (h : ScheduleFrame s t) (i : Nat) (c : WaitCause) : ScheduleFrame s (reeval t i c) :=
  (runsKeep s).reeval (EntryState.idle_waiting _) (EntryState.idle_waiting _) i h

theorem demote (h : ScheduleFrame s t) (e : Entry) : ScheduleFrame s (demote t e) := by
  refine (h.trans ?_).setEntry _ _
  exact of_ask (AskOnly.of_splice (SpliceOnly.discardSeeking e.svc t (.entry e.num)))

theorem requestNext (h : ScheduleFrame s t) (i : Nat) (q : InstReq) : ScheduleFrame s (requestNext t i q) :=
  h.trans (of_ask (AskOnly.requestNext i t q))

end ScheduleFrame

/-! ### A service that an alert record holds (R49) -/

theorem levelOf_le_heldLevel (h : (holdingAlert s i).isSome = true) (p : PortId) : levelOf p ≤ heldLevel s i := by
  obtain ⟨r, hr⟩ := Option.isSome_iff_exists.1 h
  have h3 : 3 ≤ heldLevel s i := by
    unfold heldLevel
    rw [hr]
    exact Nat.le_max_left 3 _
  exact Nat.le_trans (by cases p <;> decide) h3

theorem endEntry_svc_idle (r : EntryResult) (h : e.st ≠ .armed) (j : Nat) : (endEntry s e r).svc j = s.svc j := by
  rw [endEntry_frame r h]
  rfl

/-- A run touches one service at most, and none that an alert record holds. -/
theorem armRun_svc_eq (he : t.entry n = some e) (hst : e.st ≠ .armed) (j : Nat)
    (h : e.svc ≠ j ∨ (holdingAlert t j).isSome = true) : (armRun t n).1.svc j = t.svc j := by
  rcases armRun_cases he with ⟨a, r, hu⟩ | ⟨a, c, hu⟩ | ⟨a, sp, b, hlevel, -, hu⟩
  · rw [hu]
    exact endEntry_svc_idle (e := { e with a := a }) r hst j
  · rw [hu]
    rfl
  · have hj : j ≠ e.svc := by
      rintro rfl
      exact absurd (levelOf_le_heldLevel (h.resolve_left fun h => h rfl) e.origin) (Nat.not_le.2 hlevel)
    rw [hu, raiseIf_svc_of_ne _ _ hj]
    exact (arming_frame (s := t) _ _).2.1 j hj

/-- A service that an alert record holds is as it was, whatever the scheduler runs. -/
structure HeldFrame (i : Nat) (s t : State) : Prop where
  frame : ScheduleFrame s t
  svc : t.svc i = s.svc i

theorem HeldFrame.runsKeep (h : (holdingAlert s i).isSome = true) : RunsKeep EntryState.idle (HeldFrame i s) := fun t n e ht he hst =>
  ⟨ht.frame.armRun n, (armRun_svc_eq he hst.1 i (.inr (by rw [ht.frame.holdingAlert]; exact h))).trans ht.svc⟩

theorem poolFreed_heldFrame (h : (holdingAlert s i).isSome = true) (k : Nat) : HeldFrame i s (poolFreed s k) :=
  (HeldFrame.runsKeep h).poolFreed (EntryState.idle_waiting _) k ⟨ScheduleFrame.refl s, rfl⟩

theorem reeval_heldFrame (h : (holdingAlert s i).isSome = true) (j : Nat) (c : WaitCause) : HeldFrame i s (reeval s j c) :=
  (HeldFrame.runsKeep h).reeval (EntryState.idle_waiting _) (EntryState.idle_waiting _) j ⟨ScheduleFrame.refl s, rfl⟩

/-! ### Releases that find nothing waiting -/

/-- The arbiter does nothing where no entry of the lane waits for pool (R66). -/
theorem poolFreed_none (h : ∀ e ∈ s.schedule, s.laneOf e.svc = some k → e.st ≠ .waiting .pool) : poolFreed s k = s := by
  have hq : poolQueue s k = [] := by
    have hnil : s.schedule.filter (fun e => s.laneOf e.svc == some k && e.st == .waiting .pool) = [] :=
      List.filter_eq_nil_iff.2 fun e he => by simpa using h e he
    rw [poolQueue, hnil]
    rfl
  unfold poolFreed arbiterLoop
  rw [hq]
  rfl

/-- A re-evaluation does nothing where no entry of the service waits with the cause (R67). -/
theorem reeval_none {c : WaitCause} (h : ∀ e ∈ s.schedule, e.svc = i → e.st ≠ .waiting c) : reeval s i c = s := by
  have hnil : (entriesOf s i).filter (fun e => e.st == .waiting c) = [] :=
    List.filter_eq_nil_iff.2 fun e he => by
      obtain ⟨he, hi⟩ := (mem_entriesOf s i e).1 he
      simpa using h e he hi
  rw [reeval, hnil]
  rfl

end Sys2Proof.Machine
end

section
/-! What a level-3 take leaves of the entries and instances of the services (R61, R64, R176). -/

namespace Sys2Proof.Machine

variable {s t u : State} {i j k n r : Nat} {e : Entry}

/-! ### The ARMED entry of a service -/

/-- Two numbered schedules with the same ARMED entries on a service have the same ARMED entry of it. -/
theorem armedEntry_congr (hs : s.Numbered) (ht : t.Numbered)
    (h : ∀ x : Entry, x.svc = i → x.st = .armed → (s.entry x.num = some x ↔ t.entry x.num = some x)) : armedEntry s i = armedEntry t i := by
  have hmem {w : State} (hw : w.Numbered) (x : Entry) :
      x ∈ (entriesOf w i).filter (fun e => e.st == .armed) ↔ w.entry x.num = some x ∧ x.svc = i ∧ x.st = .armed := by
    rw [List.mem_filter, hw.mem_entriesOf, beq_iff_eq, and_assoc]
  have hsorted {w : State} (hw : w.Numbered) : ((entriesOf w i).filter (fun e => e.st == .armed)).Pairwise (fun a b => a.num < b.num) :=
    (hw.nums_ascend.filter _).filter _
  have hnd {w : State} (hw : w.Numbered) : ((entriesOf w i).filter (fun e => e.st == .armed)).Nodup :=
    (hsorted hw).imp fun {a b} hlt hab => by subst hab; omega
  have hperm : ((entriesOf s i).filter (fun e => e.st == .armed)).Perm ((entriesOf t i).filter (fun e => e.st == .armed)) :=
    (List.perm_ext_iff_of_nodup (hnd hs) (hnd ht)).2 fun x => by
      rw [hmem hs, hmem ht]
      exact and_congr_left fun hx => h x hx.1 hx.2
  have heq := hperm.eq_of_pairwise (fun a b _ _ hab hba => absurd hab (by omega)) (hsorted hs) (hsorted ht)
  unfold armedEntry
  rw [← List.head?_filter, ← List.head?_filter, heq]

/-- The record of an ARMED entry that has given way (R61, R64). -/
def Entry.demoted (e : Entry) : Entry := { e with st := .waiting .held, s := none, commitment := 0 }

/-- The ARMED entry `e` of service `i` is still it, or has been demoted. -/
structure ArmedOrDemoted (i : Nat) (e : Entry) (t : State) : Prop where
  numbered : t.Numbered
  entry : (t.entry e.num = some e ∧ armedEntry t i = some e) ∨ t.entry e.num = some e.demoted

/-- A state whose schedule reads as before at the entry's number and of ARMED entries. -/
theorem ArmedOrDemoted.of_same (h : ArmedOrDemoted i e t) (hu : u.Numbered) (he : u.entry e.num = t.entry e.num)
    (ha : ∀ x : Entry, x.svc = i → x.st = .armed → (t.entry x.num = some x ↔ u.entry x.num = some x)) : ArmedOrDemoted i e u := by
  refine ⟨hu, h.entry.imp (fun ⟨h1, h2⟩ => ⟨he.trans h1, ?_⟩) he.trans⟩
  rw [← armedEntry_congr h.numbered hu ha, h2]

/-- An entry that is not ARMED becomes one that is not, or goes. -/
theorem ArmedOrDemoted.set_idle (h : ArmedOrDemoted i e t) {x : Entry} (hx : t.entry n = some x) (hst : x.st ≠ .armed) (hn : n ≠ e.num)
    {y : Option Entry} (hy : ∀ z, y = some z → z.st ≠ .armed) (hu : u.Numbered)
    (he : ∀ m, u.entry m = if m = n then y else t.entry m) : ArmedOrDemoted i e u := by
  refine h.of_same hu (by rw [he, if_neg hn.symm]) fun z hzi hz => ?_
  rw [he]
  split
  · next hzn =>
    refine ⟨fun hz' => ?_, fun hz' => absurd hz (hy z hz')⟩
    cases (hzn ▸ hz').symm.trans hx
    exact absurd hz hst
  · rfl

/-- The ARMED entries of another service are untouched when one arms (R61). -/
theorem yielded_entry_svc (hs : t.Numbered) {m : Nat} {x : Entry} (hx : x.svc ≠ j) (hm : m = x.num) :
    (t.yielded j).entry m = some x ↔ t.entry m = some x := by
  obtain ⟨d, E, -, -, -, hlower, hother⟩ := yielded_spec t j
  by_cases h : ∃ l, armedEntry t j = some l ∧ m = l.num
  · obtain ⟨l, hl, rfl⟩ := h
    have hls : l.svc = j := armedEntry_svc hl
    rw [hlower l hl, hs.entry_of_find hl, Option.some.injEq, Option.some.injEq]
    exact ⟨fun h => absurd (h ▸ hls : x.svc = j) hx, fun h => absurd (h ▸ hls) hx⟩
  · rw [hother m fun l hl hml => h ⟨l, hl, hml⟩]

/-- One run on an entry that waits for pool. -/
theorem ArmedOrDemoted.runsKeep (hi : e.svc = i) (hst : e.st = .armed) :
    RunsKeep (· = .waiting .pool) (ArmedOrDemoted i e) := fun t n x h hx hpool => by
  have hnum : (armRun t n).1.Numbered := ((NoneJoins.refl h.numbered).armRun n).numbered
  have hxn : x.num = n := h.numbered.num n x hx
  have hidle : x.st ≠ .armed := by
    rw [hpool]
    nofun
  have hn : n ≠ e.num := by
    rintro rfl
    rcases h.entry with ⟨he, -⟩ | he
    · cases hx.symm.trans he
      exact hidle hst
    · cases hx.symm.trans he
      cases hpool
  rcases armRun_cases hx with ⟨a, r, hu⟩ | ⟨a, c, hu⟩ | ⟨a, sp, b, -, -, hu⟩
  · rw [hu] at hnum ⊢
    exact h.set_idle hx hidle hn (y := none) (fun z hz => by cases hz) hnum fun m => by rw [endEntry_entry_any, hxn]
  · rw [hu] at hnum ⊢
    exact h.set_idle hx hidle hn (y := some _) (fun z hz => by cases hz; exact (EntryState.idle_waiting c).1) hnum fun m => State.entry_setEntry t n _ m
  · rw [hu] at hnum ⊢
    rcases h.entry with ⟨he, harm⟩ | he
    · by_cases hj : x.svc = i
      · obtain ⟨d, E, -, -, -, hlower, -⟩ := yielded_spec t x.svc
        refine ⟨hnum, .inr ?_⟩
        rw [raiseIf_arming_entry, if_neg hn.symm]
        exact hlower e (hj ▸ harm)
      · refine h.of_same hnum ?_ fun z hzi hz => ?_
        · rw [raiseIf_arming_entry, if_neg hn.symm, yielded_entry_svc h.numbered (x := e) (by rw [hi]; exact Ne.symm hj) rfl |>.2 he, he]
        · rw [raiseIf_arming_entry]
          split
          · next hzn =>
            refine ⟨fun hz' => ?_, fun hz' => ?_⟩
            · cases (hzn ▸ hz').symm.trans hx
              exact absurd hz hidle
            · cases hz'
              exact absurd hzi hj
          · exact (yielded_entry_svc h.numbered (by rw [hzi]; exact Ne.symm hj) rfl).symm
    · refine ⟨hnum, .inr ?_⟩
      rw [raiseIf_arming_entry, if_neg hn.symm]
      exact yielded_entry_of_not_armed h.numbered he (by simp [Entry.demoted])

/-- The ARMED entry of a service is demoted, or another one is. -/
theorem ArmedOrDemoted.demote (h : ArmedOrDemoted i e t) (hi : e.svc = i) {l : Entry} (hl : armedEntry t j = some l) :
    ArmedOrDemoted i e (demote t l) ∧ (j = i → (Machine.demote t l).entry e.num = some e.demoted) := by
  have hls : l.svc = j := armedEntry_svc hl
  have hle : t.entry l.num = some l := h.numbered.entry_of_find hl
  have hd := SpliceOnly.discardSeeking l.svc t (.entry l.num)
  have hent (m : Nat) : (Machine.demote t l).entry m = if m = l.num then some l.demoted else t.entry m := by
    refine (State.entry_setEntry _ _ _ m).trans ?_
    rw [State.entry, hd.frame]
    rfl
  have hnum : (Machine.demote t l).Numbered := ((NoneJoins.refl h.numbered).demote hle).numbered
  rcases h.entry with ⟨he, harm⟩ | he
  · by_cases hj : j = i
    · subst hj
      cases harm.symm.trans hl
      have hed : (Machine.demote t e).entry e.num = some e.demoted := by rw [hent, if_pos rfl]
      exact ⟨⟨hnum, .inr hed⟩, fun _ => hed⟩
    · have hne : e.num ≠ l.num := fun heq => by
        cases (heq ▸ he).symm.trans hle
        exact hj (hls.symm.trans hi)
      refine ⟨h.of_same hnum (by rw [hent, if_neg hne]) fun z hzi hz => ?_, fun h => absurd h hj⟩
      rw [hent]
      split
      · next hzn =>
        rw [hzn, hle, Option.some.injEq, Option.some.injEq]
        refine ⟨fun h => absurd ?_ hj, fun h => absurd ?_ hj⟩
        · subst h
          exact hls.symm.trans hzi
        · subst h
          exact hls.symm.trans hzi
      · rfl
  · have hne : e.num ≠ l.num := fun heq => by
      cases (heq ▸ he).symm.trans hle
      exact absurd (armedEntry_st hl) (by simp [Entry.demoted])
    have hed : (Machine.demote t l).entry e.num = some e.demoted := by rw [hent, if_neg hne, he]
    exact ⟨⟨hnum, .inr hed⟩, fun _ => hed⟩

/-! ### The next role of a service (R77) -/

/-- The next role of a service holds nothing that plays. -/
def State.nextFree (s : State) (i : Nat) : Prop := ∀ x, (s.sp i).nxt = some x → x.phase = .seeking

theorem requestNext_nextFree (h : s.nextFree i) (j : Nat) (q : InstReq) : (requestNext s j q).nextFree i := by
  have hplace {w : State} (hw : w.nextFree i) : (placeInst w j q).nextFree i := by
    unfold placeInst
    split
    · exact hw
    · split
      · exact hw
      · intro x hx
        dsimp only at hx
        rw [raiseIf_sp, State.sp_modSp] at hx
        split at hx
        · cases hx
          rfl
        · exact hw x hx
  unfold requestNext
  split
  · exact hplace h
  · split
    · refine hplace fun x hx => h x ?_
      by_cases hj : i = j
      · subst hj
        obtain ⟨_, _, hd⟩ := discardRole_next_sp (s := s) (i := i)
        rw [hd] at hx
        cases hx
      · rw [State.sp, (SpliceOnly.discardRole j s .next).others i hj] at hx
        exact hx
    · intro x hx
      rw [State.sp_modSp] at hx
      split at hx
      · next hj => exact h x (hj ▸ hx)
      · exact h x hx

theorem discardSeeking_nextFree (h : s.nextFree i) (j : Nat) (o : Owner) : (discardSeeking s j o).nextFree i := by
  intro x hx
  by_cases hj : i = j
  · subst hj
    rcases discardSeeking_nxt (s := s) (i := i) o with hn | ⟨hn, -⟩
    · exact h x (hn.symm.trans hx)
    · cases hn.symm.trans hx
  · rw [State.sp, (SpliceOnly.discardSeeking j s o).others i hj] at hx
    exact h x hx

theorem nextFree_congr (h : t.services = s.services) : t.nextFree i ↔ s.nextFree i := by
  simp only [State.nextFree, State.sp, State.svc, h]

theorem demote_nextFree (h : s.nextFree i) (e : Entry) : (demote s e).nextFree i := discardSeeking_nextFree h _ _

theorem nextFree_runsKeep (i : Nat) : RunsKeep EntryState.idle (fun t => t.nextFree i) := fun t n x h hx hst => by
  rcases armRun_cases hx with ⟨a, r, hu⟩ | ⟨a, c, hu⟩ | ⟨a, sp, b, -, -, hu⟩
  · rw [hu]
    refine (nextFree_congr ?_).2 h
    rw [endEntry_frame (e := { x with a := a }) r hst.1]
  · exact hu ▸ h
  · rw [hu]
    have hy : (t.yielded x.svc).nextFree i := by
      unfold State.yielded
      split
      · exact demote_nextFree h _
      · exact h
    intro y hy'
    rw [raiseIf_sp] at hy'
    exact requestNext_nextFree (s := (t.yielded x.svc).setEntry n _) hy _ _ y hy'

/-! ### The seal values of the clips (R126) -/

theorem sealOf_runsKeep (s : State) : RunsKeep EntryState.idle (fun t => t.sealOf = s.sealOf) := fun t n x h hx hst => by
  refine Eq.trans (funext fun c => ?_) h
  rcases armRun_cases hx with ⟨a, r, hu⟩ | ⟨a, c', hu⟩ | ⟨a, sp, b, -, -, hu⟩
  · rw [hu, State.sealOf, (endEntry_gone (e := { x with a := a }) r rfl).clip, State.sealOf]
    cases t.clip c <;> rfl
  · rw [hu]
    rfl
  · rw [hu, State.sealOf, State.clip, raiseIf_frame, (arming_frame (s := t) _ _).1]
    rfl

end Sys2Proof.Machine
end

section
/-! A level-3 take of a service, and the placing of an alert record's targets (R175, R176). -/

namespace Sys2Proof.Machine

variable {s t u : State} {i j k n r : Nat} {e : Entry} {x : Target}

/-! ### Targets of a record -/

theorem modTarget_targets (a : AlertRec) (i : Nat) (f : Target → Target) :
    (a.modTarget i f).targets = a.targets.map (fun t => if t.svc = i then f t else t) := rfl

/-- A changed target keeps the list of services. -/
theorem modTarget_svcs (a : AlertRec) {f : Target → Target} (hf : ∀ t, (f t).svc = t.svc) :
    (a.modTarget i f).targets.map (·.svc) = a.targets.map (·.svc) := by
  rw [modTarget_targets, List.map_map]
  refine List.map_congr_left fun t _ => ?_
  dsimp only [Function.comp]
  split
  · exact hf t
  · rfl

/-- A target of another service stands as it was. -/
theorem mem_modTarget_of_ne {a : AlertRec} {f : Target → Target} (hf : ∀ t, (f t).svc = t.svc) (hx : x.svc ≠ i) :
    x ∈ (a.modTarget i f).targets ↔ x ∈ a.targets := by
  rw [modTarget_targets, List.mem_map]
  constructor
  · rintro ⟨t, ht, rfl⟩
    split at hx
    · next h => exact absurd ((hf t).trans h) hx
    · next h => rwa [if_neg h]
  · exact fun h => ⟨x, h, if_neg hx⟩

/-- Each target is the changed one of the service, or one of another service. -/
theorem mem_modTarget {a : AlertRec} {f : Target → Target} (hf : ∀ t, (f t).svc = t.svc) (hx : x ∈ (a.modTarget i f).targets) :
    (x.svc = i ∧ ∃ y ∈ a.targets, x = f y) ∨ x.svc ≠ i ∧ x ∈ a.targets := by
  by_cases hi : x.svc = i
  · rw [modTarget_targets] at hx
    obtain ⟨y, hy, rfl⟩ := List.mem_map.1 hx
    split at hi
    · next h => exact .inl ⟨by rw [if_pos h, hf, h], y, hy, if_pos h⟩
    · next h => exact absurd hi h
  · exact .inr ⟨hi, (mem_modTarget_of_ne hf hi).1 hx⟩

/-- A target with a status (R175). -/
def Target.as (x : Target) (st : TStatus) : Target := { x with status := st }

theorem holdingAlert_isSome (hr : r < 4) (h : (s.alert r).holds i = true) : (holdingAlert s i).isSome = true :=
  List.find?_isSome.2 ⟨r, List.mem_range.2 hr, h⟩

/-! ### The take (R176) -/

/-- The target as it is held. -/
def Target.taken (x : Target) (p : Option Nat) : Target := { x with status := .held, s := p, e := none, cut := false }

theorem alert_holdTarget (q : Nat) : (holdTarget s r i).alert q =
    if q = r then (s.alert r).modTarget i (fun x => x.taken (alertPoint s i (s.alert r).clip)) else s.alert q :=
  State.alert_setAlert s r _ q

theorem holdTarget_frame (s : State) (r i : Nat) : holdTarget s r i = { s with alerts := (holdTarget s r i).alerts } := rfl

/-- The request of a take (R176). -/
def State.takeRequest (s : State) (r i : Nat) : InstReq :=
  { clip := (s.alert r).clip, owner := .alert r, s := (((holdTarget s r i).alert r).target i).bind (·.s) }

/-- The state on which the level-3 instance is asked for: the ARMED entry is demoted, and the arbiter has run (R64). -/
def State.cleared (s : State) (i : Nat) : State :=
  match armedEntry s i with
  | some e => poolFreed (demote s e) ((s.laneOf i).getD 0)
  | none => s

theorem takeService_eq : takeService s r i = requestNext ((holdTarget s r i).cleared i) i (s.takeRequest r i) := by
  have hclip : ((holdTarget s r i).alert r).clip = (s.alert r).clip := by
    rw [alert_holdTarget, if_pos rfl]
    rfl
  unfold takeService State.cleared State.takeRequest
  rw [← hclip]
  dsimp only
  cases armedEntry (holdTarget s r i) i <;> rfl

theorem cleared_frame (s : State) (i : Nat) : ScheduleFrame s (s.cleared i) := by
  unfold State.cleared
  split
  · exact ((ScheduleFrame.refl s).demote _).poolFreed _
  · exact ScheduleFrame.refl s

theorem cleared_kept (s : State) (i : Nat) : Kept s (s.cleared i) := by
  unfold State.cleared
  split
  · exact ((Kept.refl s).demote _).poolFreed _
  · exact Kept.refl s

theorem cleared_joins (h : s.Numbered) (i : Nat) : NoneJoins s (s.cleared i) := by
  unfold State.cleared
  split
  · next e he => exact ((NoneJoins.refl h).demote (h.entry_of_find he)).poolFreed _
  · exact NoneJoins.refl h

theorem cleared_nextFree (h : s.nextFree j) (i : Nat) : (s.cleared i).nextFree j := by
  unfold State.cleared
  split
  · exact (nextFree_runsKeep j).poolFreed (EntryState.idle_waiting _) _ (demote_nextFree h _)
  · exact h

theorem demote_sealOf (s : State) (e : Entry) : (demote s e).sealOf = s.sealOf := by
  have hd := SpliceOnly.discardSeeking e.svc s (.entry e.num)
  funext c
  show (discardSeeking s e.svc (.entry e.num)).sealOf c = s.sealOf c
  rw [hd.frame]
  rfl

theorem cleared_sealOf (s : State) (i : Nat) : (s.cleared i).sealOf = s.sealOf := by
  unfold State.cleared
  split
  · exact (sealOf_runsKeep s).poolFreed (EntryState.idle_waiting _) _ (demote_sealOf s _)
  · rfl

/-- Another service that an alert record holds is as it was. -/
theorem cleared_svc (hj : j ≠ i) (h : (holdingAlert s j).isSome = true) : (s.cleared i).svc j = s.svc j := by
  unfold State.cleared
  split
  · next e he =>
    have hi : e.svc = i := armedEntry_svc he
    have hd : (demote s e).svc j = s.svc j :=
      (SpliceOnly.discardSeeking e.svc s (.entry e.num)).others j (by rw [hi]; exact hj)
    have hheld : (holdingAlert (demote s e) j).isSome = true := by
      rw [((ScheduleFrame.refl s).demote e).holdingAlert]
      exact h
    exact (poolFreed_heldFrame hheld _).svc.trans hd
  · rfl

theorem cleared_armedOrDemoted (h : ArmedOrDemoted j e s) (hj : e.svc = j) (hst : e.st = .armed) (i : Nat) :
    ArmedOrDemoted j e (s.cleared i) := by
  unfold State.cleared
  split
  · next l hl => exact (ArmedOrDemoted.runsKeep hj hst).poolFreed rfl _ (h.demote hj hl).1
  · exact h

/-- A demoted entry stays as it is while the arbiter runs. -/
theorem demoted_runsKeep {y : Entry} (hy : y.st = .waiting .held) :
    RunsKeep (· = .waiting .pool) (fun t => t.Numbered ∧ t.entry n = some y) := fun t m x ⟨hs, hn⟩ hx hpool => by
  have hne : n ≠ m := by
    rintro rfl
    cases hn.symm.trans hx
    cases hpool.symm.trans hy
  exact ⟨((NoneJoins.refl hs).armRun m).numbered, armRun_entry_other hs hne hn (by rw [hy]; nofun)⟩

theorem demote_entry (s : State) (e : Entry) (m : Nat) : (demote s e).entry m = if m = e.num then some e.demoted else s.entry m := by
  have hd := SpliceOnly.discardSeeking e.svc s (.entry e.num)
  refine (State.entry_setEntry _ _ _ m).trans ?_
  rw [State.entry, hd.frame]
  rfl

theorem cleared_demoted (hs : s.Numbered) {y : Entry} (hy : y.st = .waiting .held) (hn : s.entry n = some y) (i : Nat) :
    (s.cleared i).entry n = some y := by
  unfold State.cleared
  split
  · next l hl =>
    have hle := hs.entry_of_find hl
    have hne : n ≠ l.num := by
      rintro rfl
      cases hn.symm.trans hle
      exact absurd (armedEntry_st hl) (by rw [hy]; nofun)
    exact ((demoted_runsKeep hy).poolFreed rfl _ ⟨((NoneJoins.refl hs).demote hle).numbered, by rw [demote_entry, if_neg hne, hn]⟩).2
  · exact hn

/-- Once the service is taken, the entry that was ARMED on it is demoted. -/
theorem cleared_demotes (h : ArmedOrDemoted i e s) : (s.cleared i).entry e.num = some e.demoted := by
  rcases h.entry with ⟨he, harm⟩ | he
  · unfold State.cleared
    rw [harm]
    have hnum := ((NoneJoins.refl h.numbered).demote he).numbered
    exact ((demoted_runsKeep (y := e.demoted) rfl).poolFreed rfl _ ⟨hnum, by rw [demote_entry, if_pos rfl]⟩).2
  · exact cleared_demoted h.numbered rfl he i

theorem cleared_of_none (h : armedEntry s i = none) : s.cleared i = s := by
  unfold State.cleared
  rw [h]

/-! ### What a take leaves and what it makes (R176) -/

theorem Kept.leadPoint (h : Kept s t) (i : Nat) (x : Int) : leadPoint t i x = leadPoint s i x := by
  simp only [Machine.leadPoint, serviceTime, lead, h.clk, h.localCount]

theorem Kept.alertPoint (h : Kept s t) (i c : Nat) : alertPoint t i c = alertPoint s i c := by
  have hready : readySlot t c = readySlot s c := by simp only [readySlot, State.preload, h.preloads]
  unfold Machine.alertPoint
  rw [hready, h.cfgOf, h.leadPoint]

theorem Kept.live (h : Kept s t) (i : Nat) : t.live i = s.live i := by
  simp only [State.live, h.laneOf, h.lane]

theorem holdTarget_holds (hst : (s.alert r).st ≠ .idle) (hi : i ∈ (s.alert r).targets.map (·.svc)) :
    ((holdTarget s r i).alert r).holds i = true := by
  obtain ⟨x, hx, rfl⟩ := List.mem_map.1 hi
  rw [alert_holdTarget, if_pos rfl, AlertRec.holds, Bool.and_eq_true, List.any_eq_true]
  refine ⟨bne_iff_ne.2 hst, x.taken (Machine.alertPoint s x.svc (s.alert r).clip), ?_, by simp [Target.taken]⟩
  rw [modTarget_targets]
  exact List.mem_map.2 ⟨x, hx, if_pos rfl⟩

theorem takeRequest_s (hi : i ∈ (s.alert r).targets.map (·.svc)) : (s.takeRequest r i).s = alertPoint s i (s.alert r).clip := by
  have ht : ∃ x, (s.alert r).target i = some x := by
    obtain ⟨x, hx, hxi⟩ := List.mem_map.1 hi
    exact Option.isSome_iff_exists.1 (List.find?_isSome.2 ⟨x, hx, by simp [hxi]⟩)
  obtain ⟨x, hx⟩ := ht
  unfold State.takeRequest
  rw [alert_holdTarget, if_pos rfl, AlertRec.target_modTarget (f := fun x => x.taken _) _ fun _ => rfl, hx]
  rfl

section
variable (s) (r i)

theorem takeService_alert (q : Nat) : (takeService s r i).alert q =
    if q = r then (s.alert r).modTarget i (fun x => x.taken (alertPoint s i (s.alert r).clip)) else s.alert q := by
  rw [takeService_eq, ((cleared_frame _ _).requestNext i _).alert, alert_holdTarget]

/-- A take changes the alert records, the schedule, the directory's counts, the services, the reads and the event queues. -/
theorem takeService_frame : let u := takeService s r i
    u = { s with alerts := u.alerts, dir := u.dir, entries := u.entries, services := u.services, flash := u.flash, boxes := u.boxes } := by
  intro u
  have hu : ScheduleFrame (holdTarget s r i) u := by
    dsimp only [u]
    rw [takeService_eq]
    exact (cleared_frame _ _).requestNext i _
  have ha : u.alerts = (holdTarget s r i).alerts := hu.alerts
  refine Eq.trans hu ?_
  rw [ha]
  rfl

theorem takeService_kept : Kept s (takeService s r i) := by simp

theorem takeService_joins (h : s.Numbered) : NoneJoins s (takeService s r i) := by
  rw [takeService_eq]
  have hh : (holdTarget s r i).Numbered := h.of_entries rfl
  have hc : NoneJoins s ((holdTarget s r i).cleared i) :=
    NoneJoins.trans (t := holdTarget s r i) ((NoneJoins.refl h).of_entries rfl) (cleared_joins hh i)
  refine hc.of_entries ?_
  rw [(AskOnly.requestNext i _ _).frame]

theorem takeService_entry (m : Nat) : (takeService s r i).entry m = ((holdTarget s r i).cleared i).entry m := by
  rw [takeService_eq, State.entry, (AskOnly.requestNext i _ _).frame]
  rfl

theorem takeService_sealOf : (takeService s r i).sealOf = s.sealOf := by
  refine Eq.trans ?_ (cleared_sealOf (holdTarget s r i) i)
  funext c
  rw [takeService_eq, State.sealOf, State.clip, (AskOnly.requestNext i _ _).frame]
  rfl

variable {s r i}

theorem takeService_svc (hj : j ≠ i) (h : (holdingAlert (holdTarget s r i) j).isSome = true) : (takeService s r i).svc j = s.svc j := by
  rw [takeService_eq, (AskOnly.requestNext i _ _).others j hj, cleared_svc hj h]
  rfl

theorem takeService_nextFree (h : s.nextFree j) : (takeService s r i).nextFree j := by
  rw [takeService_eq]
  exact requestNext_nextFree (cleared_nextFree (s := holdTarget s r i) h i) _ _

theorem ArmedOrDemoted.takeService (h : ArmedOrDemoted j e s) (hj : e.svc = j) (hst : e.st = .armed) :
    ArmedOrDemoted j e (takeService s r i) := by
  have hh : ArmedOrDemoted j e (holdTarget s r i) := ⟨h.numbered.of_entries rfl, h.entry⟩
  have hc := cleared_armedOrDemoted hh hj hst i
  refine hc.of_same (hc.numbered.of_entries ?_) (takeService_entry _ _ _ _) fun x _ _ => by rw [takeService_entry]
  rw [takeService_eq, (AskOnly.requestNext i _ _).frame]

theorem takeService_demotes (h : ArmedOrDemoted i e s) : (takeService s r i).entry e.num = some e.demoted := by
  rw [takeService_entry]
  exact cleared_demotes (s := holdTarget s r i) ⟨h.numbered.of_entries rfl, h.entry⟩

theorem takeService_demoted (hs : s.Numbered) {y : Entry} (hy : y.st = .waiting .held) (hn : s.entry n = some y) :
    (takeService s r i).entry n = some y := by
  rw [takeService_entry]
  exact cleared_demoted (s := holdTarget s r i) (hs.of_entries rfl) hy hn i

/-- With the next role free or SEEKING the record's clip is sought (R77, R176). -/
theorem takeService_asks (hfree : s.nextFree i) {v : Seal} (hv : s.sealOf (s.alert r).clip = some v) :
    ∃ x, ((takeService s r i).sp i).nxt = some x ∧ x.clip = (s.alert r).clip ∧ x.owner = .alert r ∧ x.phase = .seeking
      ∧ x.s = (s.takeRequest r i).s := by
  have hseal : ((holdTarget s r i).cleared i).sealOf (s.alert r).clip = some v := by
    rw [cleared_sealOf]
    exact hv
  obtain ⟨c, hc, hcv⟩ := Option.bind_eq_some_iff.1 hseal
  obtain ⟨w, hw⟩ := requestNext_placed (i := i) (q := s.takeRequest r i) (cleared_nextFree (s := holdTarget s r i) hfree i) hc hcv
  rw [takeService_eq]
  exact ⟨_, hw, rfl, rfl, rfl, rfl⟩

/-- On a service without an ARMED entry a take asks for the instance, and does nothing else to the schedule. -/
theorem takeService_unarmed (h : armedEntry s i = none) : (takeService s r i).entries = s.entries ∧ (takeService s r i).dir = s.dir
    ∧ ∀ j, j ≠ i → (takeService s r i).svc j = s.svc j := by
  have ha := AskOnly.requestNext i (holdTarget s r i) (s.takeRequest r i)
  have hc : (holdTarget s r i).cleared i = holdTarget s r i := cleared_of_none h
  rw [takeService_eq, hc]
  refine ⟨?_, ?_, fun j hj => (ha.others j hj).trans rfl⟩
  · rw [ha.frame]
    rfl
  · rw [ha.frame]
    rfl

end

end Sys2Proof.Machine
end

section
/-! O57: Alert Activate places its targets one after the other (R174 to R176). -/

namespace Sys2Proof.Machine

variable {s t u : State} {i j k n r : Nat} {e : Entry} {x : Target} {done : List Nat}

/-! ### The status of a target (R175) -/

/-- A record that does not hold or claim the service yet changes nothing of its status. -/
theorem targetStatus_congr (hlive : t.live i = s.live i) (hothers : ∀ q, q ≠ r → t.alert q = s.alert q)
    (hidle : (s.alert r).st = .idle ∨ ∀ x ∈ (s.alert r).targets, x.svc = i → x.status = .unavailable)
    (hfresh : ∀ x ∈ (t.alert r).targets, x.svc = i → x.status = .unavailable) : targetStatus t i = targetStatus s i := by
  have hnone {a : AlertRec} {p : TStatus} (hp : p ≠ .unavailable)
      (h : a.st = .idle ∨ ∀ x ∈ a.targets, x.svc = i → x.status = .unavailable) :
      (a.st != .idle && a.targets.any (fun x => x.svc == i && x.status == p)) = false := by
    rcases h with h | h
    · simp [h]
    · refine Bool.and_eq_false_iff.2 (.inr (List.any_eq_false.2 fun x hx => ?_))
      by_cases hi : x.svc = i
      · simpa [hi, h x hx hi] using hp.symm
      · simp [hi]
  have hholds (q : Nat) : (t.alert q).holds i = (s.alert q).holds i := by
    by_cases hq : q = r
    · subst hq
      exact (hnone (p := .held) nofun (.inr hfresh)).trans (hnone (p := .held) nofun hidle).symm
    · rw [hothers q hq]
  have hclaims (q : Nat) : ((t.alert q).st != .idle && (t.alert q).targets.any (fun x => x.svc == i && x.status == .deferred))
      = ((s.alert q).st != .idle && (s.alert q).targets.any (fun x => x.svc == i && x.status == .deferred)) := by
    by_cases hq : q = r
    · subst hq
      exact (hnone (p := .deferred) nofun (.inr hfresh)).trans (hnone (p := .deferred) nofun hidle).symm
    · rw [hothers q hq]
  have hhold : holdingAlert t i = holdingAlert s i := by simp only [holdingAlert, hholds]
  have hdef : isDeferred t i = isDeferred s i := by simp only [isDeferred, hclaims]
  unfold targetStatus
  rw [hlive, hhold, hdef]
  cases hr : holdingAlert s i with
  | none => rfl
  | some q =>
    have hq : q ≠ r := by
      rintro rfl
      exact absurd (List.find?_some hr) (by rw [AlertRec.holds, hnone (p := .held) nofun hidle]; decide)
    simp only [hothers q hq]

/-! ### The record while its targets are placed -/

/-- What a placed target is, and what its service has become, when it is HELD (R176). -/
structure PlacedTarget (s : State) (r : Nat) (t : State) (x : Target) : Prop where
  uncut : x.cut = false
  noE : x.e = none
  point : x.s = alertPoint s x.svc (s.alert r).clip
  demoted : ∀ e, armedEntry s x.svc = some e → t.entry e.num = some e.demoted
  asks : s.nextFree x.svc → ∀ v, s.sealOf (s.alert r).clip = some v →
    ∃ n, (t.sp x.svc).nxt = some n ∧ n.clip = (s.alert r).clip ∧ n.owner = .alert r ∧ n.phase = .seeking ∧ n.s = x.s

/-- The state `t` of an activation that began at `s`, the targets of the services `done` placed. -/
structure Placing (s : State) (r : Nat) (done : List Nat) (t : State) : Prop where
  frame : t = { s with alerts := t.alerts, dir := t.dir, entries := t.entries, services := t.services, flash := t.flash, boxes := t.boxes }
  kept : Kept s t
  joins : NoneJoins s t
  others : ∀ q, q ≠ r → t.alert q = s.alert q
  record : t.alert r = { s.alert r with targets := (t.alert r).targets }
  svcs : (t.alert r).targets.map (·.svc) = (s.alert r).targets.map (·.svc)
  fresh : ∀ x ∈ (t.alert r).targets, x.svc ∉ done → x.status = .unavailable
  seals : t.sealOf = s.sealOf
  next : ∀ i, i ∉ done → s.nextFree i → t.nextFree i
  armed : ∀ i e, armedEntry s i = some e → ArmedOrDemoted i e t
  status : ∀ x ∈ (t.alert r).targets, x.svc ∈ done → x.status = targetStatus s x.svc
  placed : ∀ x ∈ (t.alert r).targets, x.svc ∈ done → x.status = .held → PlacedTarget s r t x
  still : (∀ i ∈ done, armedEntry s i = none) → t.entries = s.entries ∧ t.dir = s.dir ∧ ∀ j, j ∉ done → t.svc j = s.svc j

theorem Placing.start (hs : s.Numbered) (hf : ∀ x ∈ (s.alert r).targets, x.status = .unavailable) : Placing s r [] s where
  frame := rfl
  kept := Kept.refl s
  joins := NoneJoins.refl hs
  others _ _ := rfl
  record := rfl
  svcs := rfl
  fresh x hx _ := hf x hx
  seals := rfl
  next _ _ h := h
  armed i e he := ⟨hs, .inl ⟨hs.entry_of_find he, he⟩⟩
  status _ _ h := by cases h
  placed _ _ h := by cases h
  still _ := ⟨rfl, rfl, fun _ _ => rfl⟩

section
variable (h : Placing s r done t) (hr : r < 4) (hst : (s.alert r).st ≠ .idle) (hi : i ∈ (s.alert r).targets.map (·.svc)) (hd : i ∉ done)
include h

theorem Placing.mem_svcs (hx : x ∈ (t.alert r).targets) : x.svc ∈ (s.alert r).targets.map (·.svc) := by
  rw [← h.svcs]
  exact List.mem_map_of_mem hx

theorem Placing.clip : (t.alert r).clip = (s.alert r).clip := by rw [h.record]

theorem Placing.stat : (t.alert r).st = (s.alert r).st := by rw [h.record]

/-- A target that is not taken changes its own record only (R175). -/
theorem Placing.refuse (hne : targetStatus s i ≠ .held) :
    Placing s r (i :: done) (t.modAlert r (fun a => a.modTarget i (·.as (targetStatus s i)))) := by
  have halert (q : Nat) : (t.modAlert r (fun a => a.modTarget i (·.as (targetStatus s i)))).alert q =
      if q = r then (t.alert r).modTarget i (·.as (targetStatus s i)) else t.alert q := State.alert_setAlert t r _ q
  have hrec := (halert r).trans (if_pos rfl)
  have hf : ∀ y : Target, (y.as (targetStatus s i)).svc = y.svc := fun _ => rfl
  refine ⟨?_, h.kept.modAlert r _, h.joins.of_entries rfl, fun q hq => (halert q).trans ((if_neg hq).trans (h.others q hq)), ?_, ?_, fun x hx hxd => ?_,
    h.seals, fun j hj hn => h.next j (fun hm => hj (List.mem_cons_of_mem _ hm)) hn, fun j e he => ?_, fun x hx hxd => ?_, fun x hx hxd hxs => ?_,
    fun hn => ?_⟩
  · exact (congrArg (fun w => State.modAlert w r _) h.frame).trans rfl
  · rw [hrec, h.record]
    rfl
  · rw [hrec, modTarget_svcs _ hf, h.svcs]
  · rw [hrec] at hx
    rcases mem_modTarget hf hx with ⟨hxi, -⟩ | ⟨hxi, hx⟩
    · exact absurd (hxi ▸ List.mem_cons_self) hxd
    · exact h.fresh x hx fun hm => hxd (List.mem_cons_of_mem _ hm)
  · have ha := h.armed j e he
    exact ⟨ha.numbered.of_entries rfl, ha.entry⟩
  · rw [hrec] at hx
    rcases mem_modTarget hf hx with ⟨hxi, y, -, rfl⟩ | ⟨hxi, hx⟩
    · rw [hxi]
      rfl
    · exact h.status x hx ((List.mem_cons.1 hxd).resolve_left hxi)
  · rw [hrec] at hx
    rcases mem_modTarget hf hx with ⟨hxi, y, -, rfl⟩ | ⟨hxi, hx⟩
    · exact absurd hxs hne
    · obtain ⟨h1, h2, h3, h4, h5⟩ := h.placed x hx ((List.mem_cons.1 hxd).resolve_left hxi) hxs
      exact ⟨h1, h2, h3, h4, h5⟩
  · obtain ⟨h1, h2, h3⟩ := h.still fun j hj => hn j (List.mem_cons_of_mem _ hj)
    exact ⟨h1, h2, fun j hj => h3 j fun hm => hj (List.mem_cons_of_mem _ hm)⟩

/-- A target that is HELD takes its service (R176). -/
theorem Placing.take (hr : r < 4) (hst : (s.alert r).st ≠ .idle) (hi : i ∈ (s.alert r).targets.map (·.svc)) (hd : i ∉ done)
    (hheld : targetStatus s i = .held) : Placing s r (i :: done) (takeService t r i) := by
  have hpoint : alertPoint t i (t.alert r).clip = alertPoint s i (s.alert r).clip := by rw [h.clip, h.kept.alertPoint]
  have hrec : (takeService t r i).alert r = (t.alert r).modTarget i (fun x => x.taken (alertPoint s i (s.alert r).clip)) := by
    rw [takeService_alert, if_pos rfl, hpoint]
  have hf : ∀ y : Target, (y.taken (alertPoint s i (s.alert r).clip)).svc = y.svc := fun _ => rfl
  have hnum : t.Numbered := h.joins.numbered
  have harm (he : armedEntry s i = none) (hsame : t.entries = s.entries) : armedEntry t i = none := by
    rw [armedEntry, entriesOf, State.schedule, hsame]
    exact he
  refine ⟨?_, h.kept.takeService r i, h.joins.trans (takeService_joins t i r hnum), fun q hq => ?_, ?_, ?_, fun x hx hxd => ?_,
    (takeService_sealOf t i r).trans h.seals, fun j hj hn => takeService_nextFree (h.next j (fun hm => hj (List.mem_cons_of_mem _ hm)) hn),
    fun j e he => (h.armed j e he).takeService (armedEntry_svc he) (armedEntry_st he), fun x hx hxd => ?_, fun x hx hxd hxs => ?_, fun hn => ?_⟩
  · have hu := takeService_frame t i r
    generalize takeService t r i = u at hu ⊢
    rw [hu, h.frame]
  · rw [takeService_alert, if_neg hq, h.others q hq]
  · rw [hrec, h.record]
    rfl
  · rw [hrec, modTarget_svcs _ hf, h.svcs]
  · rw [hrec] at hx
    rcases mem_modTarget hf hx with ⟨hxi, -⟩ | ⟨hxi, hx⟩
    · exact absurd (hxi ▸ List.mem_cons_self) hxd
    · exact h.fresh x hx fun hm => hxd (List.mem_cons_of_mem _ hm)
  · rw [hrec] at hx
    rcases mem_modTarget hf hx with ⟨hxi, y, -, rfl⟩ | ⟨hxi, hx⟩
    · rw [hxi, hheld]
      rfl
    · exact h.status x hx ((List.mem_cons.1 hxd).resolve_left hxi)
  · rw [hrec] at hx
    rcases mem_modTarget hf hx with ⟨hxi, y, -, rfl⟩ | ⟨hxi, hx⟩
    · have hi' : i ∈ (t.alert r).targets.map (·.svc) := by rw [h.svcs]; exact hi
      refine ⟨rfl, rfl, by rw [hxi]; rfl, fun e he => ?_, fun hfree v hv => ?_⟩
      · rw [hxi] at he
        exact takeService_demotes (h.armed i e he)
      · rw [hxi] at hfree ⊢
        obtain ⟨z, hz, hzc, hzo, hzp, hzs⟩ := takeService_asks (h.next i hd hfree) (v := v) (by rw [h.clip, h.seals]; exact hv)
        exact ⟨z, hz, hzc.trans h.clip, hzo, hzp, hzs.trans ((takeRequest_s hi').trans hpoint)⟩
    · have hxd := (List.mem_cons.1 hxd).resolve_left hxi
      obtain ⟨h1, h2, h3, h4, h5⟩ := h.placed x hx hxd hxs
      have hholds : (holdingAlert (holdTarget t r i) x.svc).isSome = true := by
        refine holdingAlert_isSome hr ?_
        rw [alert_holdTarget, if_pos rfl, AlertRec.holds, Bool.and_eq_true, List.any_eq_true]
        refine ⟨bne_iff_ne.2 (by exact h.stat ▸ hst), x, (mem_modTarget_of_ne (f := fun x => x.taken _) (fun _ => rfl) hxi).2 hx, by simp [hxs]⟩
      refine ⟨h1, h2, h3, fun e he => takeService_demoted hnum rfl (h4 e he), fun hfree v hv => ?_⟩
      obtain ⟨z, hz, hrest⟩ := h5 hfree v hv
      exact ⟨z, by rw [State.sp, takeService_svc hxi hholds]; exact hz, hrest⟩
  · obtain ⟨h1, h2, h3⟩ := h.still fun j hj => hn j (List.mem_cons_of_mem _ hj)
    obtain ⟨g1, g2, g3⟩ := takeService_unarmed (r := r) (harm (hn i List.mem_cons_self) h1)
    exact ⟨g1.trans h1, g2.trans h2, fun j hj => (g3 j fun hm => hj (hm ▸ List.mem_cons_self)).trans
      (h3 j fun hm => hj (List.mem_cons_of_mem _ hm))⟩

end

/-- One target after the other, each at its turn (R175). -/
theorem Placing.fold (hr : r < 4) (hst : (s.alert r).st ≠ .idle) (hf : ∀ x ∈ (s.alert r).targets, x.status = .unavailable) {l : List Nat}
    (hl : ∀ i ∈ l, i ∈ (s.alert r).targets.map (·.svc)) (hnd : l.Nodup) (hdis : ∀ i ∈ l, i ∉ done) (h : Placing s r done t) :
    ∃ d, (∀ i, i ∈ d ↔ i ∈ l ∨ i ∈ done) ∧ Placing s r d (l.foldl (fun t i => placeTarget t r i) t) := by
  induction l generalizing t done with
  | nil => exact ⟨done, fun i => by simp, h⟩
  | cons i l ih =>
    obtain ⟨hil, hnd⟩ := List.nodup_cons.1 hnd
    have hid : i ∉ done := hdis i List.mem_cons_self
    have hstat : targetStatus t i = targetStatus s i :=
      targetStatus_congr (h.kept.live i) h.others (.inr fun x hx _ => hf x hx) fun x hx hxi => h.fresh x hx (hxi ▸ hid)
    have hstep : Placing s r (i :: done) (placeTarget t r i) := by
      unfold placeTarget
      dsimp only
      split
      · next hh => exact h.take hr hst (hl i List.mem_cons_self) hid (hstat.symm.trans hh)
      · next hh =>
        rw [hstat] at hh ⊢
        exact h.refuse hh
    obtain ⟨d, hd, hp⟩ := ih (fun j hj => hl j (List.mem_cons_of_mem _ hj)) hnd (fun j hj => by
      rw [List.mem_cons, not_or]
      exact ⟨fun hji => hil (hji ▸ hj), hdis j (List.mem_cons_of_mem _ hj)⟩) hstep
    refine ⟨d, fun j => ?_, hp⟩
    rw [hd, List.mem_cons, List.mem_cons]
    tauto

/-! ### The status, case by case (R175) -/

theorem isDeferred_iff : isDeferred s i = true ↔
    ∃ q, q < 4 ∧ (s.alert q).st ≠ .idle ∧ ∃ t ∈ (s.alert q).targets, t.svc = i ∧ t.status = .deferred := by
  simp [isDeferred]

theorem targetStatus_not_live (h : s.live i = false) : targetStatus s i = .unavailable := by simp [targetStatus, h]

theorem targetStatus_other (hl : s.live i = true) (h : (∃ q, holdingAlert s i = some q ∧ (s.alert q).st = .on) ∨ isDeferred s i = true) :
    targetStatus s i = .otherAlert := by
  unfold targetStatus
  rw [hl]
  rcases h with ⟨q, hq, hon⟩ | hd
  · simp [hq, hon]
  · cases hq : holdingAlert s i <;> simp [hd]

theorem targetStatus_deferred (hl : s.live i = true) (hon : ¬∃ q, holdingAlert s i = some q ∧ (s.alert q).st = .on)
    (hd : isDeferred s i ≠ true) (hh : holdingAlert s i ≠ none) : targetStatus s i = .deferred := by
  obtain ⟨q, hq⟩ := Option.ne_none_iff_exists'.1 hh
  have hne : (s.alert q).st ≠ .on := fun h => hon ⟨q, hq, h⟩
  simp [targetStatus, hl, hq, hne, hd]

theorem targetStatus_held (hl : s.live i = true) (hd : isDeferred s i ≠ true) (hh : holdingAlert s i = none) :
    targetStatus s i = .held := by
  simp [targetStatus, hl, hd, hh]

theorem targetStatus_refused_iff : (targetStatus s i).refused = true ↔
    s.live i = false ∨ (∃ q, holdingAlert s i = some q ∧ (s.alert q).st = .on) ∨ isDeferred s i = true := by
  cases hl : s.live i with
  | false => simp [targetStatus_not_live hl, TStatus.refused]
  | true =>
    by_cases ho : (∃ q, holdingAlert s i = some q ∧ (s.alert q).st = .on) ∨ isDeferred s i = true
    · simp [targetStatus_other hl ho, TStatus.refused, ho]
    · obtain ⟨hon, hd⟩ := not_or.1 ho
      have hno : ¬((targetStatus s i).refused = true) := by
        by_cases hh : holdingAlert s i = none
        · rw [targetStatus_held hl hd hh]
          decide
        · rw [targetStatus_deferred hl hon hd hh]
          decide
      simp only [hno, ho, reduceCtorEq, or_self]

theorem targetStatus_ne_released : targetStatus s i ≠ .released := by
  unfold targetStatus
  repeat' split
  all_goals nofun

/-- A point beyond the estimate (R31, R176). -/
theorem leadPoint_eq (s : State) (i x : Nat) : leadPoint s i x = (estimate s i).map (fun e => (e + x) % nPts) := by
  unfold estimate leadPoint
  cases serviceTime s i with
  | none => rfl
  | some c =>
    cases lead s i with
    | none => rfl
    | some l =>
      simp only [Option.map_some, Option.some.injEq, addSigned, nPts]
      omega

/-! ### The checks (R174) -/

variable {a : AlertArgs}

theorem alertArgsOk_iff : alertArgsOk a = true ↔ a.alert ≠ 0 ∧ 1 ≤ a.count ∧ a.count ≤ 48 ∧ (a.targets.take a.count).Nodup
    ∧ (∀ i ∈ a.targets.take a.count, i ≤ 47) ∧ (∀ i ∈ a.targets.drop a.count, i = 0)
    ∧ 1 ≤ a.clip ∧ a.clip ≤ 65534 ∧ 1 ≤ a.duration ∧ a.duration ≤ 7200 ∧ a.loop ≤ 1 ∧ a.res = 0 := by
  have hclip : badClip a.clip = false ↔ 1 ≤ a.clip ∧ a.clip ≤ 65534 := by
    rw [badClip, Bool.or_eq_false_iff, beq_eq_false_iff_ne, decide_eq_false_iff_not]
    omega
  unfold alertArgsOk
  simp only [Bool.and_eq_true, bne_iff_ne, decide_eq_true_eq, List.all_eq_true, beq_iff_eq, Bool.not_eq_true', hclip]
  tauto

theorem alertClip_iff (c : Nat) : alertClip s c = true ↔ ∃ x, s.clip c = some x ∧ x.st = .good ∧ x.region = .alert := by
  unfold alertClip
  cases s.clip c <;> simp

theorem recordOf_isSome_iff (id : Nat) : (recordOf s id).isSome = true ↔ ∃ q, q < 4 ∧ (s.alert q).st ≠ .idle ∧ (s.alert q).id = id := by
  simp [recordOf, List.find?_isSome]

theorem idleRecord_none_iff : idleRecord s = none ↔ ∀ q, q < 4 → (s.alert q).st ≠ .idle := by
  simp [idleRecord]

theorem idleRecord_some (hr : r < 4) (hi : (s.alert r).st = .idle) (hl : ∀ q, q < r → (s.alert q).st ≠ .idle) : idleRecord s = some r := by
  rw [idleRecord, List.find?_range_eq_some]
  exact ⟨by simp [hi], List.mem_range.2 hr, fun q hq => by simpa using hl q hq⟩

theorem readySlot_iff (c : Nat) : readySlot s c = true ↔ ∃ j, j < 4 ∧ (s.preload j).st = .ready ∧ (s.preload j).clip = c := by
  simp [readySlot]

theorem exec_alertActivate (h : s.takes .ap) :
    exec (.alertActivate .ap a) s = .next ((runAlertActivate a (openExchange s .ap 0x41)).done .ap) :=
  congrArg Host.Outcome.next (command_taken s .ap 0x41 (runAlertActivate a) h rfl)

/-- The command's cases: the checks one after the other, then the activation. -/
theorem runAlertActivate_cases (s : State) (a : AlertArgs) :
    (alertArgsOk a = false → runAlertActivate a s = err s .badparam)
    ∧ (alertArgsOk a = true → alertClip s a.clip = false → runAlertActivate a s = err s .notfound)
    ∧ (alertArgsOk a = true → alertClip s a.clip = true → (recordOf s a.alert).isSome = true → runAlertActivate a s = err s .duplicate)
    ∧ (alertArgsOk a = true → alertClip s a.clip = true → (recordOf s a.alert).isSome = false → idleRecord s = none →
      runAlertActivate a s = err s .full)
    ∧ ∀ r, alertArgsOk a = true → alertClip s a.clip = true → (recordOf s a.alert).isSome = false → idleRecord s = some r →
      ((∀ i ∈ a.targets.take a.count, (targetStatus s i).refused = true) → runAlertActivate a s =
        { s := s, reply := some (.inuse, (a.targets.take a.count).map (fun i => byte1 (targetStatus s i).reason)) })
      ∧ ((¬∀ i ∈ a.targets.take a.count, (targetStatus s i).refused = true) → runAlertActivate a s =
        ok (rest (activateAlert s r a)) ([byte1 r, byte1 (a.targets.take a.count).length]
          ++ ((activateAlert s r a).alert r).targets.flatMap (targetBytes (!readySlot s a.clip)))) := by
  refine ⟨fun h1 => ?_, fun h1 h2 => ?_, fun h1 h2 h3 => ?_, fun h1 h2 h3 h4 => ?_, fun r h1 h2 h3 h4 => ⟨fun h5 => ?_, fun h5 => ?_⟩⟩
  · simp [runAlertActivate, h1]
  · simp [runAlertActivate, h1, h2]
  · simp [runAlertActivate, h1, h2, h3]
  · simp [runAlertActivate, h1, h2, h3, h4]
  · have hall : (a.targets.take a.count).all (fun i => (targetStatus s i).refused) = true := List.all_eq_true.2 h5
    unfold runAlertActivate
    simp only [h1, h2, h3, h4, hall, Bool.not_true, Bool.false_eq_true, if_false, if_true]
  · have hall : (a.targets.take a.count).all (fun i => (targetStatus s i).refused) = false := Bool.eq_false_iff.2 (mt List.all_eq_true.1 h5)
    unfold runAlertActivate
    simp only [h1, h2, h3, h4, hall, Bool.not_true, Bool.false_eq_true, if_false]

/-! ### The activation as a whole -/

/-- The state in which the new record stands ON, none of its targets placed. -/
def State.activated (s : State) (r : Nat) (a : AlertArgs) : State := (s.addRef a.clip).setAlert r (newAlert s a)

theorem alert_activated (q : Nat) : (s.activated r a).alert q = if q = r then newAlert s a else s.alert q := State.alert_setAlert _ r _ q

theorem activated_sealOf (s : State) (r : Nat) (a : AlertArgs) : (s.activated r a).sealOf = s.sealOf := by
  funext c
  show ((s.addRef a.clip).clip c).bind (·.sealVals) = (s.clip c).bind (·.sealVals)
  rw [State.addRef, State.clip_setClip]
  split
  · next h =>
    rw [h]
    cases s.clip a.clip <;> rfl
  · rfl

theorem activated_targetStatus (hi : (s.alert r).st = .idle) (i : Nat) : targetStatus (s.activated r a) i = targetStatus s i := by
  refine targetStatus_congr (r := r) rfl (fun q hq => (alert_activated q).trans (if_neg hq)) (.inl hi) fun x hx _ => ?_
  rw [alert_activated, if_pos rfl] at hx
  obtain ⟨i, -, rfl⟩ := List.mem_map.1 hx
  rfl

theorem newAlert_svcs (s : State) (a : AlertArgs) : (newAlert s a).targets.map (·.svc) = a.targets.take a.count := by
  show ((a.targets.take a.count).map newTarget).map (·.svc) = _
  rw [List.map_map]
  exact List.map_id _

/-- The activation, its targets all placed. -/
theorem activateAlert_placed (hs : s.Numbered) (hr : r < 4) (hnd : (a.targets.take a.count).Nodup) :
    ∃ d, (∀ i, i ∈ d ↔ i ∈ a.targets.take a.count) ∧ Placing (s.activated r a) r d (activateAlert s r a) := by
  have hrec : (s.activated r a).alert r = newAlert s a := (alert_activated r).trans (if_pos rfl)
  have hf : ∀ x ∈ ((s.activated r a).alert r).targets, x.status = .unavailable := fun x hx => by
    rw [hrec] at hx
    obtain ⟨i, -, rfl⟩ := List.mem_map.1 hx
    rfl
  obtain ⟨d, hd, hp⟩ := Placing.fold (l := a.targets.take a.count) hr (by rw [hrec]; nofun) hf (fun i hi => by rw [hrec, newAlert_svcs]; exact hi) hnd
    (fun i _ h => by cases h) (Placing.start (hs.of_entries rfl) hf)
  exact ⟨d, fun i => by rw [hd]; simp, hp⟩

/-- The bytes of a target (log 10). -/
theorem targetBytes_eq (slow : Bool) (h : x.status ≠ .released) : targetBytes slow x =
    [if x.status = .held then 0 else if x.status = .deferred then 1 else 2,
      if x.status = .otherAlert then 1 else if x.status = .unavailable then 2 else 0, flagByte (slow && x.status == .held)] := by
  unfold targetBytes
  cases hs : x.status
  case released => exact absurd hs h
  all_goals rfl

/-! ### The obligation -/

/-- What each target of an accepted command is (R175, R176). -/
structure TargetPlaced (s u : State) (a : AlertArgs) (r : Nat) (slow : Bool) (t : Target) : Prop where
  notLive : s.live t.svc = false → t.status = .unavailable
  other : s.live t.svc = true → (∃ q, holdingAlert s t.svc = some q ∧ (s.alert q).st = .on) ∨ isDeferred s t.svc = true → t.status = .otherAlert
  deferred : s.live t.svc = true → ¬(∃ q, holdingAlert s t.svc = some q ∧ (s.alert q).st = .on) → isDeferred s t.svc ≠ true →
    holdingAlert s t.svc ≠ none → t.status = .deferred
  held : s.live t.svc = true → isDeferred s t.svc ≠ true → holdingAlert s t.svc = none →
    t.status = .held ∧ t.cut = false ∧ t.e = none
    ∧ t.s = (estimate s t.svc).map (fun e => (e + if slow then (s.cfgOf t.svc).preroll * 90 else 9000) % nPts)
    ∧ (∀ e, armedEntry s t.svc = some e → ∃ y, u.entry e.num = some y ∧ y.st = .waiting .held ∧ y.s = none ∧ y.commitment = 0)
    ∧ (∀ x v, s.clip a.clip = some x → x.sealVals = some v → (∀ n, (s.sp t.svc).nxt = some n → n.phase = .seeking) →
        ∃ n, (u.sp t.svc).nxt = some n ∧ n.clip = a.clip ∧ n.owner = .alert r ∧ n.phase = .seeking ∧ n.s = t.s)

section
variable {d : List Nat} (hp : Placing (s.activated r a) r d u)
include hp

theorem Placing.targetPlaced (hi : (s.alert r).st = .idle) {t : Target} (ht : t ∈ (u.alert r).targets) (hd : t.svc ∈ d) :
    t.status ≠ .released ∧ TargetPlaced s u a r (!readySlot s a.clip) t := by
  have hstat : t.status = targetStatus s t.svc := (hp.status t ht hd).trans (activated_targetStatus hi _)
  have hclip : ((s.activated r a).alert r).clip = a.clip := by
    rw [alert_activated, if_pos rfl]
    rfl
  refine ⟨by rw [hstat]; exact targetStatus_ne_released, fun hl => ?_, fun hl ho => ?_, fun hl hon hdf hh => ?_, fun hl hdf hh => ?_⟩
  · rw [hstat, targetStatus_not_live hl]
  · rw [hstat, targetStatus_other hl ho]
  · rw [hstat, targetStatus_deferred hl hon hdf hh]
  · have hheld : t.status = .held := hstat.trans (targetStatus_held hl hdf hh)
    obtain ⟨hcut, he, hpoint, hdem, hask⟩ := hp.placed t ht hd hheld
    rw [hclip] at hpoint hask
    refine ⟨hheld, hcut, he, ?_, fun e hae => ⟨e.demoted, hdem e hae, rfl, rfl, rfl⟩, fun x v hx hv hfree => hask hfree v ?_⟩
    · have hsame : alertPoint (s.activated r a) t.svc a.clip = alertPoint s t.svc a.clip := rfl
      rw [hpoint, hsame, alertPoint]
      cases readySlot s a.clip
      · exact leadPoint_eq s t.svc _
      · exact leadPoint_eq s t.svc 9000
    · rw [activated_sealOf, State.sealOf, hx]
      exact hv

/-- The new record, its timer running (R175). -/
theorem Placing.newRecord : (u.alert r).st = .on ∧ (u.alert r).id = a.alert ∧ (u.alert r).clip = a.clip ∧ (u.alert r).loop = (a.loop == 1)
    ∧ (u.alert r).timer = some s.localCount ∧ (u.alert r).remTicks = a.duration * 27000000 ∧ (u.alert r).cause = .none
    ∧ (∀ q, q ≠ r → u.alert q = s.alert q) ∧ (u.alert r).targets.map (·.svc) = a.targets.take a.count := by
  have hrec := hp.record
  rw [alert_activated, if_pos rfl] at hrec
  have hsvcs := hp.svcs
  rw [alert_activated, if_pos rfl, newAlert_svcs] at hsvcs
  refine ⟨?_, ?_, ?_, ?_, ?_, ?_, ?_, fun q hq => ?_, hsvcs⟩
  case refine_8 => exact (hp.others q hq).trans ((alert_activated q).trans (if_neg hq))
  all_goals
    rw [hrec]
    rfl

/-- Where none of its services has an ARMED entry, the schedule stays (R64). -/
theorem Placing.unarmed (hd : ∀ i ∈ d, armedEntry s i = none) :
    (∀ x, s.clip a.clip = some x → u.clip a.clip = some { x with refs := x.refs + 1 })
    ∧ u = { s with alerts := u.alerts, dir := u.dir, services := u.services, boxes := u.boxes, flash := u.flash }
    ∧ ∀ j, j ∉ d → u.svc j = s.svc j := by
  obtain ⟨hent, hdir, hsvc⟩ := hp.still hd
  refine ⟨fun x hx => ?_, ?_, hsvc⟩
  · rw [State.clip, hdir]
    show (s.addRef a.clip).clip a.clip = _
    rw [State.addRef, State.clip_setClip, if_pos rfl, hx]
    rfl
  · have hframe := hp.frame
    rw [hent] at hframe
    exact hframe

end

/-- Settles O57: the checks in their order, then the targets one after the other. -/
theorem alertActivateHoldsService : Obligations.AlertActivateHoldsService := by
  intro s a ht ts answers sound known twice full deferred heldOn refused ready
  obtain ⟨l, hl⟩ : ∃ l, openExchange s .ap 0x41 = { s with links := l } := ⟨_, openExchange_frame s .ap 0x41⟩
  have hsound : sound ↔ alertArgsOk a = true := alertArgsOk_iff.symm
  have hknown : known ↔ alertClip (openExchange s .ap 0x41) a.clip = true := by
    rw [hl]
    exact (alertClip_iff (s := { s with links := l }) a.clip).symm
  have htwice : twice ↔ (recordOf (openExchange s .ap 0x41) a.alert).isSome = true := by
    rw [hl]
    exact (recordOf_isSome_iff (s := { s with links := l }) a.alert).symm
  have hfull : full ↔ idleRecord (openExchange s .ap 0x41) = none := by
    rw [hl]
    exact (idleRecord_none_iff (s := { s with links := l })).symm
  have hrefused (i : Nat) : refused i ↔ (targetStatus (openExchange s .ap 0x41) i).refused = true := by
    rw [hl, targetStatus_refused_iff, isDeferred_iff]
    exact Iff.rfl
  have hanswer {st : Status} {b : List Byte}
      (h : runAlertActivate a (openExchange s .ap 0x41) = { s := openExchange s .ap 0x41, reply := some (st, b) }) : answers st b :=
    exec_only_answers (run := runAlertActivate a) rfl ht rfl h
  obtain ⟨hc1, hc2, hc3, hc4, hc5⟩ := runAlertActivate_cases (openExchange s .ap 0x41) a
  refine ⟨fun h1 => hanswer (hc1 (Bool.eq_false_iff.2 (mt hsound.2 h1))),
    fun h1 h2 => hanswer (hc2 (hsound.1 h1) (Bool.eq_false_iff.2 (mt hknown.2 h2))),
    fun h1 h2 h3 => hanswer (hc3 (hsound.1 h1) (hknown.1 h2) (htwice.1 h3)),
    fun h1 h2 h3 h4 => hanswer (hc4 (hsound.1 h1) (hknown.1 h2) (Bool.eq_false_iff.2 (mt htwice.2 h3)) (hfull.1 h4)),
    fun h1 h2 h3 h4 h5 => ?_, fun r h1 h2 h3 h5 hr hidle hless hwf hnum => ?_⟩
  · obtain ⟨r, hrec⟩ := Option.ne_none_iff_exists'.1 (mt hfull.2 h4)
    have hall : ∀ i ∈ ts, (targetStatus (openExchange s .ap 0x41) i).refused = true := fun i hi => (hrefused i).1 (h5 i hi)
    refine hanswer ((hc5 r (hsound.1 h1) (hknown.1 h2) (Bool.eq_false_iff.2 (mt htwice.2 h3)) hrec).1 hall |>.trans ?_)
    refine congrArg (fun b => (⟨_, some (.inuse, b)⟩ : Ans)) (List.map_congr_left fun i hi => ?_)
    have hlive : (openExchange s .ap 0x41).live i = s.live i := by rw [hl]; rfl
    rcases targetStatus_refused_iff.1 (hall i hi) with hl' | ho
    · rw [targetStatus_not_live hl', ← hlive, hl']
      rfl
    · cases hli : s.live i with
      | false =>
        rw [targetStatus_not_live (hlive.trans hli)]
        rfl
      | true =>
        rw [targetStatus_other (hlive.trans hli) ho]
        rfl
  · have hs : (openExchange s .ap 0x41).Numbered := State.Numbered.of_entries ⟨hwf, hnum⟩ (openExchange_entries s .ap 0x41)
    have hidle' : ((openExchange s .ap 0x41).alert r).st = .idle := by rw [openExchange_alert]; exact hidle
    have ⟨_, _, _, hnd, _⟩ := h1
    obtain ⟨d, hd, hp⟩ := activateAlert_placed (a := a) hs hr hnd
    obtain ⟨-, -, -, -, -, -, -, -, hsvcs⟩ := hp.newRecord
    have hrec : idleRecord (openExchange s .ap 0x41) = some r :=
      idleRecord_some hr hidle' fun q hq => by rw [openExchange_alert]; exact hless q hq
    have hrun := (hc5 r (hsound.1 h1) (hknown.1 h2) (Bool.eq_false_iff.2 (mt htwice.2 h3)) hrec).2
      fun h => h5 fun i hi => (hrefused i).2 (h i hi)
    have hexec := exec_alertActivate (a := a) ht
    have hready : (!readySlot (openExchange s .ap 0x41) a.clip) = false ↔ ready := by
      rw [Bool.not_eq_false', hl]
      exact readySlot_iff (s := { s with links := l }) a.clip
    have htarget {t : Target} (hx : t ∈ ((activateAlert (openExchange s .ap 0x41) r a).alert r).targets) : t.status ≠ .released
        ∧ TargetPlaced (openExchange s .ap 0x41) (activateAlert (openExchange s .ap 0x41) r a) a r
          (!readySlot (openExchange s .ap 0x41) a.clip) t := by
      refine hp.targetPlaced hidle' hx ((hd _).2 ?_)
      rw [← hsvcs]
      exact List.mem_map_of_mem hx
    rw [hrun] at hexec
    generalize hslow : (!readySlot (openExchange s .ap 0x41) a.clip) = slow at hexec hready htarget
    have hbytes := List.flatMap_congr (l := ((activateAlert (openExchange s .ap 0x41) r a).alert r).targets)
      (f := targetBytes slow) fun t hx => targetBytes_eq slow (htarget hx).1
    rw [hbytes] at hexec
    generalize activateAlert (openExchange s .ap 0x41) r a = u at hexec htarget hp
    rw [hl] at hp htarget
    obtain ⟨hon, hid, hclip, hloop, htimer, hrem, hcause, hothers, hsvcs⟩ := hp.newRecord
    refine ⟨u, slow, hexec, hready, hon, hid, hclip, hloop, htimer, hrem, hcause, hothers, hsvcs, fun t hx => ?_, fun hn => ?_⟩
    · obtain ⟨hn, ho, hdf, hh⟩ := (htarget hx).2
      simp only [ne_eq, isDeferred_iff] at ho hdf hh
      exact ⟨hn, ho, hdf, hh⟩
    · obtain ⟨hc, hframe, hsvc⟩ := hp.unarmed fun i hi => hn i ((hd i).1 hi)
      refine ⟨hc, ?_, fun j hj => hsvc j fun hm => hj ((hd j).1 hm)⟩
      have hlinks : u.links = l := by rw [hframe]
      refine hframe.trans ?_
      rw [hlinks]

end Sys2Proof.Machine
end

section
/-! How an alert record ends, and how a service that leaves a held set is passed on (R171, R181). -/

namespace Sys2Proof.Machine

variable {s t u : State} {i j k n q r : Nat} {e : Entry} {x : Target}

/-! ### The end of a record (R171) -/

/-- Only the alert records, the directory's counts and the event queues have changed. -/
def RecordFrame (s t : State) : Prop := t = { s with alerts := t.alerts, dir := t.dir, boxes := t.boxes }

namespace RecordFrame

theorem refl (s : State) : RecordFrame s s := rfl

theorem trans (h : RecordFrame s t) (k : RecordFrame t u) : RecordFrame s u := by
  unfold RecordFrame at *
  rw [k, h]

theorem services (h : RecordFrame s t) : t.services = s.services := by rw [h]
theorem entries (h : RecordFrame s t) : t.entries = s.entries := by rw [h]
theorem flash (h : RecordFrame s t) : t.flash = s.flash := by rw [h]
theorem schedule (h : RecordFrame s t) : t.schedule = s.schedule := by rw [State.schedule, h.entries]; rfl
theorem entry (h : RecordFrame s t) (n : Nat) : t.entry n = s.entry n := by rw [State.entry, h.entries]; rfl
theorem svc (h : RecordFrame s t) (i : Nat) : t.svc i = s.svc i := by rw [State.svc, h.services]; rfl
theorem sp (h : RecordFrame s t) (i : Nat) : t.sp i = s.sp i := congrArg Service.sp (h.svc i)
theorem laneOf (h : RecordFrame s t) (i : Nat) : t.laneOf i = s.laneOf i := by rw [State.laneOf, h.svc]; rfl
theorem lane (h : RecordFrame s t) (k : Nat) : t.lane k = s.lane k := by rw [h]; rfl

theorem modAlert (h : RecordFrame s t) (r : Nat) (f : AlertRec → AlertRec) : RecordFrame s (t.modAlert r f) := h.trans rfl
theorem leaveHeld (h : RecordFrame s t) (r i : Nat) (b : Bool) : RecordFrame s (leaveHeld t r i b) := h.modAlert _ _
theorem endRecord (h : RecordFrame s t) (r : Nat) (c : EndCause) : RecordFrame s (endRecord t r c) := h.trans rfl

end RecordFrame

theorem endRecord_alert (c : EndCause) (q : Nat) : (endRecord s r c).alert q = if q = r then AlertRec.idle else s.alert q :=
  State.alert_setAlert _ r _ q

theorem endRecord_box (c : EndCause) (p : PortId) : (endRecord s r c).box p = if p = .ap then
    pushBox (s.box .ap) (.alertEnd c r (s.alert r).id ((s.alert r).count (fun t => t.status == .held || t.status == .released))
      ((s.alert r).count (·.byEmergency))) else s.box p :=
  State.box_push s .ap p _

/-- The test leaves the record, or ends it. -/
theorem testRecord_cases (s : State) (r : Nat) : testRecord s r = s ∨ ∃ c, testRecord s r = endRecord s r c := by
  unfold testRecord
  dsimp only
  split
  · exact .inl rfl
  all_goals
    split
    · exact .inl rfl
    · exact .inr ⟨_, rfl⟩

theorem RecordFrame.testRecord (h : RecordFrame s t) (r : Nat) : RecordFrame s (testRecord t r) := by
  rcases testRecord_cases t r with hr | ⟨c, hr⟩ <;> rw [hr]
  · exact h
  · exact h.endRecord r c

theorem testRecord_alert_of_ne (h : q ≠ r) : (testRecord s r).alert q = s.alert q := by
  rcases testRecord_cases s r with hr | ⟨c, hr⟩ <;> rw [hr]
  rw [endRecord_alert, if_neg h]

theorem testRecord_alert_self (s : State) (r : Nat) : (testRecord s r).alert r = s.alert r ∨ (testRecord s r).alert r = AlertRec.idle := by
  rcases testRecord_cases s r with hr | ⟨c, hr⟩ <;> rw [hr]
  · exact .inl rfl
  · exact .inr (by rw [endRecord_alert, if_pos rfl])

theorem testRecord_queue_le (p : PortId) : ((testRecord s r).box p).queue.length ≤ (s.box p).queue.length + 1 := by
  rcases testRecord_cases s r with hr | ⟨c, hr⟩ <;> rw [hr]
  · omega
  · rw [endRecord_box]
    split
    · next hp => exact hp ▸ pushBox_length_le _ _
    · omega

theorem alert_modAlert (s : State) (r : Nat) (f : AlertRec → AlertRec) (q : Nat) :
    (s.modAlert r f).alert q = if q = r then f (s.alert r) else s.alert q := State.alert_setAlert s r _ q

/-- The record that a service leaves has each of its targets RELEASED (R181). -/
theorem leaveHeld_released (b : Bool) (hx : x ∈ ((leaveHeld s r i b).alert r).targets) (hi : x.svc = i) : x.status = .released := by
  unfold leaveHeld at hx
  rw [alert_modAlert, if_pos rfl] at hx
  rcases mem_modTarget (f := fun t => { t with status := .released, byEmergency := b }) (fun _ => rfl) hx with ⟨-, y, -, rfl⟩ | ⟨h, -⟩
  · rfl
  · exact absurd hi h

/-! ### Who claims a service (R181) -/

theorem deferredIn_some (h : deferredIn s i = some r) : r < 4 ∧ (s.alert r).st = .on ∧
    ∃ x ∈ (s.alert r).targets, x.svc = i ∧ x.status = .deferred := by
  have hp := List.find?_some h
  rw [Bool.and_eq_true, List.any_eq_true, beq_iff_eq] at hp
  obtain ⟨hon, x, hx, hd⟩ := hp
  obtain ⟨hi, hst⟩ := Bool.and_eq_true_iff.1 hd
  exact ⟨List.mem_range.1 (List.mem_of_find?_eq_some h), hon, x, hx, beq_iff_eq.1 hi, beq_iff_eq.1 hst⟩

theorem deferredIn_none_iff : deferredIn s i = none ↔ ∀ q, q < 4 → ¬((s.alert q).st = .on ∧
    ∃ x ∈ (s.alert q).targets, x.svc = i ∧ x.status = .deferred) := by
  unfold deferredIn
  rw [List.find?_eq_none]
  simp only [List.mem_range, Bool.and_eq_true, List.any_eq_true, beq_iff_eq]

/-- The state that passes a DAMAGED record's claim by (R181). -/
def State.gaveUp (s : State) (r i : Nat) : State := s.modAlert r (fun a => a.modTarget i (fun x => x.as .unavailable))

theorem passOn_none (h : deferredIn s i = none) : passOn s i = reeval s i .held := by simp only [passOn, h]

theorem passOn_damaged (h : deferredIn s i = some r) (hd : s.clipDamaged (s.alert r).clip = true) :
    passOn s i = testRecord (reeval (s.gaveUp r i) i .held) r := by
  simp only [passOn, h, hd, if_true]
  rfl

theorem passOn_taken (h : deferredIn s i = some r) (hd : s.clipDamaged (s.alert r).clip = false) :
    passOn s i = takeService s r i := by
  simp only [passOn, h, hd, Bool.false_eq_true, if_false]

theorem reeval_alert (s : State) (i : Nat) (c : WaitCause) (q : Nat) : (reeval s i c).alert q = s.alert q :=
  ((ScheduleFrame.refl s).reeval i c).alert q

/-- Passing on changes no record but the one that claims the service. -/
theorem passOn_alert (h : deferredIn s i ≠ some q) : (passOn s i).alert q = s.alert q := by
  cases hr : deferredIn s i with
  | none => rw [passOn_none hr, reeval_alert]
  | some r =>
    have hq : q ≠ r := by
      rintro rfl
      exact h hr
    cases hd : s.clipDamaged (s.alert r).clip with
    | true => rw [passOn_damaged hr hd, testRecord_alert_of_ne hq, reeval_alert, State.gaveUp, alert_modAlert, if_neg hq]
    | false => rw [passOn_taken hr hd, takeService_alert, if_neg hq]

/-- A service without entries is passed on without a change of the schedule or of another service. -/
theorem passOn_alone (h : ∀ e ∈ s.schedule, e.svc ≠ i) : (passOn s i).entries = s.entries
    ∧ ∀ j, j ≠ i → (passOn s i).svc j = s.svc j := by
  have hnone {w : State} (hw : w.schedule = s.schedule) : reeval w i .held = w :=
    reeval_none fun e he hi => absurd hi (h e (hw ▸ he))
  cases hr : deferredIn s i with
  | none =>
    rw [passOn_none hr, hnone rfl]
    exact ⟨rfl, fun _ _ => rfl⟩
  | some r =>
    cases hd : s.clipDamaged (s.alert r).clip with
    | true =>
      have hw := (RecordFrame.refl (s.gaveUp r i)).testRecord r
      rw [passOn_damaged hr hd, hnone (w := s.gaveUp r i) rfl]
      exact ⟨hw.entries, fun j _ => hw.svc j⟩
    | false =>
      have harm : armedEntry s i = none := List.find?_eq_none.2 fun e he => absurd ((mem_entriesOf s i e).1 he).2
        (h e ((mem_entriesOf s i e).1 he).1)
      obtain ⟨he, -, hsvc⟩ := takeService_unarmed (r := r) harm
      rw [passOn_taken hr hd]
      exact ⟨he, hsvc⟩

theorem passOn_alone_none (h : ∀ e ∈ s.schedule, e.svc ≠ i) (hd : deferredIn s i = none) : passOn s i = s := by
  rw [passOn_none hd]
  exact reeval_none fun e he hi => absurd hi (h e he)

end Sys2Proof.Machine
end

section
/-! Clear Service, plain and forced (R110 to R113). -/

namespace Sys2Proof.Machine

variable {s t u w : State} {i j k n q r : Nat} {e : Entry} {x : Target} {p : PortId}

/-! ### Entries of a service that splices nothing (R112) -/

/-- With nothing in the next role and nothing waiting, an end discards nothing. -/
theorem discardSeeking_nothing (hn : (s.sp i).nxt = none) (hw : (s.sp i).waiting = none) (o : Owner) (j : Nat) :
    (discardSeeking s i o).svc j = s.svc j := by
  have hsame (y : SpliceRec) (hy : y.waiting = none) :
      { y with waiting := if y.waiting.map (·.owner) = some o then none else y.waiting } = y := by
    cases y
    cases hy
    rfl
  unfold discardSeeking
  simp only [hn]
  rw [State.modSp, State.svc_modSvc]
  split
  · next h =>
    rw [h]
    exact congrArg (fun y => { s.svc i with sp := y }) (hsame _ hw)
  · rfl

theorem endEntry_svc_nothing (hn : (s.sp e.svc).nxt = none) (hw : (s.sp e.svc).waiting = none) (r : EntryResult) (j : Nat) :
    (endEntry s e r).svc j = s.svc j := by
  have hd : (endEntry s e r).svc j = (if e.st = .armed then discardSeeking s e.svc (.entry e.num) else s).svc j := by
    rw [endEntry, foldl_dropRef_frame]
    rfl
  rw [hd]
  split
  · exact discardSeeking_nothing hn hw _ j
  · rfl

theorem endAll_svc_nothing {es : List Entry} (hes : ∀ e ∈ es, e.svc = i) (hn : (s.sp i).nxt = none) (hw : (s.sp i).waiting = none)
    (r : EntryResult) (j : Nat) : (s.endAll r es).svc j = s.svc j := by
  induction es generalizing s with
  | nil => rfl
  | cons e es ih =>
    have hi : e.svc = i := hes e List.mem_cons_self
    have hsvc := fun j => endEntry_svc_nothing (s := s) (e := e) (by rw [hi]; exact hn) (by rw [hi]; exact hw) r j
    rw [endAll_cons, ih (fun x hx => hes x (List.mem_cons_of_mem _ hx)) (by rw [State.sp, hsvc]; exact hn)
      (by rw [State.sp, hsvc]; exact hw), hsvc]

theorem endAll_clip (r : EntryResult) (es : List Entry) (c : Nat) : (s.endAll r es).clip c =
    (s.clip c).map (fun x => { x with refs := x.refs - (es.map (·.pod.count c)).sum }) := by
  induction es generalizing s with
  | nil =>
    show s.clip c = _
    cases s.clip c <;> simp
  | cons e es ih =>
    rw [endAll_cons, ih, (endEntry_gone r rfl).clip]
    cases s.clip c <;> simp [Nat.sub_sub]

/-- The entries of a list end, each found at its number. -/
theorem foldl_cancel_eq {es : List Entry} (hnd : (es.map (·.num)).Nodup) (h : ∀ e ∈ es, s.entry e.num = some e) :
    (es.map (·.num)).foldl (fun s n => match s.entry n with
      | some e => endEntry s e .cancelled
      | none => s) s = s.endAll .cancelled es := by
  induction es generalizing s with
  | nil => rfl
  | cons e es ih =>
    obtain ⟨hmem, hnd⟩ := List.nodup_cons.1 hnd
    simp only [List.map_cons, List.foldl_cons, h e List.mem_cons_self]
    refine ih hnd fun x hx => ?_
    rw [endEntry_entry_any, if_neg, h x (List.mem_cons_of_mem _ hx)]
    exact fun hxe => hmem (List.mem_map.2 ⟨x, hx, hxe⟩)

theorem cancelAll_eq (hs : s.Numbered) (i : Nat) : cancelAll s i = s.endAll .cancelled (entriesOf s i) :=
  foldl_cancel_eq (entriesOf_nums_nodup hs.wf hs.num) fun _ he => (hs.mem_entriesOf.1 he).1

/-- What every end keeps, the ends of a service's entries keep. -/
theorem cancelAll_keeps {P : State → Prop} (h : ∀ t e, P t → P (endEntry t e .cancelled)) (hs : P s) (i : Nat) : P (cancelAll s i) := by
  unfold cancelAll
  generalize (entriesOf s i).map (·.num) = l
  induction l generalizing s with
  | nil => exact hs
  | cons n l ih =>
    refine ih ?_
    dsimp only
    split
    · exact h _ _ hs
    · exact hs

/-! ### The splice engine stops (R103) -/

/-- The splice record of a service that a forced clear has stopped. -/
def SpliceRec.halted (p : SpliceRec) : SpliceRec :=
  { SpliceRec.reset p.comps.length with comps := p.comps.map (fun c => { CompState.reset with mark := c.replaced || c.mark }) }

theorem discardRole_comps (s : State) (i : Nat) (r : Role) : ((discardRole s i r).sp i).comps = (s.sp i).comps := by
  rw [State.sp, discardRole_svc, if_pos rfl]
  cases r <;> rfl

theorem stopSplice_spec (s : State) (i : Nat) : SpliceOnly i s (stopSplice s i) ∧ (stopSplice s i).sp i = (s.sp i).halted := by
  refine ⟨((SpliceOnly.discardRole i s .current).trans (SpliceOnly.discardRole i _ .next)).trans (SpliceOnly.modSp i _ _), ?_⟩
  have hcomps : ((discardRole (discardRole s i .current) i .next).sp i).comps = (s.sp i).comps := by
    rw [discardRole_comps, discardRole_comps]
  unfold stopSplice SpliceRec.halted
  rw [State.sp_modSp, if_pos rfl, hcomps]

/-! ### The service leaves its record, and its entries end (R112) -/

/-- The state once the service has left its record's held set, and the record has been tested. -/
def State.left (s : State) (i : Nat) : State :=
  match holdingAlert s i with
  | some r => testRecord (leaveHeld (stopSplice s i) r i false) r
  | none => stopSplice s i

/-- The state once the entries have ended, and the arbiter has run on the pool that they held. -/
def State.emptied (s : State) (i : Nat) : State :=
  if heldPool s i then poolFreed (cancelAll (s.left i) i) ((s.laneOf i).getD 0) else cancelAll (s.left i) i

theorem forcedClear_eq (s : State) (i : Nat) : forcedClear s i =
    if (holdingAlert s i).isSome then passOn (forcedReset (s.emptied i) i) i else forcedReset (s.emptied i) i := rfl

theorem left_frame (s : State) (i : Nat) : RecordFrame (stopSplice s i) (s.left i) := by
  unfold State.left
  split
  · exact ((RecordFrame.refl _).leaveHeld _ _ _).testRecord _
  · exact RecordFrame.refl _

theorem left_kept (s : State) (i : Nat) : Kept (stopSplice s i) (s.left i) := by
  unfold State.left
  split
  · exact Kept.testRecord (Kept.leaveHeld (Kept.refl _) _ _ _) _
  · exact Kept.refl _

theorem left_svc (j : Nat) : (s.left i).svc j = if j = i then { s.svc i with sp := (s.sp i).halted } else s.svc j := by
  obtain ⟨hstop, hsp⟩ := stopSplice_spec s i
  rw [(left_frame s i).svc]
  split
  · next h => rw [h, hstop.own, hsp]
  · next h => exact hstop.others j h

theorem left_entries : (s.left i).entries = s.entries := by
  rw [(left_frame s i).entries, (stopSplice_spec s i).1.frame]

theorem left_lane (k : Nat) : (s.left i).lane k = s.lane k := by rw [(left_frame s i).lane, (stopSplice_spec s i).1.lane]

/-- No record claims the service that did not claim it before, and the one that held it has given it up. -/
theorem left_alert (q : Nat) : (holdingAlert s i ≠ some q → (s.left i).alert q = s.alert q)
    ∧ (holdingAlert s i = some q → ((s.left i).alert q).st = .idle
      ∨ ∀ x ∈ ((s.left i).alert q).targets, x.svc = i → x.status = .released) := by
  have hstop : (stopSplice s i).alert q = s.alert q := by rw [(stopSplice_spec s i).1.frame]; rfl
  unfold State.left
  cases hr : holdingAlert s i with
  | none => exact ⟨fun _ => hstop, nofun⟩
  | some r =>
    refine ⟨fun hne => ?_, fun hq => ?_⟩
    · have hne : q ≠ r := fun h => hne (by rw [h])
      refine (testRecord_alert_of_ne hne).trans ((alert_modAlert _ r _ q).trans ?_)
      rw [if_neg hne, hstop]
    · cases hq
      rcases testRecord_alert_self (leaveHeld (stopSplice s i) q i false) q with h | h
      · dsimp only
        rw [h]
        exact .inr fun x hx hi => leaveHeld_released false hx hi
      · dsimp only
        rw [h]
        exact .inl rfl

theorem left_queue (p : PortId) : ((s.left i).box p).queue.length ≤ (s.box p).queue.length + 1 := by
  have hstop : (stopSplice s i).box p = s.box p := by rw [(stopSplice_spec s i).1.frame]; rfl
  unfold State.left
  split
  · refine (testRecord_queue_le p).trans ?_
    show ((stopSplice s i).box p).queue.length + 1 ≤ _
    rw [hstop]
  · rw [hstop]
    omega

/-- With none of its record's claims the service's own are gone. -/
theorem left_deferredIn (h : ∀ q, q < 4 → holdingAlert s i ≠ some q → ¬((s.alert q).st = .on ∧
    ∃ x ∈ (s.alert q).targets, x.svc = i ∧ x.status = .deferred)) : deferredIn (s.left i) i = none := by
  refine deferredIn_none_iff.2 fun q hq => ?_
  obtain ⟨hother, hown⟩ := left_alert (s := s) (i := i) q
  by_cases hr : holdingAlert s i = some q
  · rintro ⟨hon, x, hx, hi, hst⟩
    rcases hown hr with h | h
    · exact absurd (h.symm.trans hon) (by decide)
    · exact absurd ((h x hx hi).symm.trans hst) (by decide)
  · rw [hother hr]
    exact h q hq hr

theorem emptied_frame (s : State) (i : Nat) : ScheduleFrame (s.left i) (s.emptied i) := by
  have hc : ScheduleFrame (s.left i) (cancelAll (s.left i) i) :=
    cancelAll_keeps (fun _ e h => h.endEntry e _) (ScheduleFrame.refl _) i
  unfold State.emptied
  split
  · exact hc.poolFreed _
  · exact hc

theorem emptied_kept (s : State) (i : Nat) : Kept (s.left i) (s.emptied i) := by
  have hc : Kept (s.left i) (cancelAll (s.left i) i) :=
    cancelAll_keeps (fun _ e h => h.endEntry e _) (Kept.refl _) i
  unfold State.emptied
  split
  · exact hc.poolFreed _
  · exact hc

/-! ### The reset (R113), and the service passed on (R181) -/

theorem forcedReset_eq {d : ServiceDef} (hd : (s.svc i).defn = some d) : forcedReset s i =
    (s.setLane d.lane ((s.lane d.lane).restorePids (d.comps.map (·.pid)))).modSvc i (fun v =>
      { v with clk := ClockRec.reset, cues := [], cond := CondRec.reset }) := by
  unfold forcedReset
  rw [hd]

theorem forcedReset_frame (s : State) (i : Nat) : forcedReset s i =
    { s with lanes := (forcedReset s i).lanes, services := (forcedReset s i).services } := by
  unfold forcedReset
  split <;> rfl

theorem forcedReset_alert (q : Nat) : (forcedReset s i).alert q = s.alert q := by rw [forcedReset_frame]; rfl
theorem forcedReset_entries : (forcedReset s i).entries = s.entries := by rw [forcedReset_frame]
theorem forcedReset_svc_of_ne (h : j ≠ i) : (forcedReset s i).svc j = s.svc j := by
  unfold forcedReset
  split
  · rfl
  · rw [State.svc_modSvc, if_neg h]
    rfl

theorem forcedClear_kept (s : State) (i : Nat) : Kept (forcedReset (s.emptied i) i) (forcedClear s i) := by
  rw [forcedClear_eq]
  split
  · exact Kept.passOn (Kept.refl _) _
  · exact Kept.refl _

theorem forcedReset_emptied_alert (s : State) (i q : Nat) : (forcedReset (s.emptied i) i).alert q = (s.left i).alert q := by
  rw [forcedReset_alert, (emptied_frame s i).alert]

theorem deferredIn_congr (h : ∀ q, t.alert q = s.alert q) : deferredIn t i = deferredIn s i := by simp only [deferredIn, h]

/-- What the record that held the service keeps of it. -/
theorem forcedClear_releases (hr : holdingAlert s i = some r) : ((forcedClear s i).alert r).st = .idle
    ∨ ∀ x ∈ ((forcedClear s i).alert r).targets, x.svc = i → x.status = .released := by
  have hleft := (left_alert (s := s) (i := i) r).2 hr
  have hclaim : deferredIn (forcedReset (s.emptied i) i) i ≠ some r := by
    rw [deferredIn_congr (forcedReset_emptied_alert s i)]
    intro h
    obtain ⟨-, hon, x, hx, hi, hst⟩ := deferredIn_some h
    rcases hleft with h | h
    · exact absurd (h.symm.trans hon) (by decide)
    · exact absurd ((h x hx hi).symm.trans hst) (by decide)
  have hpass : (forcedClear s i).alert r = (s.left i).alert r := by
    rw [forcedClear_eq, hr, ← forcedReset_emptied_alert s i r]
    exact passOn_alert hclaim
  rw [hpass]
  exact hleft

/-! ### The schedule and the other services (R112) -/

/-- No entry of the service waits for pool, and the service is as `v` says. -/
structure State.Unpooled (s : State) (i : Nat) (v : Service) : Prop where
  idle : ∀ m x, s.entry m = some x → x.svc = i → x.st ≠ .waiting .pool
  svc : s.svc i = v

/-- An entry of another service stood as it stands after a run. -/
theorem armRun_entry_elsewhere (he : t.entry n = some e) {m : Nat} {x : Entry}
    (hx : (armRun t n).1.entry m = some x) (hi : x.svc ≠ e.svc) : t.entry m = some x := by
  rcases armRun_cases he with ⟨a, r, hu⟩ | ⟨a, c, hu⟩ | ⟨a, sp, b, -, -, hu⟩
  · rw [hu, endEntry_entry_any] at hx
    split at hx
    · cases hx
    · exact hx
  · rw [hu, State.entry_setEntry] at hx
    split at hx
    · cases hx
      exact absurd rfl hi
    · exact hx
  · rw [hu, raiseIf_arming_entry] at hx
    split at hx
    · cases hx
      exact absurd rfl hi
    · obtain ⟨d, E, -, -, -, hlower, hother⟩ := yielded_spec t e.svc
      refine (hother m fun l hl hm => hi ?_).symm.trans hx
      rw [hm, hlower l hl] at hx
      cases hx
      show l.svc = e.svc
      exact armedEntry_svc hl

/-- The arbiter leaves such a service as it is. -/
theorem Unpooled.runsKeep (i : Nat) (v : Service) : RunsKeep (· = .waiting .pool) (fun t => t.Numbered ∧ t.Unpooled i v) := by
  rintro t n e ⟨hs, hidle, hsvc⟩ he hst
  have hi : e.svc ≠ i := fun hi => hidle n e he hi hst
  refine ⟨((NoneJoins.refl hs).armRun n).numbered, fun m x hx hxi => ?_, (armRun_svc_eq he (by rw [hst]; nofun) i (.inl hi)).trans hsvc⟩
  exact hidle m x (armRun_entry_elsewhere he hx fun h => hi (h.symm.trans hxi)) hxi

theorem left_entriesOf : entriesOf (s.left i) i = entriesOf s i := by
  rw [entriesOf, State.schedule, left_entries]
  rfl

section
variable (hs : s.Numbered)
include hs

theorem left_numbered : (s.left i).Numbered := hs.of_entries left_entries

/-- The ends of the service's entries. -/
theorem left_cancelled : cancelAll (s.left i) i = (s.left i).endAll .cancelled (entriesOf s i) := by
  rw [cancelAll_eq (left_numbered hs), left_entriesOf]

theorem cancelled_svc (j : Nat) : (cancelAll (s.left i) i).svc j = (s.left i).svc j := by
  have hown : (s.left i).sp i = (s.sp i).halted := by rw [State.sp, left_svc, if_pos rfl]
  rw [left_cancelled hs]
  exact endAll_svc_nothing (fun e he => (hs.mem_entriesOf.1 he).2) (by rw [hown]; rfl) (by rw [hown]; rfl) _ j

theorem cancelled_entry (m : Nat) : (cancelAll (s.left i) i).entry m =
    if m ∈ (entriesOf s i).map (·.num) then none else s.entry m := by
  rw [left_cancelled hs, endAll_entry, State.entry, left_entries]
  rfl

theorem cancelled_joins : NoneJoins s (cancelAll (s.left i) i) := by
  rw [left_cancelled hs]
  exact ((NoneJoins.refl hs).of_entries left_entries).endAll _ _

/-- An entry of another service is as it was, and one of the service is gone. -/
theorem cancelled_entry_some {m : Nat} {y : Entry} (hy : (cancelAll (s.left i) i).entry m = some y) :
    s.entry m = some y ∧ y.svc ≠ i := by
  rw [cancelled_entry hs] at hy
  split at hy
  · cases hy
  · next hm =>
    refine ⟨hy, fun hi => hm (List.mem_map.2 ⟨y, hs.mem_entriesOf.2 ⟨?_, hi⟩, hs.num m y hy⟩)⟩
    rw [hs.num m y hy]
    exact hy

theorem emptied_joins : NoneJoins s (s.emptied i) := by
  unfold State.emptied
  split
  · exact (cancelled_joins hs).poolFreed _
  · exact cancelled_joins hs

/-- The service has no entry left, and splices nothing. -/
theorem emptied_quiet : (s.emptied i).Quiet i { s.svc i with sp := (s.sp i).halted } := by
  have hq : (cancelAll (s.left i) i).Quiet i { s.svc i with sp := (s.sp i).halted } := by
    refine ⟨by rw [cancelled_svc hs, left_svc, if_pos rfl], fun e he => ?_⟩
    exact (cancelled_entry_some hs ((cancelled_joins hs).numbered.entry_of_mem he)).2
  unfold State.emptied
  split
  · exact hq.poolFreed _
  · exact hq

theorem emptied_svc_of_unpooled (hj : j ≠ i) (h : ∀ e ∈ s.schedule, e.svc = j → e.st ≠ .waiting .pool) :
    (s.emptied i).svc j = s.svc j := by
  have hu : (cancelAll (s.left i) i).Unpooled j (s.svc j) := by
    refine ⟨fun m y hy hyj => ?_, by rw [cancelled_svc hs, left_svc, if_neg hj]⟩
    exact h y (mem_schedule_of_entry (cancelled_entry_some hs hy).1) hyj
  unfold State.emptied
  split
  · exact ((Unpooled.runsKeep j _).poolFreed rfl _ ⟨(cancelled_joins hs).numbered, hu⟩).2.svc
  · exact hu.svc

/-- With no entry waiting for pool the arbiter does nothing. -/
theorem emptied_of_none (h : ∀ e ∈ s.schedule, e.st ≠ .waiting .pool) : s.emptied i = cancelAll (s.left i) i := by
  unfold State.emptied
  split
  · exact poolFreed_none fun e he _ => h e
      (mem_schedule_of_entry (cancelled_entry_some hs ((cancelled_joins hs).numbered.entry_of_mem he)).1)
  · rfl

theorem emptied_gone (he : s.entry n = some e) (hi : e.svc = i) : (s.emptied i).entry n = none := by
  have hc : (cancelAll (s.left i) i).entry n = none := by
    rw [cancelled_entry hs, if_pos]
    exact List.mem_map.2 ⟨e, hs.mem_entriesOf.2 ⟨by rw [hs.num n e he]; exact he, hi⟩, hs.num n e he⟩
  unfold State.emptied
  split
  · exact ((NoneJoins.refl (cancelled_joins hs).numbered).poolFreed _).absent n hc
  · exact hc

theorem cancelled_event (he : s.entry n = some e) (hi : e.svc = i) (hroom : (s.box e.origin).queue.length + s.schedule.length + 1 ≤ 32) :
    e.endEvent .cancelled ∈ ((cancelAll (s.left i) i).box e.origin).queue := by
  have hmem : e ∈ entriesOf s i := hs.mem_entriesOf.2 ⟨by rw [hs.num n e he]; exact he, hi⟩
  rw [left_cancelled hs]
  refine endAll_event .cancelled hmem ?_
  have hq := left_queue (s := s) (i := i) e.origin
  have hlen : (entriesOf s i).length ≤ s.schedule.length := List.length_filter_le _ _
  omega

theorem emptied_event (he : s.entry n = some e) (hi : e.svc = i) (hroom : (s.box e.origin).queue.length + s.schedule.length + 1 ≤ 32) :
    e.endEvent .cancelled ∈ ((s.emptied i).box e.origin).queue := by
  have hev := cancelled_event hs he hi hroom
  unfold State.emptied
  split
  · exact ((Kept.poolFreed (Kept.refl _) _).grows _).subset hev
  · exact hev

/-! ### The forced clear as a whole -/

/-- The service after the reset. -/
def Service.cleared (v : Service) : Service :=
  { v with sp := v.sp.halted, clk := ClockRec.reset, cues := [], cond := CondRec.reset }

theorem resetEmptied_quiet {d : ServiceDef} (hd : (s.svc i).defn = some d) :
    (forcedReset (s.emptied i) i).Quiet i (s.svc i).cleared := by
  have hq := emptied_quiet (i := i) hs
  refine ⟨?_, fun e he => hq.entries e ?_⟩
  · rw [forcedReset_eq (d := d) (by rw [hq.svc]; exact hd), State.svc_modSvc, if_pos rfl]
    exact congrArg (fun v : Service => { v with clk := ClockRec.reset, cues := [], cond := CondRec.reset }) hq.svc
  · rw [State.schedule, forcedReset_entries] at he
    exact he

/-- Passing the service on changes no entry and no other service. -/
theorem forcedClear_others {d : ServiceDef} (hd : (s.svc i).defn = some d) : (forcedClear s i).entries = (s.emptied i).entries
    ∧ ∀ j, j ≠ i → (forcedClear s i).svc j = (s.emptied i).svc j := by
  rw [forcedClear_eq]
  split
  · obtain ⟨he, hsvc⟩ := passOn_alone (resetEmptied_quiet hs hd).entries
    exact ⟨he.trans forcedReset_entries, fun j hj => (hsvc j hj).trans (forcedReset_svc_of_ne hj)⟩
  · exact ⟨forcedReset_entries, fun j hj => forcedReset_svc_of_ne hj⟩

theorem forcedClear_entry {d : ServiceDef} (hd : (s.svc i).defn = some d) (m : Nat) :
    (forcedClear s i).entry m = (s.emptied i).entry m := by rw [State.entry, (forcedClear_others hs hd).1]; rfl

/-- With no claim the service stays as it has been reset (R182). -/
theorem forcedClear_svc {d : ServiceDef} (hd : (s.svc i).defn = some d) (h : ∀ q, q < 4 → holdingAlert s i ≠ some q →
    ¬((s.alert q).st = .on ∧ ∃ x ∈ (s.alert q).targets, x.svc = i ∧ x.status = .deferred)) :
    (forcedClear s i).svc i = (s.svc i).cleared := by
  have hq := resetEmptied_quiet hs hd
  rw [forcedClear_eq]
  split
  · rw [passOn_alone_none hq.entries (by rw [deferredIn_congr (forcedReset_emptied_alert s i), left_deferredIn h]), hq.svc]
  · exact hq.svc

theorem forcedClear_ended {d : ServiceDef} (hd : (s.svc i).defn = some d) (he : s.entry n = some e) (hi : e.svc = i) :
    (forcedClear s i).entry n = none ∧ ((s.box e.origin).queue.length + s.schedule.length + 1 ≤ 32 →
      e.endEvent .cancelled ∈ ((forcedClear s i).box e.origin).queue) := by
  refine ⟨?_, fun hroom => ?_⟩
  · rw [forcedClear_entry hs hd]
    exact emptied_gone hs he hi
  · refine ((forcedClear_kept s i).grows _).subset ?_
    rw [forcedReset_frame]
    exact emptied_event hs he hi hroom

/-- With no entry waiting for pool, the entries of the other services stay. -/
theorem forcedClear_entry_other {d : ServiceDef} (hd : (s.svc i).defn = some d) (h : ∀ e ∈ s.schedule, e.st ≠ .waiting .pool)
    (he : s.entry n = some e) (hi : e.svc ≠ i) : (forcedClear s i).entry n = some e := by
  rw [forcedClear_entry hs hd, emptied_of_none hs h, cancelled_entry hs, if_neg, he]
  intro hm
  obtain ⟨y, hy, rfl⟩ := List.mem_map.1 hm
  obtain ⟨hy, hyi⟩ := hs.mem_entriesOf.1 hy
  cases hy.symm.trans he
  exact hi hyi

/-- The references that the ended entries held (R112). -/
theorem forcedClear_clip (h : ∀ e ∈ s.schedule, e.st ≠ .waiting .pool) (hn : holdingAlert s i = none) (c : Nat) :
    (forcedClear s i).clip c = (s.clip c).map (fun x => { x with refs := x.refs - ((entriesOf s i).map (·.pod.count c)).sum }) := by
  have hleft : (s.left i).clip c = s.clip c := by
    have hl : s.left i = stopSplice s i := by simp only [State.left, hn]
    rw [hl, (stopSplice_spec s i).1.frame]
    rfl
  have hclear : forcedClear s i = forcedReset (s.emptied i) i := by rw [forcedClear_eq, hn]; rfl
  rw [hclear, State.clip, forcedReset_frame, ← hleft, ← endAll_clip .cancelled, ← left_cancelled hs, emptied_of_none hs h]
  rfl

end

/-! ### The command (R110) -/

theorem exec_clearService (h : s.takes p) (f : Nat) :
    exec (.clearService p i f 0) s = .next ((runClearService p i f 0 (openExchange s p 0x15)).done p) :=
  congrArg Host.Outcome.next (command_taken s p 0x15 (runClearService p i f 0) h (admitted_of_report p (by omega)))

/-- The checks of R110, passed. -/
theorem runClearService_plain {d : ServiceDef} (hi : i ≤ 47) (hd : (s.svc i).defn = some d) : runClearService p i 0 0 s =
    if engaged s i then err s .inuse
    else ok (plainClear s i) ([byte1 (holderOf s i).1, byte1 (holderOf s i).2.1] ++ leBytes 2 0) := by
  unfold runClearService
  rw [if_neg (by simp), if_neg (by omega), if_neg (by simp [hd])]
  rfl

theorem runClearService_forced {d : ServiceDef} (hi : i ≤ 47) (hd : (s.svc i).defn = some d) : runClearService .ap i 1 0 s =
    ok (rest (forcedClear s i)) ([byte1 (holderOf s i).1, byte1 (holderOf s i).2.1] ++ leBytes 2 (entriesOf s i).length) := by
  unfold runClearService
  rw [if_neg (by simp), if_neg (by omega), if_neg (by simp [hd])]
  rfl

theorem engaged_eq_false (h : engaged s i = false) : activeEntry s i = none ∧ holdingAlert s i = none := by
  have hnone : (armedEntry s i = none ∧ activeEntry s i = none) ∧ holdingAlert s i = none := by simpa [engaged] using h
  obtain ⟨⟨-, hact⟩, hheld⟩ := hnone
  exact ⟨hact, hheld⟩

/-- What a forced clear leaves of the service, whoever takes it after (R113). -/
theorem forcedClear_reset {d : ServiceDef} (hd : (s.svc i).defn = some d) : let t := rest (forcedClear s i)
    (t.svc i).defn = some d ∧ (t.svc i).clk = ClockRec.reset ∧ (t.svc i).cues = [] ∧ (t.svc i).cond.masks = 0b1110111111#10
    ∧ ∀ q ∈ d.comps.map (·.pid), (t.lane d.lane).pid q = { PidEntry.entry with lastCC := ((s.lane d.lane).pid q).lastCC } := by
  have hk : Kept (s.left i) (s.emptied i) := emptied_kept s i
  have hde : ((s.emptied i).svc i).defn = some d := by
    rw [hk.defn, left_svc, if_pos rfl]
    exact hd
  have ht : Kept (forcedReset (s.emptied i) i) (rest (forcedClear s i)) := Kept.rest (forcedClear_kept s i)
  have hsvc : (forcedReset (s.emptied i) i).svc i =
      { (s.emptied i).svc i with clk := ClockRec.reset, cues := [], cond := CondRec.reset } := by
    rw [forcedReset_eq hde, State.svc_modSvc, if_pos rfl]
    rfl
  intro t
  refine ⟨?_, ?_, ?_, ?_, fun q hq => ?_⟩
  · rw [ht.defn, hsvc]
    exact hde
  · rw [ht.clk, hsvc]
  · rw [ht.cues, hsvc]
  · rw [ht.masks, hsvc]
    rfl
  · have hlane : (forcedReset (s.emptied i) i).lane d.lane = ((s.lane d.lane).restorePids (d.comps.map (·.pid))) := by
      rw [forcedReset_eq hde, ← left_lane (s := s) (i := i), ← hk.lane]
      exact State.lane_setLane_self _ _ _
    rw [ht.lane, hlane, Lane.restorePids_pid, if_pos hq]
    rfl

/-- The exchange that the port holds open is held open still. -/
theorem forcedClear_codes (s : State) (i : Nat) (p : PortId) :
    ((rest (forcedClear s i)).link p).out.map (·.code) = (s.link p).out.map (·.code) := by
  have hstop : (stopSplice s i).link p = s.link p := by rw [(stopSplice_spec s i).1.frame]; rfl
  have hreset : (forcedReset (s.emptied i) i).link p = (s.emptied i).link p := by rw [forcedReset_frame]; rfl
  have ht : Kept (forcedReset (s.emptied i) i) (rest (forcedClear s i)) := Kept.rest (forcedClear_kept s i)
  rw [ht.codes, hreset, (emptied_kept s i).codes, (left_kept s i).codes, hstop]

/-- The two bytes of the holder in the reply (R204; log 10). -/
theorem holderOf_bytes (s : State) (i : Nat) : [byte1 (holderOf s i).1, byte1 (holderOf s i).2.1] =
    match activeEntry s i, holdingAlert s i with
    | some e, _ => [1, byte1 e.num]
    | none, some r => [2, byte1 r]
    | none, none => [0, 0] := by
  unfold holderOf
  cases activeEntry s i with
  | some e => rfl
  | none =>
    cases holdingAlert s i with
    | none => rfl
    | some r =>
      dsimp only
      cases (s.alert r).target i <;> rfl

/-- Settles O48: a plain clear on the opened exchange, and a forced one by what it stops, ends, resets and passes on. -/
theorem clearServicePlainAndForced : Obligations.ClearServicePlainAndForced := by
  intro s p i d ht hi hd holder
  refine ⟨fun hfree => ?_, fun hbusy => ?_, fun hp => ?_, fun hp => ?_⟩
  · obtain ⟨hact, hheld⟩ := engaged_eq_false hfree
    obtain ⟨l, hl⟩ : ∃ l, openExchange s p 0x15 = { s with links := l } := ⟨_, openExchange_frame s p 0x15⟩
    refine exec_answers (v := plainClear (openExchange s p 0x15) i) (run := runClearService p i 0 0) rfl ht
      (admitted_of_report p (by omega)) ?_ ?_ ?_
    · rw [runClearService_plain (d := d) hi (by rw [openExchange_svc]; exact hd), hl, holderOf_bytes]
      refine (if_neg (by exact Bool.eq_false_iff.1 hfree)).trans ?_
      have hb : (match activeEntry { s with links := l } i, holdingAlert { s with links := l } i with
          | some e, _ => [1, byte1 e.num]
          | none, some r => [2, byte1 r]
          | none, none => [0, 0]) = [(0 : Byte), 0] := by
        rw [show activeEntry { s with links := l } i = none from hact, show holdingAlert { s with links := l } i = none from hheld]
      rw [hb]
      rfl
    · rw [openExchange_eq, openExchange_eq]
      rfl
    · rw [hl]
      rfl
  · refine exec_only_answers (run := runClearService p i 0 0) rfl ht (admitted_of_report p (by omega)) ?_
    obtain ⟨l, hl⟩ : ∃ l, openExchange s p 0x15 = { s with links := l } := ⟨_, openExchange_frame s p 0x15⟩
    rw [runClearService_plain (d := d) hi (by rw [openExchange_svc]; exact hd), hl]
    exact if_pos hbusy
  · refine exec_only_answers (run := runClearService p i 1 0) rfl ht (admitted_of_report p (by omega)) ?_
    exact if_pos ⟨rfl, hp⟩
  · subst hp
    have hrun := exec_clearService (i := i) ht 1
    rw [runClearService_forced (d := d) hi (by rw [openExchange_svc]; exact hd)] at hrun
    have hopen : ((openExchange s .ap 0x15).link .ap).out.map (·.code) = some 0x15#8 := by rw [openExchange_link, if_pos rfl]; rfl
    obtain ⟨l, hl⟩ : ∃ l, openExchange s .ap 0x15 = { s with links := l } := ⟨_, openExchange_frame s .ap 0x15⟩
    generalize hv : openExchange s .ap 0x15 = v at hrun hl hopen
    have hd' : (v.svc i).defn = some d := by rw [hl]; exact hd
    obtain ⟨hdefn, hclk, hcues, hmasks, hpids⟩ := forcedClear_reset hd'
    refine ⟨_, forcedClear v i, hrun, ?_, by exact hdefn, by exact hclk, by exact hcues, by exact hmasks, fun q hq => ?_, ?_,
      fun r hr => forcedClear_releases (s := v) (by rw [hl]; exact hr), fun hwf hnum => ?_⟩
    · refine congrArg (answer (rest (forcedClear v i)) .ap .ok) ?_
      rw [holderOf_bytes, hl]
      rfl
    · exact (hpids q hq).trans (by rw [hl]; rfl)
    · exact ⟨_, answer_replied _ _ _ _ _ ((forcedClear_codes v i .ap).trans hopen)⟩
    · have hs : v.Numbered := by rw [hl]; exact ⟨hwf, hnum⟩
      refine ⟨fun hno => ?_, fun q hq hpool => ?_, fun n e he hei => ?_, fun hpool => ⟨fun n e he hei => ?_, fun hheld c => ?_⟩⟩
      · have hsvc := forcedClear_svc hs hd' (by rw [hl]; exact hno)
        rw [State.sp, hsvc, hl]
        exact ⟨rfl, rfl⟩
      · have hsvc := emptied_svc_of_unpooled (i := i) hs hq (by rw [hl]; exact hpool)
        rw [State.sp, (forcedClear_others hs hd').2 q hq, hsvc, hl]
        rfl
      · have hend := forcedClear_ended hs hd' (n := n) (e := e) (by rw [hl]; exact he) hei
        refine ⟨hend.1, fun hroom => ?_⟩
        have hn : e.num = n := hnum n e he
        subst hn hei
        exact hend.2 (by rw [hl]; exact hroom)
      · exact forcedClear_entry_other hs hd' (by rw [hl]; exact hpool) (by rw [hl]; exact he) hei
      · rw [forcedClear_clip hs (by rw [hl]; exact hpool) (by rw [hl]; exact hheld), hl]
        rfl

end Sys2Proof.Machine
end

section
/-! What a service that is passed on leaves unchanged (R181): the schedule's ACTIVE entries, the services that are held, and the requests
of a record that does not take it. -/

namespace Sys2Proof.Machine

variable {s t u : State} {i j k n q r : Nat} {e : Entry} {x : Target} {P : State → Prop}

/-! ### The acts of a passing on -/

/-- What the runs, a demotion, the request of the record that takes the service, and a change of records keep, passing on keeps. -/
theorem passOn_keeps (hrun : RunsKeep EntryState.idle P) (hdemote : ∀ t l, P t → armedEntry t i = some l → P (demote t l))
    (hask : ∀ t r q, deferredIn s i = some r → P t → q.owner = .alert r → P (requestNext t i q))
    (hrec : ∀ t u, RecordFrame t u → P t → P u) (hs : P s) : P (passOn s i) := by
  have hreeval {w : State} (hw : P w) : P (reeval w i .held) :=
    hrun.reeval (EntryState.idle_waiting _) (EntryState.idle_waiting _) i hw
  cases hr : deferredIn s i with
  | none =>
    rw [passOn_none hr]
    exact hreeval hs
  | some r =>
    cases hd : s.clipDamaged (s.alert r).clip with
    | true =>
      rw [passOn_damaged hr hd]
      exact hrec _ _ ((RecordFrame.refl _).testRecord r) (hreeval (hrec _ _ ((RecordFrame.refl s).modAlert r _) hs))
    | false =>
      rw [passOn_taken hr hd, takeService_eq]
      have hheld : P (holdTarget s r i) := hrec _ _ ((RecordFrame.refl s).modAlert r _) hs
      refine hask _ r _ hr ?_ rfl
      unfold State.cleared
      split
      · next l hl => exact hrun.poolFreed (EntryState.idle_waiting _) _ (hdemote _ l hheld hl)
      · exact hheld

/-! ### What it changes at all -/

/-- Only the alert records, the directory's counts, the schedule, the services, the reads in the flash unit and the event queues have
changed. -/
def AlertFrame (s t : State) : Prop := t = { s with
  alerts := t.alerts, dir := t.dir, entries := t.entries, services := t.services, flash := t.flash, boxes := t.boxes }

namespace AlertFrame

theorem refl (s : State) : AlertFrame s s := rfl

theorem trans (h : AlertFrame s t) (k : AlertFrame t u) : AlertFrame s u := by
  unfold AlertFrame at *
  rw [k, h]

theorem of_schedule (h : ScheduleFrame s t) : AlertFrame s t := by
  unfold AlertFrame
  rw [h]

theorem of_record (h : RecordFrame s t) : AlertFrame s t := by
  unfold AlertFrame
  rw [h]

theorem of_splice (h : SpliceOnly i s t) : AlertFrame s t := by
  unfold AlertFrame
  rw [h.frame]

end AlertFrame

theorem passOn_frame (s : State) (i : Nat) : AlertFrame s (passOn s i) :=
  passOn_keeps (P := AlertFrame s) (fun t n _ h _ _ => h.trans (.of_schedule ((ScheduleFrame.refl t).armRun n)))
    (fun t l h _ => h.trans (.of_schedule ((ScheduleFrame.refl t).demote l)))
    (fun t _ q _ h _ => h.trans (.of_schedule ((ScheduleFrame.refl t).requestNext i q)))
    (fun _ _ hu h => h.trans (.of_record hu)) (AlertFrame.refl s)

theorem passOn_joins (h : s.Numbered) : NoneJoins s (passOn s i) :=
  passOn_keeps (P := NoneJoins s) (fun _ n _ h _ _ => h.armRun n) (fun _ _ h hl => h.demote (h.numbered.entry_of_find hl))
    (fun _ _ _ _ h _ => h.of_entries (by rw [(AskOnly.requestNext i _ _).frame])) (fun _ _ hu h => h.of_entries hu.entries) (NoneJoins.refl h)

/-! ### ACTIVE entries -/

/-- Entry `n` is ACTIVE, as `e`. -/
structure State.ActiveAs (s : State) (n : Nat) (e : Entry) : Prop where
  numbered : s.Numbered
  entry : s.entry n = some e
  active : e.st = .active

namespace State.ActiveAs

theorem of_entries (h : s.ActiveAs n e) (he : t.entries = s.entries) : t.ActiveAs n e :=
  ⟨h.numbered.of_entries he, by rw [State.entry, he]; exact h.entry, h.active⟩

theorem runsKeep (n : Nat) (e : Entry) : RunsKeep EntryState.idle (fun t => t.ActiveAs n e) := fun t m x h hx hst => by
  have hne : n ≠ m := by
    rintro rfl
    cases hx.symm.trans h.entry
    exact hst.2 h.active
  exact ⟨((NoneJoins.refl h.numbered).armRun m).numbered, armRun_entry_other h.numbered hne h.entry (by rw [h.active]; nofun), h.active⟩

theorem demote (h : s.ActiveAs n e) {l : Entry} (hl : armedEntry s j = some l) : (Machine.demote s l).ActiveAs n e := by
  have hle := h.numbered.entry_of_find hl
  refine ⟨((NoneJoins.refl h.numbered).demote hle).numbered, ?_, h.active⟩
  rw [demote_entry, if_neg, h.entry]
  rintro rfl
  cases hle.symm.trans h.entry
  exact absurd (armedEntry_st hl) (by rw [h.active]; nofun)

theorem passOn (h : s.ActiveAs n e) (i : Nat) : (passOn s i).ActiveAs n e :=
  passOn_keeps (P := fun t => t.ActiveAs n e) (runsKeep n e) (fun _ _ h hl => h.demote hl)
    (fun _ _ _ _ h _ => h.of_entries (by rw [(AskOnly.requestNext i _ _).frame])) (fun _ _ hu h => h.of_entries hu.entries) h

end State.ActiveAs

/-! ### The requests of an owner -/

/-- Neither the SEEKING instance nor the waiting request of the service is the owner's. -/
structure State.NotAsked (s : State) (j : Nat) (o : Owner) : Prop where
  search : ∀ y, (s.sp j).nxt = some y → y.phase = .seeking → y.owner ≠ o
  waits : ∀ y, (s.sp j).waiting = some y → y.owner ≠ o

namespace State.NotAsked

variable {o : Owner}

theorem of_sp (h : s.NotAsked j o) (hn : (t.sp j).nxt = (s.sp j).nxt ∨ (t.sp j).nxt = none)
    (hw : (t.sp j).waiting = (s.sp j).waiting ∨ (t.sp j).waiting = none) : t.NotAsked j o where
  search y hy := by
    rcases hn with hn | hn <;> rw [hn] at hy
    · exact h.search y hy
    · cases hy
  waits y hy := by
    rcases hw with hw | hw <;> rw [hw] at hy
    · exact h.waits y hy
    · cases hy

theorem of_svc (h : s.NotAsked j o) (ht : t.svc j = s.svc j) : t.NotAsked j o := by
  have hsp : t.sp j = s.sp j := congrArg Service.sp ht
  exact h.of_sp (.inl (by rw [hsp])) (.inl (by rw [hsp]))

theorem of_services (h : s.NotAsked j o) (ht : t.services = s.services) : t.NotAsked j o :=
  h.of_svc (by rw [State.svc, ht]; rfl)

end State.NotAsked

/-- Discarding takes at most what the owner asked for, and all of it (R77). -/
theorem discardSeeking_waiting (s : State) (i : Nat) (o : Owner) : ((discardSeeking s i o).sp i).waiting = (s.sp i).waiting
    ∨ ((discardSeeking s i o).sp i).waiting = none := by
  have hw : ∀ v : State, (v.sp i).waiting = (s.sp i).waiting →
      ((v.modSp i (fun p => { p with waiting := if p.waiting.map (·.owner) = some o then none else p.waiting })).sp i).waiting
        = (s.sp i).waiting
      ∨ ((v.modSp i (fun p => { p with waiting := if p.waiting.map (·.owner) = some o then none else p.waiting })).sp i).waiting
        = none := fun v hv => by
    rw [State.sp_modSp, if_pos rfl]
    dsimp only
    split
    · exact .inr rfl
    · exact .inl hv
  unfold discardSeeking
  refine hw _ ?_
  split
  · split
    · obtain ⟨_, _, hd⟩ := discardRole_next_sp (s := s) (i := i)
      rw [hd]
    · rfl
  · rfl

theorem discardSeeking_notAsked (s : State) (i : Nat) (o : Owner) : (discardSeeking s i o).NotAsked i o where
  search y hy hp ho := by
    obtain ⟨hnxt, -⟩ := discardSeeking_discards s i o
    have hold : (s.sp i).nxt = some y := by
      rcases discardSeeking_nxt (s := s) (i := i) o with h | ⟨h, -⟩
      · exact h.symm.trans hy
      · exact absurd (h.symm.trans hy) nofun
    exact absurd ((hnxt y hold ho hp).symm.trans hy) nofun
  waits y hy ho := by
    obtain ⟨-, hwait⟩ := discardSeeking_discards s i o
    have hold : (s.sp i).waiting = some y := by
      rcases discardSeeking_waiting s i o with h | h
      · exact h.symm.trans hy
      · exact absurd (h.symm.trans hy) nofun
    exact absurd ((hwait y hold ho).symm.trans hy) nofun

namespace State.NotAsked

variable {o : Owner}

theorem discardSeeking (h : s.NotAsked j o) (i : Nat) (o' : Owner) : (discardSeeking s i o').NotAsked j o := by
  by_cases hj : j = i
  · subst hj
    refine h.of_sp ?_ (discardSeeking_waiting s j o')
    exact (discardSeeking_nxt (s := s) (i := j) o').imp id fun h => h.1
  · exact h.of_svc ((SpliceOnly.discardSeeking i s o').others j hj)

theorem demote (h : s.NotAsked j o) (e : Entry) : (demote s e).NotAsked j o := (h.discardSeeking e.svc _).of_services rfl

theorem placeInst (h : s.NotAsked j o) (i : Nat) {q : InstReq} (hq : q.owner ≠ o) : (placeInst s i q).NotAsked j o := by
  by_cases hj : j = i
  · subst hj
    cases hr : s.clip q.clip with
    | none => rw [show Machine.placeInst s j q = s by simp [Machine.placeInst, hr]]; exact h
    | some c =>
      cases hv : c.sealVals with
      | none => rw [show Machine.placeInst s j q = s by simp [Machine.placeInst, hr, hv]]; exact h
      | some v =>
        have hsp := (placeInst_spec s j q hr hv).2.2.1
        refine ⟨fun y hy _ => ?_, fun y hy => h.waits y ?_⟩
        · rw [hsp] at hy
          cases hy
          exact hq
        · rw [hsp] at hy
          exact hy
  · exact h.of_svc ((AskOnly.placeInst i s q).others j hj)

theorem requestNext (h : s.NotAsked j o) (i : Nat) {q : InstReq} (hq : q.owner ≠ o) : (requestNext s i q).NotAsked j o := by
  unfold Machine.requestNext
  split
  · exact h.placeInst i hq
  · split
    · refine NotAsked.placeInst ?_ i hq
      by_cases hj : j = i
      · subst hj
        obtain ⟨_, _, hd⟩ := discardRole_next_sp (s := s) (i := j)
        exact h.of_sp (.inr (by rw [hd])) (.inl (by rw [hd]))
      · exact h.of_svc ((SpliceOnly.discardRole i s .next).others j hj)
    · refine ⟨fun y hy => h.search y ?_, fun y hy => ?_⟩
      · rw [State.sp_modSp] at hy
        split at hy
        · next hj => exact hj ▸ hy
        · exact hy
      · rw [State.sp_modSp] at hy
        split at hy
        · cases hy
          exact hq
        · exact h.waits y hy

theorem runsKeep (j r : Nat) : RunsKeep EntryState.idle (fun t => t.NotAsked j (.alert r)) := fun t n x h hx hst => by
  rcases armRun_cases hx with ⟨a, c, hu⟩ | ⟨a, c, hu⟩ | ⟨a, sp, b, -, -, hu⟩
  · rw [hu]
    exact h.of_svc (endEntry_svc_idle (e := { x with a := a }) c hst.1 j)
  · rw [hu]
    exact h.of_services rfl
  · rw [hu]
    have hy : (t.yielded x.svc).NotAsked j (.alert r) := by
      unfold State.yielded
      split
      · exact h.demote _
      · exact h
    have ha : (t.arming x.svc n _ _).NotAsked j (.alert r) :=
      NotAsked.requestNext (s := (t.yielded x.svc).setEntry n (some { x with st := .armed, a := a, s := some sp, commitment := podRate t x.pod }))
        (hy.of_services rfl) x.svc (q := { clip := x.pod.headD 0, owner := .entry n, s := some sp }) nofun
    exact ha.of_sp (.inl (by rw [raiseIf_sp])) (.inl (by rw [raiseIf_sp]))

/-- A record that does not take the service asks for nothing. -/
theorem passOn (h : s.NotAsked j (.alert r)) (hd : deferredIn s i ≠ some r) : (passOn s i).NotAsked j (.alert r) :=
  passOn_keeps (P := fun t => t.NotAsked j (.alert r)) (runsKeep j r) (fun _ l h _ => h.demote l)
    (fun _ r' q hr' h hq => h.requestNext i (by rw [hq]; rintro ⟨⟩; exact hd hr')) (fun _ _ hu h => h.of_services hu.services) h

end State.NotAsked

/-! ### Services that are held -/

/-- Another service that a record holds, which does not take this one, stays as it is. -/
theorem passOn_svc_of_held (hr : r < 4) (hh : (s.alert r).holds j = true) (hd : deferredIn s i ≠ some r) (hj : j ≠ i) :
    (passOn s i).svc j = s.svc j := by
  have hsome {w : State} (hw : w.alert r = s.alert r) : (holdingAlert w j).isSome = true :=
    holdingAlert_isSome hr (by rw [hw]; exact hh)
  cases hq : deferredIn s i with
  | none =>
    rw [passOn_none hq]
    exact (reeval_heldFrame (hsome rfl) i _).svc
  | some q =>
    have hqr : r ≠ q := by
      rintro rfl
      exact hd hq
    cases hdam : s.clipDamaged (s.alert q).clip with
    | true =>
      have hg : (s.gaveUp q i).alert r = s.alert r := (alert_modAlert s q _ r).trans (if_neg hqr)
      rw [passOn_damaged hq hdam, ((RecordFrame.refl _).testRecord q).svc]
      exact (reeval_heldFrame (hsome hg) i _).svc
    | false =>
      have hg : (holdTarget s q i).alert r = s.alert r := (alert_holdTarget r).trans (if_neg hqr)
      rw [passOn_taken hq hdam]
      exact takeService_svc hj (hsome hg)

end Sys2Proof.Machine
end

section
/-! An alert record enters ENDING, by its expiry or by Alert Cancel (R179, R180). -/

namespace Sys2Proof.Machine

variable {s t u v w : State} {i j n r rem : Nat} {c : EndCause} {x y : Target} {done todo : List Target}

/-! ### The record and its targets (R179, R180) -/

/-- A target's claim is dropped as the record enters ENDING. -/
def Target.dropped (x : Target) : Target := if x.status = .deferred then { x with status := .otherAlert } else x

/-- A target that has been treated: one that has not cut is released. -/
def Target.treated (x : Target) : Target :=
  if x.status = .held ∧ x.cut = false then { x with status := .released, byEmergency := false } else x

/-- A target but for its return point. -/
def Target.bare (x : Target) : Target := { x with e := none }

/-- The record in ENDING. -/
def AlertRec.closing (a : AlertRec) (c : EndCause) (rem : Nat) : AlertRec :=
  { a with st := .ending, cause := c, timer := none, remTicks := rem, targets := a.targets.map Target.dropped }

theorem endAlert_eq : endAlert s r c rem = testRecord
    (((s.alert r).closing c rem).targets.foldl (fun u x => endTarget u r x) (s.modAlert r (·.closing c rem))) r := by
  have hts : ((s.modAlert r (·.closing c rem)).alert r).targets = ((s.alert r).closing c rem).targets := by
    rw [alert_modAlert, if_pos rfl]
  rw [← hts]
  rfl

@[simp] theorem Target.dropped_svc (x : Target) : x.dropped.svc = x.svc := by unfold dropped; split <;> rfl
@[simp] theorem Target.dropped_cut (x : Target) : x.dropped.cut = x.cut := by unfold dropped; split <;> rfl
@[simp] theorem Target.treated_svc (x : Target) : x.treated.svc = x.svc := by unfold treated; split <;> rfl
@[simp] theorem Target.bare_svc (x : Target) : x.bare.svc = x.svc := rfl

theorem Target.dropped_held_iff (x : Target) : x.dropped.status = .held ↔ x.status = .held := by
  unfold dropped
  split
  · next h => simp [h]
  · rfl

theorem Target.dropped_of_held (h : x.status = .held) : x.dropped = x := by simp [Target.dropped, h]
theorem Target.treated_of_not_held (h : x.status ≠ .held) : x.treated = x := by simp [Target.treated, h]
theorem Target.treated_of_cut (h : x.cut = true) : x.treated = x := by simp [Target.treated, h]

theorem Target.treated_held_iff (x : Target) : x.treated.status = .held ↔ x.status = .held ∧ x.cut = true := by
  unfold treated
  split
  · next h => simp [h.2]
  · next h =>
    refine ⟨fun hs => ⟨hs, ?_⟩, And.left⟩
    simpa [hs] using h

/-! ### One held target that has cut (R180) -/

/-- The return of a service whose target has cut is handed the estimate, awaits a lead, or goes on. -/
structure EndHanded (s u : State) (r i : Nat) : Prop where
  idle : ∀ e, (s.sp i).ret = .idle → (s.sp i).retBegun = false → estimate s i = some e → (u.sp i).ret = .returning e
    ∧ ∃ y, (u.alert r).target i = some y ∧ y.e = some e
  awaits : (s.sp i).ret = .idle → estimate s i = none → (u.sp i).ret = .idle ∧ (u.sp i).fixE = true
  earlier : ∀ x e, (s.sp i).ret = .returning x → (s.sp i).retBegun = false → estimate s i = some e → atOrAfter nPts e x = false →
    (u.sp i).ret = .returning e ∧ ∃ y, (u.alert r).target i = some y ∧ y.e = some e
  stays : (∃ x, (s.sp i).ret = .returning x ∧ ((s.sp i).retBegun = true ∨ ∀ e, estimate s i = some e → atOrAfter nPts e x = true))
    ∨ (s.sp i).ret = .emergency → u.sp i = s.sp i

/-- What a target that stays in the held set changes: its return, and its own return point in the record. -/
structure StaysHeld (s u : State) (r i : Nat) : Prop where
  frame : u = { s with alerts := u.alerts, services := u.services }
  kept : Kept s u
  others : ∀ j, j ≠ i → u.svc j = s.svc j
  asks : (u.sp i).nxt = (s.sp i).nxt ∧ (u.sp i).waiting = (s.sp i).waiting
  record : ∃ f : Target → Target, (∀ x, (f x).bare = x.bare) ∧ u.alert r = (s.alert r).modTarget i f
  records : ∀ q, q ≠ r → u.alert q = s.alert q

theorem AlertRec.modTarget_id (a : AlertRec) (i : Nat) : a.modTarget i (fun x => x) = a := by simp [AlertRec.modTarget]

theorem StaysHeld.of_alertE (s : State) (r i e : Nat) : StaysHeld s (alertE s r i e) r i := by
  have halert {u v : State} (h : u.alerts = v.alerts) (q : Nat) : u.alert q = v.alert q := by rw [State.alert, h]; rfl
  refine ⟨?_, Kept.alertE (Kept.refl s) r i e, fun j hj => ?_, ?_, ⟨fun x => { x with e := some e }, fun _ => rfl, ?_⟩, fun q hq => ?_⟩
  · unfold alertE handE
    split <;> rfl
  · unfold alertE handE
    split
    · rfl
    · exact (State.svc_modSvc _ i j _).trans (if_neg hj)
  · unfold alertE handE
    split
    · exact ⟨rfl, rfl⟩
    · rw [State.sp_modSp, if_pos rfl]
      exact ⟨rfl, rfl⟩
  · refine (halert (v := s.modAlert r (fun a => a.modTarget i (fun x => { x with e := some e }))) ?_ r).trans
      ((alert_modAlert s r _ r).trans (if_pos rfl))
    unfold alertE handE
    split <;> rfl
  · refine (halert (v := s.modAlert r (fun a => a.modTarget i (fun x => { x with e := some e }))) ?_ q).trans
      ((alert_modAlert s r _ q).trans (if_neg hq))
    unfold alertE handE
    split <;> rfl

theorem StaysHeld.refl (s : State) (r i : Nat) : StaysHeld s s r i :=
  ⟨rfl, Kept.refl s, fun _ _ => rfl, ⟨rfl, rfl⟩, ⟨fun x => x, fun _ => rfl, (AlertRec.modTarget_id _ i).symm⟩, fun _ _ => rfl⟩

theorem StaysHeld.of_awaitLead (s : State) (r i : Nat) : StaysHeld s (awaitLead s i true) r i := by
  refine ⟨rfl, Kept.awaitLead (Kept.refl s) i true, fun j hj => (State.svc_modSvc _ i j _).trans (if_neg hj), ?_,
    ⟨fun x => x, fun _ => rfl, (AlertRec.modTarget_id _ i).symm⟩, fun _ _ => rfl⟩
  unfold awaitLead
  rw [State.sp_modSp, if_pos rfl]
  exact ⟨rfl, rfl⟩

theorem alertE_handed (hb : (s.sp i).retBegun = false) (hr : (s.sp i).ret ≠ .emergency) (hx : ((s.alert r).target i).isSome = true)
    (e : Nat) : ((alertE s r i e).sp i).ret = .returning e ∧ ∃ y, ((alertE s r i e).alert r).target i = some y ∧ y.e = some e := by
  obtain ⟨x, hx⟩ := Option.isSome_iff_exists.1 hx
  have ha : alertE s r i e = _ := handE_of_open (s := s.modAlert r (fun a => a.modTarget i (fun t => { t with e := some e }))) hb hr e
  rw [ha]
  refine ⟨by rw [State.sp_modSp, if_pos rfl]; rfl, { x with e := some e }, ?_, rfl⟩
  have hal : ((s.modAlert r (fun a => a.modTarget i (fun t => { t with e := some e }))).alert r).target i = some { x with e := some e } := by
    rw [alert_modAlert, if_pos rfl, AlertRec.target_modTarget (f := fun t => { t with e := some e }) _ fun _ => rfl, hx]
    rfl
  exact hal

/-- A held target that has cut (R180). -/
theorem endTarget_stays (hst : x.status = .held) (hc : x.cut = true) (hx : ((s.alert r).target x.svc).isSome = true) :
    StaysHeld s (endTarget s r x) r x.svc ∧ EndHanded s (endTarget s r x) r x.svc := by
  unfold endTarget
  dsimp only
  rw [if_neg (by simp [hst]), if_neg (by simp [hc])]
  cases hret : (s.sp x.svc).ret with
  | idle =>
    have hopen : (s.sp x.svc).ret ≠ .emergency := by rw [hret]; nofun
    cases he : estimate s x.svc with
    | some e =>
      refine ⟨StaysHeld.of_alertE s r x.svc e, fun e' _ hb he' => ?_, fun _ he' => ?_, fun y e' hy => ?_, fun h => ?_⟩
      · cases he.symm.trans he'
        exact alertE_handed hb hopen hx e
      · cases he.symm.trans he'
      · cases hret.symm.trans hy
      · rcases h with ⟨y, hy, -⟩ | h
        · cases hret.symm.trans hy
        · cases hret.symm.trans h
    | none =>
      refine ⟨StaysHeld.of_awaitLead s r x.svc, fun e' _ _ he' => ?_, fun _ _ => ?_, fun y e' hy => ?_, fun h => ?_⟩
      · cases he.symm.trans he'
      · unfold awaitLead
        rw [State.sp_modSp, if_pos rfl]
        exact ⟨rfl, rfl⟩
      · cases hret.symm.trans hy
      · rcases h with ⟨y, hy, -⟩ | h
        · cases hret.symm.trans hy
        · cases hret.symm.trans h
  | returning e0 =>
    have hopen : (s.sp x.svc).ret ≠ .emergency := by rw [hret]; nofun
    have hidle : (s.sp x.svc).ret ≠ .idle := by rw [hret]; nofun
    dsimp only
    split
    · next hb =>
      exact ⟨StaysHeld.refl s r x.svc, fun e' h => absurd h hidle, fun h => absurd h hidle,
        fun _ _ _ hb' => absurd (hb.symm.trans hb') (by decide), fun _ => rfl⟩
    · next hb =>
      cases he : estimate s x.svc with
      | none =>
        exact ⟨StaysHeld.refl s r x.svc, fun e' h => absurd h hidle, fun h => absurd h hidle,
          fun _ _ _ _ he' => absurd (he.symm.trans he') nofun, fun _ => rfl⟩
      | some e =>
        dsimp only
        split
        · next hlate =>
          refine ⟨StaysHeld.refl s r x.svc, fun e' h => absurd h hidle, fun h => absurd h hidle, fun y e' hy _ he' hearly => ?_, fun _ => rfl⟩
          cases hret.symm.trans hy
          cases he.symm.trans he'
          exact absurd (hlate.symm.trans hearly) (by decide)
        · next hearly =>
          refine ⟨StaysHeld.of_alertE s r x.svc e, fun e' h => absurd h hidle, fun h => absurd h hidle, fun y e' hy hb' he' _ => ?_, fun h => ?_⟩
          · cases he.symm.trans he'
            exact alertE_handed hb' hopen hx e
          · rcases h with ⟨y, hy, hb' | hlate⟩ | h
            · exact absurd hb' hb
            · cases hret.symm.trans hy
              exact absurd (hlate e he) hearly
            · exact absurd h hopen
  | emergency =>
    have hidle : (s.sp x.svc).ret ≠ .idle := by rw [hret]; nofun
    exact ⟨StaysHeld.refl s r x.svc, fun e' h => absurd h hidle, fun h => absurd h hidle,
      fun y e' hy => absurd (hret.symm.trans hy) nofun, fun _ => rfl⟩

theorem endTarget_skip (h : x.status ≠ .held) : endTarget s r x = s := by
  unfold endTarget
  exact if_pos h

theorem endTarget_leaves (hst : x.status = .held) (hc : x.cut = false) :
    endTarget s r x = depart (discardSeeking s x.svc (.alert r)) r x.svc false := by
  unfold endTarget
  simp [hst, hc]

/-! ### The targets one after the other -/

/-- The state `v` of a record that entered ENDING at `w`, before its test, with the targets `done` treated and `todo` not yet. -/
structure Closing (w : State) (r : Nat) (c : EndCause) (rem : Nat) (done todo : List Target) (v : State) : Prop where
  frame : AlertFrame w v
  kept : Kept w v
  record : v.alert r = { (w.alert r).closing c rem with targets := (v.alert r).targets }
  targets : (v.alert r).targets.map Target.bare = (done.map Target.treated ++ todo).map Target.bare
  svc : ∀ x ∈ todo, x.status = .held → v.svc x.svc = w.svc x.svc
  left : ∀ x ∈ done, x.status = .held → x.cut = false → v.NotAsked x.svc (.alert r)
  handed : ∀ x ∈ done, x.status = .held → x.cut = true → EndHanded w v r x.svc
  active : ∀ n e, w.ActiveAs n e → v.ActiveAs n e

section
variable (h : Closing w r c rem done (x :: todo) v)
include h

theorem Closing.mem {b : Target} (hb : b ∈ (done.map Target.treated ++ x :: todo).map Target.bare) :
    ∃ y ∈ (v.alert r).targets, y.bare = b := by
  rw [← h.targets] at hb
  exact List.mem_map.1 hb

/-- A target that is held still stands as held in the record. -/
theorem Closing.holds (hy : y ∈ done ∧ y.cut = true ∨ y ∈ x :: todo) (hst : y.status = .held) : (v.alert r).holds y.svc = true := by
  have hm : y ∈ done.map Target.treated ++ x :: todo := by
    rcases hy with ⟨hy, hc⟩ | hy
    · exact List.mem_append_left _ (List.mem_map.2 ⟨y, hy, Target.treated_of_cut hc⟩)
    · exact List.mem_append_right _ hy
  obtain ⟨z, hz, hb⟩ := h.mem (List.mem_map_of_mem hm)
  have hsvc : z.bare.svc = y.bare.svc := congrArg Target.svc hb
  have hstat : z.bare.status = y.bare.status := congrArg Target.status hb
  change z.svc = y.svc at hsvc
  change z.status = y.status at hstat
  rw [AlertRec.holds, Bool.and_eq_true, List.any_eq_true]
  refine ⟨?_, z, hz, by simp [hsvc, hstat, hst]⟩
  rw [h.record]
  rfl

theorem Closing.ending : (v.alert r).st = .ending := by
  rw [h.record]
  rfl

/-- A target out of the held set is passed over. -/
theorem Closing.skip (hx : x.status ≠ .held) : Closing w r c rem (done ++ [x]) todo v where
  frame := h.frame
  kept := h.kept
  record := h.record
  targets := by rw [h.targets]; simp [Target.treated_of_not_held hx]
  svc y hy := h.svc y (List.mem_cons_of_mem _ hy)
  left y hy hst := by
    rcases List.mem_append.1 hy with hy | hy
    · exact h.left y hy hst
    · exact absurd (List.mem_singleton.1 hy ▸ hst) hx
  handed y hy hst := by
    rcases List.mem_append.1 hy with hy | hy
    · exact h.handed y hy hst
    · exact absurd (List.mem_singleton.1 hy ▸ hst) hx
  active := h.active

/-- The record's list after a change of one target. -/
theorem Closing.targets_modTarget (hnd : ((done ++ x :: todo).map (·.svc)).Nodup) {f : Target → Target} {g : Target → Target}
    (hf : ∀ z, (f z).bare = g z.bare) (hg : g x.bare = x.treated.bare) :
    ((v.alert r).modTarget x.svc f).targets.map Target.bare = ((done ++ [x]).map Target.treated ++ todo).map Target.bare := by
  have hmap : ((v.alert r).modTarget x.svc f).targets.map Target.bare =
      ((v.alert r).targets.map Target.bare).map (fun z => if z.svc = x.svc then g z else z) := by
    rw [modTarget_targets, List.map_map, List.map_map]
    refine List.map_congr_left fun z _ => ?_
    dsimp only [Function.comp]
    split
    · next hz => exact (hf z).trans (if_pos hz).symm
    · next hz => exact (if_neg hz).symm
  have hother {l : List Target} (hl : ∀ z ∈ l, z.svc ≠ x.svc) :
      (l.map Target.bare).map (fun z => if z.svc = x.svc then g z else z) = l.map Target.bare := by
    rw [List.map_map]
    exact List.map_congr_left fun z hz => if_neg (hl z hz)
  rw [List.map_append, List.nodup_append] at hnd
  obtain ⟨-, hnd, hdisj⟩ := hnd
  obtain ⟨hx, -⟩ := List.nodup_cons.1 hnd
  have hdone : ∀ z ∈ done.map Target.treated, z.svc ≠ x.svc := fun z hz => by
    obtain ⟨y, hy, rfl⟩ := List.mem_map.1 hz
    rw [Target.treated_svc]
    exact hdisj _ (List.mem_map_of_mem hy) _ (List.mem_map_of_mem List.mem_cons_self)
  have htodo : ∀ z ∈ todo, z.svc ≠ x.svc := fun z hz hzx => hx (List.mem_map.2 ⟨z, hz, hzx⟩)
  rw [hmap, h.targets, List.map_append, List.map_append, hother hdone, List.map_cons, List.map_cons, hother htodo]
  simp [hg]

end

/-! ### What one treated target leaves of the others -/

theorem AlertRec.target_modTarget_of_ne (a : AlertRec) {f : Target → Target} (hf : ∀ x, (f x).svc = x.svc) (hj : j ≠ i) :
    (a.modTarget i f).target j = a.target j := by
  unfold AlertRec.modTarget AlertRec.target
  induction a.targets with
  | nil => rfl
  | cons x l ih =>
    have hx : (if x.svc = i then f x else x).svc = x.svc := by
      split
      · exact hf x
      · rfl
    rw [List.map_cons, List.find?_cons, List.find?_cons, hx, ih]
    split
    · next h =>
      rw [if_neg]
      rintro rfl
      exact hj (beq_iff_eq.1 h).symm
    · rfl

theorem holds_modTarget_of_ne {a : AlertRec} {f : Target → Target} (hf : ∀ x, (f x).svc = x.svc) (hj : j ≠ i) (h : a.holds j = true) :
    (a.modTarget i f).holds j = true := by
  rw [AlertRec.holds, Bool.and_eq_true, List.any_eq_true] at h ⊢
  obtain ⟨hst, x, hx, hxj⟩ := h
  have hxs : x.svc = j := beq_iff_eq.1 (Bool.and_eq_true_iff.1 hxj).1
  exact ⟨hst, x, (mem_modTarget_of_ne hf (hxs ▸ hj)).2 hx, hxj⟩

theorem EndHanded.of_start (h : EndHanded s u r i) (hsp : s.sp i = w.sp i) (he : estimate s i = estimate w i) : EndHanded w u r i where
  idle := by rw [← hsp, ← he]; exact h.idle
  awaits := by rw [← hsp, ← he]; exact h.awaits
  earlier := by rw [← hsp, ← he]; exact h.earlier
  stays := by rw [← hsp, ← he]; exact h.stays

theorem EndHanded.of_end (h : EndHanded w s r i) (hsp : u.sp i = s.sp i) (ht : (u.alert r).target i = (s.alert r).target i) :
    EndHanded w u r i where
  idle := by rw [hsp, ht]; exact h.idle
  awaits := by rw [hsp]; exact h.awaits
  earlier := by rw [hsp, ht]; exact h.earlier
  stays := by rw [hsp]; exact h.stays

section
variable (hnd : ((done ++ x :: todo).map (·.svc)).Nodup)
include hnd

theorem svc_ne_of_done (hy : y ∈ done) : y.svc ≠ x.svc := by
  rw [List.map_append, List.nodup_append] at hnd
  exact hnd.2.2 _ (List.mem_map_of_mem hy) _ (List.mem_map_of_mem List.mem_cons_self)

theorem svc_ne_of_todo (hy : y ∈ todo) : y.svc ≠ x.svc := by
  rw [List.map_append, List.nodup_append] at hnd
  exact fun hyx => (List.nodup_cons.1 hnd.2.1).1 (List.mem_map.2 ⟨y, hy, hyx⟩)

variable (h : Closing w r c rem done (x :: todo) v)
include h

/-- A target that stays in the held set. -/
theorem Closing.stay (hst : x.status = .held) (hc : x.cut = true) : Closing w r c rem (done ++ [x]) todo (endTarget v r x) := by
  have hsome : ((v.alert r).target x.svc).isSome = true := by
    obtain ⟨z, hz, hb⟩ := h.mem (List.mem_map_of_mem (List.mem_append_right _ List.mem_cons_self))
    have hzx : z.bare.svc = x.bare.svc := congrArg Target.svc hb
    exact List.find?_isSome.2 ⟨z, hz, by simpa using hzx⟩
  obtain ⟨⟨hframe, hkept, hothers, hasks, ⟨f, hf, hrec⟩, -⟩, hhand⟩ := endTarget_stays hst hc hsome
  have hfs (z : Target) : (f z).svc = z.svc := by simpa using congrArg Target.svc (hf z)
  have hent : (endTarget v r x).entries = v.entries := by rw [hframe]
  refine ⟨h.frame.trans ?_, h.kept.trans hkept, ?_, ?_, fun y hy hys => ?_, fun y hy hys hyc => ?_, fun y hy hys hyc => ?_, fun n e ha => ?_⟩
  · unfold AlertFrame
    rw [hframe]
  · rw [hrec, h.record]
    rfl
  · rw [hrec]
    exact h.targets_modTarget hnd (g := fun z => z) hf (by rw [Target.treated_of_cut hc])
  · exact (hothers _ (svc_ne_of_todo hnd hy)).trans (h.svc y (List.mem_cons_of_mem _ hy) hys)
  · rcases List.mem_append.1 hy with hy | hy
    · exact (h.left y hy hys hyc).of_svc (hothers _ (svc_ne_of_done hnd hy))
    · cases List.mem_singleton.1 hy
      exact absurd (hc.symm.trans hyc) (by decide)
  · rcases List.mem_append.1 hy with hy | hy
    · have hne := svc_ne_of_done hnd hy
      exact (h.handed y hy hys hyc).of_end (congrArg Service.sp (hothers _ hne)) (by rw [hrec, AlertRec.target_modTarget_of_ne _ hfs hne])
    · cases List.mem_singleton.1 hy
      exact hhand.of_start (congrArg Service.sp (h.svc x List.mem_cons_self hst)) (h.kept.estimate _)
  · exact (h.active n e ha).of_entries hent

/-- A target that leaves the held set, but for the test of the record (R180, R181). -/
theorem Closing.leave (hr : r < 4) (hst : x.status = .held) (hc : x.cut = false) : Closing w r c rem (done ++ [x]) todo
    (passOn (leaveHeld (discardSeeking v x.svc (.alert r)) r x.svc false) x.svc) := by
  have hdisc := SpliceOnly.discardSeeking x.svc v (.alert r)
  let d := leaveHeld (discardSeeking v x.svc (.alert r)) r x.svc false
  let f : Target → Target := fun z => { z with status := .released, byEmergency := false }
  have hfs (z : Target) : (f z).svc = z.svc := rfl
  have hframe : AlertFrame v d := (AlertFrame.of_splice hdisc).trans (.of_record ((RecordFrame.refl _).leaveHeld _ _ _))
  have hrecd : d.alert r = (v.alert r).modTarget x.svc f := by
    have hv : (discardSeeking v x.svc (.alert r)).alert r = v.alert r := by rw [hdisc.frame]; rfl
    refine (alert_modAlert _ r _ r).trans ((if_pos rfl).trans ?_)
    rw [hv]
  have hend : (d.alert r).st = .ending := by
    rw [hrecd]
    exact h.ending
  have hclaim : deferredIn d x.svc ≠ some r := fun hd => by
    obtain ⟨-, hon, -⟩ := deferredIn_some hd
    exact absurd (hend.symm.trans hon) (by decide)
  have hrec : (passOn d x.svc).alert r = (v.alert r).modTarget x.svc f := (passOn_alert hclaim).trans hrecd
  have hsvcd (j : Nat) (hj : j ≠ x.svc) : d.svc j = v.svc j := hdisc.others j hj
  have hsvc {y : Target} (hy : y ∈ done ∧ y.cut = true ∨ y ∈ x :: todo) (hys : y.status = .held) (hne : y.svc ≠ x.svc) :
      (passOn d x.svc).svc y.svc = v.svc y.svc := by
    have hheld : (d.alert r).holds y.svc = true := by
      rw [hrecd]
      exact holds_modTarget_of_ne hfs hne (h.holds hy hys)
    exact (passOn_svc_of_held hr hheld hclaim hne).trans (hsvcd _ hne)
  have hasked {j : Nat} (hna : (discardSeeking v x.svc (.alert r)).NotAsked j (.alert r)) : (passOn d x.svc).NotAsked j (.alert r) :=
    (hna.of_services (t := d) rfl).passOn hclaim
  refine ⟨(h.frame.trans hframe).trans (passOn_frame d x.svc), ?_, ?_, ?_, fun y hy hys => ?_, fun y hy hys hyc => ?_, fun y hy hys hyc => ?_,
    fun n e ha => ?_⟩
  · exact Kept.passOn (Kept.leaveHeld (h.kept.discardSeeking _ _) _ _ _) _
  · rw [hrec, h.record]
    rfl
  · rw [hrec]
    refine h.targets_modTarget hnd (f := f) (g := f) (fun _ => rfl) ?_
    simp [Target.treated, hst, hc, f, Target.bare]
  · exact (hsvc (.inr (List.mem_cons_of_mem _ hy)) hys (svc_ne_of_todo hnd hy)).trans (h.svc y (List.mem_cons_of_mem _ hy) hys)
  · rcases List.mem_append.1 hy with hy | hy
    · exact hasked ((h.left y hy hys hyc).discardSeeking _ _)
    · cases List.mem_singleton.1 hy
      exact hasked (discardSeeking_notAsked v x.svc _)
  · rcases List.mem_append.1 hy with hy | hy
    · have hne := svc_ne_of_done hnd hy
      exact (h.handed y hy hys hyc).of_end (congrArg Service.sp (hsvc (.inl ⟨hy, hyc⟩) hys hne))
        (by rw [hrec, AlertRec.target_modTarget_of_ne _ hfs hne])
    · cases List.mem_singleton.1 hy
      exact absurd (hyc.symm.trans hc) (by decide)
  · have hd : d.ActiveAs n e := (h.active n e ha).of_entries (by rw [show d.entries = (discardSeeking v x.svc (.alert r)).entries from rfl, hdisc.frame])
    exact hd.passOn x.svc

end

/-! ### The record after all its targets (R171, R180) -/

theorem testRecord_ending (hst : (v.alert r).st = .ending) :
    ((∃ x ∈ (v.alert r).targets, x.status = .held) → testRecord v r = v)
    ∧ ((∀ x ∈ (v.alert r).targets, x.status ≠ .held) → testRecord v r = endRecord v r (v.alert r).cause) := by
  unfold testRecord
  simp only [hst]
  refine ⟨fun ⟨x, hx, hh⟩ => if_pos (List.any_eq_true.2 ⟨x, hx, by simp [hh]⟩), fun hno => if_neg ?_⟩
  rw [List.any_eq_true]
  rintro ⟨x, hx, hh⟩
  exact hno x hx (beq_iff_eq.1 hh)

/-- The state `v`, its record tested or not yet. -/
def TestedOrNot (v : State) (r : Nat) (c : EndCause) (u : State) : Prop :=
  u = v ∨ (∀ x ∈ (v.alert r).targets, x.status ≠ .held) ∧ u = endRecord v r c

theorem Closing.cause (h : Closing w r c rem done todo v) : (v.alert r).st = .ending ∧ (v.alert r).cause = c := by
  rw [h.record]
  exact ⟨rfl, rfl⟩

theorem Closing.fold (hr : r < 4) (h : Closing w r c rem done todo v) (hnd : ((done ++ todo).map (·.svc)).Nodup)
    (hu : TestedOrNot v r c u) : ∃ v', Closing w r c rem (done ++ todo) [] v'
      ∧ TestedOrNot v' r c (todo.foldl (fun u x => endTarget u r x) u) := by
  induction todo generalizing done v u with
  | nil => exact ⟨v, by rw [List.append_nil]; exact h, hu⟩
  | cons x todo ih =>
    have happ : done ++ x :: todo = (done ++ [x]) ++ todo := by simp
    rw [List.foldl_cons, happ]
    rw [happ] at hnd
    by_cases hx : x.status = .held
    · have hin : ∃ z ∈ (v.alert r).targets, z.status = .held := by
        obtain ⟨z, hz, hb⟩ := h.mem (List.mem_map_of_mem (List.mem_append_right _ List.mem_cons_self))
        have hzs : z.bare.status = x.bare.status := congrArg Target.status hb
        exact ⟨z, hz, hzs.trans hx⟩
      have huv : u = v := hu.resolve_right fun ⟨hno, _⟩ => by
        obtain ⟨z, hz, hzs⟩ := hin
        exact hno z hz hzs
      subst huv
      cases hc : x.cut with
      | true => exact ih (h.stay (happ ▸ hnd) hx hc) hnd (.inl rfl)
      | false =>
        have hl := h.leave (happ ▸ hnd) hr hx hc
        obtain ⟨hend, hcause⟩ := hl.cause
        obtain ⟨hstay, hgone⟩ := testRecord_ending hend
        rw [endTarget_leaves hx hc]
        refine ih hl hnd ?_
        by_cases hheld : ∃ z ∈ ((passOn (leaveHeld (discardSeeking u x.svc (.alert r)) r x.svc false) x.svc).alert r).targets, z.status = .held
        · exact .inl (hstay hheld)
        · have hno := fun z hz hzs => hheld ⟨z, hz, hzs⟩
          exact .inr ⟨hno, (hgone hno).trans (by rw [hcause])⟩
    · rw [endTarget_skip hx]
      exact ih (h.skip hx) hnd hu

theorem Closing.start (w : State) (r : Nat) (c : EndCause) (rem : Nat) :
    Closing w r c rem [] ((w.alert r).closing c rem).targets (w.modAlert r (·.closing c rem)) where
  frame := rfl
  kept := Kept.modAlert (Kept.refl w) r _
  record := by rw [alert_modAlert, if_pos rfl]
  targets := by rw [alert_modAlert, if_pos rfl]; rfl
  svc _ _ _ := rfl
  left _ hx := by cases hx
  handed _ hx := by cases hx
  active n e h := h.of_entries rfl

/-- A record that enters ENDING: it stays while it holds a target, and else it ends. -/
theorem endAlert_closing (hr : r < 4) (hnd : ((w.alert r).targets.map (·.svc)).Nodup) :
    ∃ v, Closing w r c rem ((w.alert r).closing c rem).targets [] v
      ∧ ((∃ x ∈ (v.alert r).targets, x.status = .held) → endAlert w r c rem = v)
      ∧ ((∀ x ∈ (v.alert r).targets, x.status ≠ .held) → endAlert w r c rem = endRecord v r c) := by
  have hnd' : ((([] : List Target) ++ ((w.alert r).closing c rem).targets).map (·.svc)).Nodup := by
    have hs : ((w.alert r).closing c rem).targets.map (·.svc) = (w.alert r).targets.map (·.svc) := by
      exact (List.map_map ..).trans (List.map_congr_left fun (x : Target) _ => x.dropped_svc)
    rw [List.nil_append, hs]
    exact hnd
  obtain ⟨v, hv, ht⟩ := (Closing.start w r c rem).fold hr hnd' (.inl rfl)
  rw [List.nil_append] at hv
  obtain ⟨hend, hcause⟩ := hv.cause
  obtain ⟨hstay, hgone⟩ := testRecord_ending hend
  refine ⟨v, hv, fun hheld => ?_, fun hno => ?_⟩
  · rw [endAlert_eq]
    rcases ht with ht | ⟨hno, -⟩
    · rw [ht, hstay hheld]
    · obtain ⟨x, hx, hs⟩ := hheld
      exact absurd hs (hno x hx)
  · rw [endAlert_eq]
    rcases ht with ht | ⟨-, ht⟩
    · rw [ht, hgone hno, hcause]
    · rw [ht]
      have hidle : ((endRecord v r c).alert r).st = .idle := by rw [endRecord_alert, if_pos rfl]; rfl
      simp only [testRecord, hidle]

/-! ### The record read back -/

section
variable (h : Closing w r c rem ((w.alert r).closing c rem).targets [] v)
include h

/-- Every property that the return points do not enter, read off the record as it stood. -/
theorem Closing.map_eq {α : Type} {f : Target → α} (hf : ∀ x, f x.bare = f x) :
    (v.alert r).targets.map f = (w.alert r).targets.map (fun x => f x.dropped.treated) := by
  have hb : (v.alert r).targets.map f = ((v.alert r).targets.map Target.bare).map f := by
    rw [List.map_map]
    exact List.map_congr_left fun x _ => (hf x).symm
  rw [hb, h.targets, List.append_nil, List.map_map, List.map_map, AlertRec.closing, List.map_map]
  exact List.map_congr_left fun x _ => hf _

theorem Closing.held_iff : (∃ x ∈ (v.alert r).targets, x.status = .held) ↔
    ∃ x ∈ (w.alert r).targets, x.status = .held ∧ x.cut = true := by
  have hm := h.map_eq (f := Target.status) fun _ => rfl
  have hread : (∃ x ∈ (v.alert r).targets, x.status = .held) ↔ TStatus.held ∈ (v.alert r).targets.map Target.status := by
    rw [List.mem_map]
  rw [hread, hm, List.mem_map]
  refine exists_congr fun x => and_congr_right fun _ => ?_
  rw [Target.treated_held_iff, Target.dropped_held_iff, Target.dropped_cut]

theorem Closing.count_eq {f g : Target → Bool} (hf : ∀ x, f x.bare = f x) (hg : ∀ x ∈ (w.alert r).targets, f x.dropped.treated = g x) :
    (v.alert r).count f = ((w.alert r).targets.filter g).length := by
  have hcount (l : List Target) (p : Target → Bool) : (l.filter p).length = (l.map p).count true := by
    rw [← List.countP_eq_length_filter, List.count, List.countP_map]
    exact List.countP_congr fun x _ => by simp
  rw [AlertRec.count, hcount, hcount, h.map_eq hf]
  exact congrArg (List.count true) (List.map_congr_left hg)

end

/-! ### A record without held targets, and one with a single target -/

theorem closing_alert (w : State) (r : Nat) (c : EndCause) (rem q : Nat) : (w.modAlert r (·.closing c rem)).alert q =
    if q = r then (w.alert r).closing c rem else w.alert q := alert_modAlert w r _ q

/-- The ALERT_END of a record that ends (R171): its counts leave out what is still held. -/
def AlertRec.endEvent (a : AlertRec) (r : Nat) (c : EndCause) : Event :=
  .alertEnd c r a.id (a.targets.filter (fun t => t.status == .held || t.status == .released)).length
    (a.targets.filter (fun t => t.byEmergency && t.status != .held)).length

theorem length_filter_map {α β : Type} (l : List α) (m : α → β) (f : β → Bool) {g : α → Bool} (h : ∀ x ∈ l, f (m x) = g x) :
    ((l.map m).filter f).length = (l.filter g).length := by
  rw [List.filter_map, List.length_map]
  exact congrArg List.length (List.filter_congr h)

theorem Target.dropped_counted (x : Target) : (x.dropped.status == .held || x.dropped.status == .released) =
    (x.status == .held || x.status == .released) := by
  unfold dropped
  split
  · next h => rw [h]; rfl
  · rfl

theorem Target.dropped_byEmergency (x : Target) : x.dropped.byEmergency = x.byEmergency := by
  unfold dropped
  split <;> rfl

theorem endAlert_none (h : ∀ x ∈ (w.alert r).targets, x.status ≠ .held) : let u := endAlert w r c rem
    u.alert r = AlertRec.idle ∧ u.box .ap = pushBox (w.box .ap) ((w.alert r).endEvent r c)
      ∧ u = { w with alerts := u.alerts, dir := u.dir, boxes := u.boxes } := by
  let w1 := w.modAlert r (·.closing c rem)
  have hal : w1.alert r = (w.alert r).closing c rem := (closing_alert w r c rem r).trans (if_pos rfl)
  have hno : ∀ x ∈ ((w.alert r).closing c rem).targets, x.status ≠ .held := fun x hx => by
    obtain ⟨y, hy, rfl⟩ := List.mem_map.1 hx
    rw [ne_eq, Target.dropped_held_iff]
    exact h y hy
  have hfold : ∀ l : List Target, (∀ x ∈ l, x.status ≠ .held) → l.foldl (fun u x => endTarget u r x) w1 = w1 := fun l hl => by
    induction l with
    | nil => rfl
    | cons x l ih =>
      rw [List.foldl_cons, endTarget_skip (hl x List.mem_cons_self)]
      exact ih fun y hy => hl y (List.mem_cons_of_mem _ hy)
  have hend : endAlert w r c rem = endRecord w1 r c := by
    rw [endAlert_eq, hfold _ hno, (testRecord_ending (v := w1) (by rw [hal]; rfl)).2 (by rw [hal]; exact hno), hal]
    rfl
  intro u
  have hu : u = endRecord w1 r c := hend
  rw [hu]
  refine ⟨by rw [endRecord_alert, if_pos rfl], ?_, rfl⟩
  rw [endRecord_box, if_pos rfl, hal]
  have hheld : ((w.alert r).closing c rem).count (fun t => t.status == .held || t.status == .released) =
      ((w.alert r).targets.filter (fun t => t.status == .held || t.status == .released)).length :=
    length_filter_map _ _ _ fun x _ => x.dropped_counted
  have hem : ((w.alert r).closing c rem).count (·.byEmergency) =
      ((w.alert r).targets.filter (fun t => t.byEmergency && t.status != .held)).length :=
    length_filter_map _ _ _ fun x hx => by rw [x.dropped_byEmergency]; simp [h x hx]
  rw [hheld, hem]
  rfl

theorem endAlert_one_stays (ht : (w.alert r).targets = [x]) (hst : x.status = .held) (hc : x.cut = true) (hret : (w.sp x.svc).ret = .idle)
    (hb : (w.sp x.svc).retBegun = false) (hclk : (w.svc x.svc).clk.st ≠ .unlocked) (hlead : (lead w x.svc).isSome = true) :
    let u := endAlert w r c rem
    (u.alert r).st = .ending ∧ (u.alert r).cause = c ∧ (∃ e, estimate u x.svc = some e ∧ (u.sp x.svc).ret = .returning e)
      ∧ u = { w with alerts := u.alerts, services := u.services } := by
  let w1 := w.modAlert r (·.closing c rem)
  have hts : ((w.alert r).closing c rem).targets = [x] := by
    show (w.alert r).targets.map Target.dropped = [x]
    rw [ht, List.map_singleton, Target.dropped_of_held hst]
  have hal : w1.alert r = (w.alert r).closing c rem := (closing_alert w r c rem r).trans (if_pos rfl)
  have hsome : ((w1.alert r).target x.svc).isSome = true := by
    rw [hal, AlertRec.target, hts]
    simp
  obtain ⟨hstays, hhand⟩ := endTarget_stays (s := w1) (r := r) hst hc hsome
  obtain ⟨f, hf, hrec⟩ := hstays.record
  have hfx : (f x).status = .held := (congrArg Target.status (hf x)).trans hst
  have hend : endAlert w r c rem = endTarget w1 r x := by
    rw [endAlert_eq, hts]
    refine (testRecord_ending (v := endTarget w1 r x) (by rw [hrec, hal]; rfl)).1 ⟨f x, ?_, hfx⟩
    rw [hrec, modTarget_targets, hal, hts]
    simp
  obtain ⟨l, hl⟩ := Option.isSome_iff_exists.1 hlead
  obtain ⟨e, he⟩ : ∃ e, estimate w x.svc = some e := by
    simp [estimate, leadPoint, serviceTime, hclk, hl]
  intro u
  have hu : u = endTarget w1 r x := hend
  rw [hu]
  refine ⟨by rw [hrec, hal]; rfl, by rw [hrec, hal]; rfl, ⟨e, ?_, (hhand.idle e hret hb he).1⟩, ?_⟩
  · rw [hstays.kept.estimate]
    exact he
  · have hframe := hstays.frame
    generalize endTarget w1 r x = z at hframe ⊢
    exact hframe

theorem endAlert_one_leaves (ht : (w.alert r).targets = [x]) (hst : x.status = .held) (hc : x.cut = false)
    (hno : ∀ q, q < 4 → q ≠ r → (w.alert q).st ≠ .on ∨ ∀ y ∈ (w.alert q).targets, y.svc = x.svc → y.status ≠ .deferred) :
    ∃ v, (endAlert w r c rem).entries = (reeval v x.svc .held).entries
      ∧ v.alert r = { w.alert r with
          st := .ending, cause := c, timer := none, remTicks := rem, targets := [{ x with status := .released, byEmergency := false }] }
      ∧ (∀ q, q ≠ r → v.alert q = w.alert q) ∧ (∀ j, j ≠ x.svc → v.svc j = w.svc j)
      ∧ v = { w with alerts := v.alerts, services := v.services, flash := v.flash } := by
  let w1 := w.modAlert r (·.closing c rem)
  have hts : ((w.alert r).closing c rem).targets = [x] := by
    show (w.alert r).targets.map Target.dropped = [x]
    rw [ht, List.map_singleton, Target.dropped_of_held hst]
  have hdisc := SpliceOnly.discardSeeking x.svc w1 (.alert r)
  let d := discardSeeking w1 x.svc (.alert r)
  have hd (q : Nat) : d.alert q = w1.alert q := by
    show (discardSeeking w1 x.svc (.alert r)).alert q = _
    rw [hdisc.frame]
    rfl
  let v := leaveHeld d r x.svc false
  have hv (q : Nat) : v.alert q = if q = r then _ else d.alert q := alert_modAlert d r _ q
  have hvr : v.alert r = { w.alert r with
      st := .ending, cause := c, timer := none, remTicks := rem, targets := [{ x with status := .released, byEmergency := false }] } := by
    rw [hv, if_pos rfl, hd, closing_alert, if_pos rfl, AlertRec.modTarget, hts]
    simp [AlertRec.closing]
  have hvq (q : Nat) (hq : q ≠ r) : v.alert q = w.alert q := by rw [hv, if_neg hq, hd, closing_alert, if_neg hq]
  have hnone : deferredIn v x.svc = none := deferredIn_none_iff.2 fun q hq ⟨hon, y, hy, hyi, hys⟩ => by
    by_cases hqr : q = r
    · rw [hqr, hvr] at hon
      cases hon
    · rw [hvq q hqr] at hon hy
      rcases hno q hq hqr with h | h
      · exact h hon
      · exact h y hy hyi hys
  have hend : endAlert w r c rem = testRecord (testRecord (reeval v x.svc .held) r) r := by
    rw [endAlert_eq, hts, List.foldl_cons, endTarget_leaves hst hc, depart, passOn_none (s := leaveHeld (discardSeeking _ _ _) r x.svc false) hnone]
    rfl
  refine ⟨v, ?_, hvr, hvq, fun j hj => hdisc.others j hj, ?_⟩
  · rw [hend]
    exact (((RecordFrame.refl _).testRecord r).testRecord r).entries
  · have hframe (z : State) (hz : z = { w1 with services := z.services, flash := z.flash }) : leaveHeld z r x.svc false =
        { w with alerts := (leaveHeld z r x.svc false).alerts, services := z.services, flash := z.flash } := by
      rw [hz]
      rfl
    exact hframe d hdisc.frame

/-! ### The record and its targets as a whole -/

section
variable (hr : r < 4) (hnd : ((w.alert r).targets.map (·.svc)).Nodup)
include hr hnd

/-- The end of a record changes nothing that the schedule and the splice engine hold. -/
theorem endAlert_cases : ∃ v, Closing w r c rem ((w.alert r).closing c rem).targets [] v ∧ RecordFrame v (endAlert w r c rem)
    ∧ ((∃ x ∈ (w.alert r).targets, x.status = .held ∧ x.cut = true) → endAlert w r c rem = v)
    ∧ ((∀ x ∈ (w.alert r).targets, ¬(x.status = .held ∧ x.cut = true)) → endAlert w r c rem = endRecord v r c) := by
  obtain ⟨v, hv, hstay, hgone⟩ := endAlert_closing (c := c) (rem := rem) hr hnd
  have hstay' := fun h => hstay (hv.held_iff.2 h)
  have hgone' := fun h : ∀ x ∈ (w.alert r).targets, ¬(x.status = .held ∧ x.cut = true) => hgone fun z hz hzs => by
    obtain ⟨x, hx, hxs⟩ := hv.held_iff.1 ⟨z, hz, hzs⟩
    exact h x hx hxs
  refine ⟨v, hv, ?_, hstay', hgone'⟩
  by_cases h : ∃ x ∈ (w.alert r).targets, x.status = .held ∧ x.cut = true
  · rw [hstay' h]
    exact RecordFrame.refl v
  · rw [hgone' fun x hx hxs => h ⟨x, hx, hxs⟩]
    exact (RecordFrame.refl v).endRecord r c

/-- A record that has nothing left to hold ends (R171). -/
theorem endAlert_ends (h : ∀ x ∈ (w.alert r).targets, ¬(x.status = .held ∧ x.cut = true)) : let u := endAlert w r c rem
    u.alert r = AlertRec.idle ∧ ((w.alert r).endEvent r c ∈ (u.box .ap).queue ∨ (u.box .ap).lostEvents = true) := by
  obtain ⟨v, hv, -, -, hgone⟩ := endAlert_cases (c := c) (rem := rem) hr hnd
  intro u
  have hu : u = endRecord v r c := hgone h
  have hid : (v.alert r).id = (w.alert r).id := by
    rw [hv.record]
    rfl
  have hheld : (v.alert r).count (fun t => t.status == .held || t.status == .released) =
      ((w.alert r).targets.filter (fun t => t.status == .held || t.status == .released)).length := by
    refine hv.count_eq (fun _ => rfl) fun x _ => ?_
    rw [← x.dropped_counted]
    unfold Target.treated
    split
    · next hx => rw [hx.1]; rfl
    · rfl
  have hem : (v.alert r).count (·.byEmergency) =
      ((w.alert r).targets.filter (fun t => t.byEmergency && t.status != .held)).length := by
    refine hv.count_eq (fun _ => rfl) fun x hx => ?_
    by_cases hst : x.status = .held
    · have hc : x.cut = false := Bool.eq_false_iff.2 fun hc => h x hx ⟨hst, hc⟩
      simp [Target.dropped_of_held hst, Target.treated, hst, hc]
    · rw [Target.treated_of_not_held (by rwa [ne_eq, Target.dropped_held_iff]), Target.dropped_byEmergency]
      simp [hst]
  rw [hu]
  refine ⟨by rw [endRecord_alert, if_pos rfl], ?_⟩
  rw [endRecord_box, if_pos rfl, hid, hheld, hem]
  rcases pushBox_cases (v.box .ap) ((w.alert r).endEvent r c) with ⟨-, hp⟩ | ⟨-, hp⟩
  · exact .inl (by show _ ∈ (pushBox _ ((w.alert r).endEvent r c)).queue; rw [hp]; simp)
  · exact .inr (by show (pushBox _ ((w.alert r).endEvent r c)).lostEvents = true; rw [hp])

/-- A record that holds a target on goes on in ENDING (R180). -/
theorem endAlert_goes_on (h : ∃ x ∈ (w.alert r).targets, x.status = .held ∧ x.cut = true) : let a := (endAlert w r c rem).alert r
    a.st = .ending ∧ a.cause = c ∧ a.timer = none ∧ a.remTicks = rem ∧ a.id = (w.alert r).id ∧ a.clip = (w.alert r).clip
      ∧ a.targets.map (fun t => (t.svc, t.status, t.cut)) = (w.alert r).targets.map (fun t => (t.svc,
          if t.status = .deferred then .otherAlert else if t.status = .held ∧ t.cut = false then .released else t.status, t.cut)) := by
  obtain ⟨v, hv, -, hstay, -⟩ := endAlert_cases (c := c) (rem := rem) hr hnd
  intro a
  have ha : a = v.alert r := by rw [← hstay h]
  have hmap := hv.map_eq (f := fun t => (t.svc, t.status, t.cut)) fun _ => rfl
  rw [ha]
  refine ⟨by rw [hv.record]; rfl, by rw [hv.record]; rfl, by rw [hv.record]; rfl, by rw [hv.record]; rfl, by rw [hv.record]; rfl,
    by rw [hv.record]; rfl, hmap.trans (List.map_congr_left fun x _ => ?_)⟩
  unfold Target.treated Target.dropped
  by_cases hd : x.status = .deferred
  · simp [hd]
  · by_cases hh : x.status = .held ∧ x.cut = false
    · simp [hh]
    · simp [hd, hh]

/-- What becomes of each target, and what stays beside them. -/
theorem endAlert_targets : let u := endAlert w r c rem
    AlertFrame w u ∧ (∀ n e, w.ActiveAs n e → u.entry n = some e)
    ∧ (∀ x ∈ (w.alert r).targets, x.status = .held → x.cut = false → u.NotAsked x.svc (.alert r))
    ∧ ∀ x ∈ (w.alert r).targets, x.status = .held → x.cut = true → EndHanded w u r x.svc := by
  obtain ⟨v, hv, hframe, hstay, -⟩ := endAlert_cases (c := c) (rem := rem) hr hnd
  have hmem {x : Target} (hx : x ∈ (w.alert r).targets) (hst : x.status = .held) : x ∈ ((w.alert r).closing c rem).targets :=
    List.mem_map.2 ⟨x, hx, Target.dropped_of_held hst⟩
  refine ⟨hv.frame.trans (.of_record hframe), fun n e he => ?_, fun x hx hst hc => ?_, fun x hx hst hc => ?_⟩
  · rw [hframe.entry]
    exact (hv.active n e he).entry
  · exact (hv.left x (hmem hx hst) hst hc).of_services hframe.services
  · rw [hstay ⟨x, hx, hst, hc⟩]
    exact hv.handed x (hmem hx hst) hst hc

end

/-! ### The row and the command (R179) -/

theorem exec_alertExpiry {l0 : Nat} {r : Fin 4} (hreset : s.resetAsserted = false) (hon : (s.alert r.val).st = .on)
    (ht : (s.alert r.val).timer = some l0) :
    exec (.alertExpiry r) s = .next (rest (endAlert (advanceTo s (addMod nClk l0 (s.alert r.val).remTicks)) r.val .expired 0)) := by
  refine congrArg Host.Outcome.next ?_
  unfold alertExpiry
  simp [hon, ht, hreset]

theorem recordOf_eq_some (hr : r < 4) (hst : (s.alert r).st ≠ .idle)
    (h : ∀ q, q < 4 → q ≠ r → (s.alert q).st = .idle ∨ (s.alert q).id ≠ (s.alert r).id) : recordOf s (s.alert r).id = some r := by
  have hsome : (recordOf s (s.alert r).id).isSome = true := (recordOf_isSome_iff _).2 ⟨r, hr, hst, rfl⟩
  obtain ⟨q, hq⟩ := Option.isSome_iff_exists.1 hsome
  have hp := List.find?_some hq
  rw [Bool.and_eq_true, bne_iff_ne, beq_iff_eq] at hp
  by_cases hqr : q = r
  · rw [hq, hqr]
  · have hq4 : q < 4 := List.mem_range.1 (List.mem_of_find?_eq_some hq)
    rcases h q hq4 hqr with h | h
    · exact absurd h hp.1
    · exact absurd hp.2 h

theorem runAlertCancel_of_record {id : Nat} (hid : id ≠ 0) (h : recordOf s id = some r) : runAlertCancel id 0 s =
    let a := s.alert r
    let reply := [byte1 r, byte1 a.st.code] ++ leBytes 4 (remaining s a / 27000) ++ leBytes 2 (a.count (·.status == .held))
    if a.st = .on then ok (rest (endAlert s r .cancelled (remaining s a))) reply else ok s reply := by
  unfold runAlertCancel
  rw [if_neg (by simp [hid]), h]

/-- Settles O32: the expiry and the cancel end a record by `endAlert`, target by target. -/
theorem alertRecordEndsByExpiryOrCancel : Obligations.AlertRecordEndsByExpiryOrCancel := by
  unfold Obligations.AlertRecordEndsByExpiryOrCancel
  intro counts leaves stays ends
  have hends (w : State) (r : Nat) (c : EndCause) (rem : Nat) (hr : r < 4) : ends w r c rem (endAlert w r c rem) := by
    refine ⟨fun hno => endAlert_none hno, fun x ht ⟨hst, hc⟩ hret hb hclk hlead => endAlert_one_stays ht hst hc hret hb hclk hlead,
      fun x ht ⟨hst, hc⟩ hno => ?_, fun hnd hwf hnum => ?_⟩
    · obtain ⟨v, h1, h2, h3, h4, h5⟩ := endAlert_one_leaves (c := c) (rem := rem) ht hst hc hno
      exact ⟨v, h1, h2, h3, h4, h5⟩
    · obtain ⟨hframe, hactive, hleft, hhand⟩ := endAlert_targets (c := c) (rem := rem) hr hnd
      refine ⟨hframe, fun n e he hst => hactive n e ⟨⟨hwf, hnum⟩, he, hst⟩, fun hno => endAlert_ends hr hnd hno,
        fun hgo => endAlert_goes_on hr hnd hgo, fun x hx ⟨hst, hc⟩ => ?_, fun x hx ⟨hst, hc⟩ => ?_⟩
      · obtain ⟨h1, h2⟩ := hleft x hx hst hc
        exact ⟨h1, h2⟩
      · obtain ⟨h1, h2, h3, h4⟩ := hhand x hx hst hc
        exact ⟨h1, h2, h3, h4⟩
  refine ⟨fun s r l0 hreset hon ht => ?_, fun s id res ht => ⟨fun hbad => ?_, fun hid hres hno => ?_⟩, fun s r ht hr hid huniq => ?_⟩
  · obtain ⟨y, hy, hreach⟩ := advanceTo_cases (s := s) (addMod nClk l0 (s.alert r.val).remTicks)
    refine ⟨advanceTo s (addMod nClk l0 (s.alert r.val).remTicks), _, exec_alertExpiry hreset hon ht, by rw [hy], ?_, hends _ _ _ _ r.isLt⟩
    rw [hy]
    exact hreach
  · refine exec_only_answers (run := runAlertCancel id res) rfl ht rfl ?_
    unfold runAlertCancel
    exact if_pos hbad
  · refine exec_only_answers (run := runAlertCancel id res) rfl ht rfl ?_
    have hnone : recordOf s id = none := Option.not_isSome_iff_eq_none.1 fun h => by
      obtain ⟨q, hq, hst, hqid⟩ := (recordOf_isSome_iff id).1 h
      rcases hno q hq with h | h
      · exact hst h
      · exact h hqid
    obtain ⟨l, hl⟩ : ∃ l, openExchange s .ap 0x42 = { s with links := l } := ⟨_, openExchange_frame s .ap 0x42⟩
    unfold runAlertCancel
    rw [if_neg (by simp [hid, hres]), hl, show recordOf { s with links := l } id = none from hnone]
    rfl
  · intro a reply
    obtain ⟨l, hl⟩ : ∃ l, openExchange s .ap 0x42 = { s with links := l } := ⟨_, openExchange_frame s .ap 0x42⟩
    have hfound (hst : a.st ≠ .idle) : recordOf (openExchange s .ap 0x42) a.id = some r := by
      rw [hl]
      exact recordOf_eq_some (s := s) hr hst huniq
    refine ⟨fun l0 hon htimer => ?_, fun hend htimer => ?_⟩
    · refine ⟨openExchange s .ap 0x42, _, ?_, openExchange_frame s .ap 0x42, hends _ _ _ _ hr⟩
      have hrun := runAlertCancel_of_record hid (hfound (by rw [hon]; nofun))
      have hexec : exec (.alertCancel .ap a.id 0) s = .next ((runAlertCancel a.id 0 (openExchange s .ap 0x42)).done .ap) :=
        congrArg Host.Outcome.next (command_taken s .ap 0x42 (runAlertCancel a.id 0) ht rfl)
      have hal : (openExchange s .ap 0x42).alert r = a := by rw [hl]; rfl
      have hrem : remaining (openExchange s .ap 0x42) a = a.remTicks - (sdiff nClk s.localCount l0).toNat := by
        rw [hl]
        unfold remaining
        rw [htimer]
        rfl
      rw [hexec, hrun]
      simp only [hal, hon, hrem]
      rfl
    · refine exec_only_answers (run := runAlertCancel a.id 0) rfl ht rfl ?_
      have hal : (openExchange s .ap 0x42).alert r = a := by rw [hl]; rfl
      have hrem : remaining (openExchange s .ap 0x42) a = a.remTicks := by
        unfold remaining
        rw [htimer]
      rw [runAlertCancel_of_record hid (hfound (by rw [hend]; nofun))]
      simp only [hal, hend, hrem]
      rfl

end Sys2Proof.Machine
end

section
/-! What a reported cut leaves of a splice record and of the flags: the roles, and the conditions that no cut raises (R76, R79, R94). -/

namespace Sys2Proof.Machine

variable {s t u : State} {i j k n r : Nat} {e : Entry} {P : State → Prop}

/-! ### What the acts behind a report of a cut keep, the report keeps -/

theorem setE_keeps (hset : ∀ t n x, P t → P (t.setEntry n (some x))) (hhand : ∀ t j e, P t → P (handE t j e)) (h : P s) (n e : Nat) :
    P (setE s n e) := by
  unfold setE
  split
  · exact hhand _ _ _ (hset _ _ _ h)
  · exact h

section
variable (hrun : RunsKeep EntryState.idle P) (hend : ∀ t e r, P t → P (endEntry t e r)) (hset : ∀ t n x, P t → P (t.setEntry n (some x)))
  (hhand : ∀ t j e, P t → P (handE t j e)) (hclear : ∀ t j, P t → P (t.modSp j SpliceRec.clearReturn))
  (hdisown : ∀ t j, P t → P (t.modSp j SpliceRec.disown)) (halert : ∀ t r f, P t → P (t.modAlert r f))
include hrun hend hset hhand hclear hdisown halert

omit halert in
theorem activate_keeps (h : P s) (n sEff delta : Nat) (v : Seal) : P (activate s n sEff delta v) := by
  have hE {w : State} (hw : P w) (n e : Nat) : P (setE w n e) := setE_keeps hset hhand hw n e
  unfold activate
  split
  · exact h
  · next e he =>
    extract_lets i one lower s1 s2 s3 s4
    have h1 : P s1 := by
      unfold s1
      cases lower with
      | some l => exact hdisown _ _ (hend _ _ _ h)
      | none => exact h
    have h3 : P s3 := hset _ _ _ (hclear _ _ h1)
    have h4 : P s4 := by
      unfold s4
      cases e.retMode with
      | duration d => exact hE h3 _ _
      | clipEnd =>
        dsimp only
        split
        · exact hE h3 _ _
        · exact h3
      | cue =>
        dsimp only
        split
        · split
          · exact hE h3 _ _
          · exact h3
        · exact h3
    split
    · exact hrun.poolFreed (EntryState.idle_waiting _) _ h4
    · exact h4

omit hrun hend hclear hdisown halert in
theorem podAdvance_keeps (h : P s) (n delta : Nat) (v : Seal) : P (podAdvance s n delta v) := by
  unfold podAdvance
  split
  · exact h
  · dsimp only
    split
    · exact setE_keeps hset hhand (hset _ _ _ h) _ _
    · exact hset _ _ _ h

omit hset hhand in
theorem alertCut_keeps (h : P s) (r i : Nat) : P (alertCut s r i) := by
  unfold alertCut
  split
  · split
    · exact h
    · dsimp only
      split
      · exact hrun.poolFreed (EntryState.idle_waiting _) _ (hdisown _ _ (hend _ _ _ (hclear _ _ (halert _ _ _ h))))
      · exact hclear _ _ (halert _ _ _ h)
  · exact h

theorem reportCut_keeps (h : P s) (i : Nat) (o : Owner) (sEff delta : Nat) (v : Seal) : P (reportCut s i o sEff delta v) := by
  unfold reportCut
  split
  · split
    · split
      · exact podAdvance_keeps hset hhand h _ _ _
      · exact activate_keeps hrun hend hset hhand hclear hdisown h _ _ _ _
    · exact h
  · exact alertCut_keeps hrun hend hclear hdisown halert h _ _
  · exact h

end

/-! ### What asking for instances and discarding them can change -/

/-- At most the next role, with what is of it, and the waiting request have changed, and nothing of an instance that has cut. -/
structure SpliceRec.Asked (p q : SpliceRec) : Prop where
  frame : q = { p with nxt := q.nxt, waiting := q.waiting, head := q.head, raReq := q.raReq }
  carried : ∀ n, p.nxt = some n → n.phase ≠ .seeking → q.nxt = some n ∧ q.head = p.head ∧ q.raReq = p.raReq
  empty : p.head = none → q.head = none

theorem SpliceRec.Asked.refl (p : SpliceRec) : p.Asked p := ⟨rfl, fun _ h _ => ⟨h, rfl, rfl⟩, id⟩

theorem SpliceRec.Asked.trans {p q o : SpliceRec} (h : p.Asked q) (k : q.Asked o) : p.Asked o where
  frame := by rw [k.frame, h.frame]
  carried n hn hp := by
    obtain ⟨h1, h2, h3⟩ := h.carried n hn hp
    obtain ⟨k1, k2, k3⟩ := k.carried n h1 hp
    exact ⟨k1, k2.trans h2, k3.trans h3⟩
  empty hp := k.empty (h.empty hp)

/-- Service `i` has been asked for instances, or they have been discarded. -/
def Asked (i : Nat) (s t : State) : Prop := (s.sp i).Asked (t.sp i)

namespace Asked

theorem refl (s : State) : Asked i s s := SpliceRec.Asked.refl _
theorem trans (h : Asked i s t) (k : Asked i t u) : Asked i s u := SpliceRec.Asked.trans h k
theorem of_sp (h : t.sp i = s.sp i) : Asked i s t := by
  unfold Asked
  rw [h]
  exact SpliceRec.Asked.refl _

theorem ret (h : Asked i s t) : (t.sp i).ret = (s.sp i).ret := by rw [h.frame]
theorem retBegun (h : Asked i s t) : (t.sp i).retBegun = (s.sp i).retBegun := by rw [h.frame]
theorem fixE (h : Asked i s t) : (t.sp i).fixE = (s.sp i).fixE := by rw [h.frame]
theorem cur (h : Asked i s t) : (t.sp i).cur = (s.sp i).cur := by rw [h.frame]
theorem comps (h : Asked i s t) : (t.sp i).comps = (s.sp i).comps := by rw [h.frame]
theorem sigmaP (h : Asked i s t) : (t.sp i).sigmaP = (s.sp i).sigmaP := by rw [h.frame]
theorem cutX (h : Asked i s t) : (t.sp i).cutX = (s.sp i).cutX := by rw [h.frame]

theorem modWaiting (s : State) (j : Nat) (f : SpliceRec → Option InstReq) :
    Asked i s (s.modSp j (fun p => { p with waiting := f p })) := by
  unfold Asked
  rw [State.sp_modSp]
  split
  · next h =>
    rw [h]
    exact ⟨rfl, fun _ h _ => ⟨h, rfl, rfl⟩, id⟩
  · exact SpliceRec.Asked.refl _

/-- A SEEKING instance that is discarded leaves the next role. -/
theorem discardNext (s : State) (j : Nat) {x : Inst} (hx : (s.sp j).nxt = some x) (hp : x.phase = .seeking) :
    Asked i s (discardRole s j .next) := by
  by_cases h : i = j
  · subst h
    unfold Asked
    rw [State.sp, State.sp, discardRole_svc, if_pos rfl, ← State.sp]
    refine ⟨rfl, fun n hn hs => ?_, fun hh => ?_⟩
    · cases hx.symm.trans hn
      exact absurd hp hs
    · dsimp only
      rw [hh, ite_self]
  · exact of_sp (congrArg Service.sp ((SpliceOnly.discardRole j s .next).others i h))

theorem discardSeeking (s : State) (j : Nat) (o : Owner) : Asked i s (discardSeeking s j o) := by
  unfold Machine.discardSeeking
  extract_lets s1
  have h1 : Asked i s s1 := by
    dsimp only [s1]
    split
    · next x hx =>
      split
      · next h => exact discardNext s j hx h.1
      · exact refl s
    · exact refl s
  exact h1.trans (modWaiting s1 j _)

theorem placeInst (s : State) (j : Nat) (q : InstReq) (h : (s.sp j).nxt = none) : Asked i s (placeInst s j q) := by
  unfold Machine.placeInst
  split
  · exact refl s
  · split
    · exact refl s
    · unfold Asked
      dsimp only
      rw [raiseIf_sp, State.sp_modSp]
      split
      · next hi =>
        subst hi
        exact ⟨rfl, fun n hn => absurd (h.symm.trans hn) nofun, id⟩
      · exact SpliceRec.Asked.refl _

theorem requestNext (s : State) (j : Nat) (q : InstReq) : Asked i s (requestNext s j q) := by
  unfold Machine.requestNext
  split
  · next h => exact placeInst s j q h
  · next x hx =>
    split
    · next hp =>
      refine (discardNext s j hx hp).trans (placeInst _ j q ?_)
      obtain ⟨a, b, hd⟩ := discardRole_next_sp (s := s) (i := j)
      rw [hd]
    · exact modWaiting s j fun _ => some q

theorem endEntry (s : State) (e : Entry) (r : EntryResult) : Asked i s (endEntry s e r) := by
  have hd : Asked i s (if e.st = .armed then Machine.discardSeeking s e.svc (.entry e.num) else s) := by
    split
    · exact discardSeeking s _ _
    · exact refl s
  refine hd.trans (of_sp ?_)
  rw [Machine.endEntry, foldl_dropRef_frame]
  rfl

theorem demote (s : State) (e : Entry) : Asked i s (demote s e) := (discardSeeking s e.svc _).trans (of_sp rfl)

theorem yielded (s : State) (j : Nat) : Asked i s (s.yielded j) := by
  unfold State.yielded
  split
  · exact demote s _
  · exact refl s

theorem runsKeep (i : Nat) (s : State) : RunsKeep EntryState.idle (Asked i s) := fun t n x h hx _ => by
  rcases armRun_cases hx with ⟨a, r, hu⟩ | ⟨a, c, hu⟩ | ⟨a, sp, b, -, -, hu⟩
  · rw [hu]
    exact h.trans (endEntry t _ r)
  · rw [hu]
    exact h.trans (of_sp rfl)
  · rw [hu]
    refine (h.trans (yielded t x.svc)).trans ?_
    refine Asked.trans (t := (t.yielded x.svc).setEntry n (some { x with st := .armed, a := a, s := some sp, commitment := podRate t x.pod }))
      (of_sp rfl) ?_
    exact (requestNext _ x.svc _).trans (of_sp (raiseIf_sp _ _ _ _))

theorem poolFreed (s : State) (k : Nat) : Asked i s (poolFreed s k) := (runsKeep i s).poolFreed (EntryState.idle_waiting _) k (refl s)
theorem reeval (s : State) (j : Nat) (c : WaitCause) : Asked i s (reeval s j c) :=
  (runsKeep i s).reeval (EntryState.idle_waiting _) (EntryState.idle_waiting _) j (refl s)

end Asked

/-! ### The roles behind a cut -/

/-- The instance that has cut stands in the next role, with the head as it was, and the current one is disowned at most. -/
structure SpliceRec.RolesKept (p q : SpliceRec) : Prop where
  carried : ∀ n, p.nxt = some n → n.phase ≠ .seeking → q.nxt = some n ∧ q.head = p.head
  playing : ∀ x, p.cur = some x → ∃ o, q.cur = some { x with owner := o } ∧ (o = x.owner ∨ o = .ended)

def RolesKept (i : Nat) (s t : State) : Prop := (s.sp i).RolesKept (t.sp i)

namespace RolesKept

theorem refl (s : State) : RolesKept i s s := ⟨fun _ h _ => ⟨h, rfl⟩, fun x h => ⟨x.owner, h, .inl rfl⟩⟩

theorem trans (h : RolesKept i s t) (k : RolesKept i t u) : RolesKept i s u where
  carried n hn hp := by
    obtain ⟨h1, h2⟩ := h.carried n hn hp
    obtain ⟨k1, k2⟩ := k.carried n h1 hp
    exact ⟨k1, k2.trans h2⟩
  playing x hx := by
    obtain ⟨o, ho, hown⟩ := h.playing x hx
    obtain ⟨o', ho', hown'⟩ := k.playing _ ho
    refine ⟨o', ho', ?_⟩
    rcases hown' with rfl | rfl
    · exact hown
    · exact .inr rfl

theorem of_sp (h : t.sp i = s.sp i) : RolesKept i s t := by
  unfold RolesKept
  rw [h]
  exact refl s

theorem of_asked (h : Asked i s t) : RolesKept i s t :=
  ⟨fun n hn hp => ⟨(h.carried n hn hp).1, (h.carried n hn hp).2.1⟩, fun x hx => ⟨x.owner, h.cur.trans hx, .inl rfl⟩⟩

theorem modSp (s : State) (j : Nat) {f : SpliceRec → SpliceRec} (hf : ∀ p : SpliceRec, p.RolesKept (f p)) : RolesKept i s (s.modSp j f) := by
  unfold RolesKept
  rw [State.sp_modSp]
  split
  · next h => rw [h]; exact hf _
  · exact refl s

theorem handE (s : State) (j e : Nat) : RolesKept i s (handE s j e) := by
  unfold Machine.handE
  split
  · exact refl s
  · exact modSp s j fun _ => ⟨fun _ h _ => ⟨h, rfl⟩, fun x h => ⟨x.owner, h, .inl rfl⟩⟩

theorem clearReturn (s : State) (j : Nat) : RolesKept i s (s.modSp j SpliceRec.clearReturn) :=
  modSp s j fun _ => ⟨fun _ h _ => ⟨h, rfl⟩, fun x h => ⟨x.owner, h, .inl rfl⟩⟩

theorem disown (s : State) (j : Nat) : RolesKept i s (s.modSp j SpliceRec.disown) := by
  refine modSp s j fun p => ⟨fun _ h _ => ⟨h, rfl⟩, fun x h => ?_⟩
  rw [SpliceRec.disown, h, Option.map_some]
  split
  · exact ⟨.ended, rfl, .inr rfl⟩
  · exact ⟨x.owner, rfl, .inl rfl⟩

theorem reportCut (s : State) (j : Nat) (o : Owner) (sEff delta : Nat) (v : Seal) : RolesKept i s (reportCut s j o sEff delta v) :=
  reportCut_keeps (P := RolesKept i s) (fun t n _ h hx hst => h.trans (of_asked (Asked.runsKeep i t t n _ (Asked.refl t) hx hst)))
    (fun t e r h => h.trans (of_asked (Asked.endEntry t e r))) (fun _ _ _ h => h.trans (of_sp rfl)) (fun t j e h => h.trans (handE t j e))
    (fun t j h => h.trans (clearReturn t j)) (fun t j h => h.trans (disown t j)) (fun _ _ _ h => h.trans (of_sp rfl)) (refl s) j o sEff delta v

end RolesKept

/-! ### FORCED, which no report raises -/

/-- FORCED of service `i` is as it was. -/
def ForcedKept (i : Nat) (s t : State) : Prop :=
  (t.svc i).cond.flags.getLsbD Cond.forced.pos = (s.svc i).cond.flags.getLsbD Cond.forced.pos

namespace ForcedKept

theorem refl (s : State) : ForcedKept i s s := rfl
theorem trans (h : ForcedKept i s t) (k : ForcedKept i t u) : ForcedKept i s u := Eq.trans k h

theorem of_cond (h : (t.svc i).cond = (s.svc i).cond) : ForcedKept i s t := by rw [ForcedKept, h]

theorem of_services (h : t.services = s.services) : ForcedKept i s t := of_cond (by rw [State.svc, h]; rfl)

theorem of_splice (h : SpliceOnly j s t) : ForcedKept i s t := by
  by_cases hi : i = j
  · subst hi
    exact of_cond (by rw [h.own])
  · exact of_cond (by rw [h.others i hi])

theorem raise (s : State) (j : Nat) {c : Cond} (hc : c ≠ .forced) : ForcedKept i s (raise s j c) := by
  unfold ForcedKept
  rw [raise_svc]
  split
  · next h =>
    subst h
    cases c with
    | forced => exact absurd rfl hc
    | _ => simp [condBit, Cond.pos]
  · rfl

theorem raiseIf (b : Bool) (s : State) (j : Nat) {c : Cond} (hc : c ≠ .forced) : ForcedKept i s (raiseIf b s j c) := by
  cases b
  · exact refl s
  · exact raise s j hc

theorem placeInst (s : State) (j : Nat) (q : InstReq) : ForcedKept i s (placeInst s j q) := by
  unfold Machine.placeInst
  split
  · exact refl s
  · split
    · exact refl s
    · exact (of_splice (SpliceOnly.modSp j s _)).trans (raiseIf _ _ j (by decide))

theorem requestNext (s : State) (j : Nat) (q : InstReq) : ForcedKept i s (requestNext s j q) := by
  unfold Machine.requestNext
  split
  · exact placeInst s j q
  · split
    · exact (of_splice (SpliceOnly.discardRole j s .next)).trans (placeInst _ j q)
    · exact of_splice (SpliceOnly.modSp j s _)

theorem endEntry (s : State) (e : Entry) (r : EntryResult) : ForcedKept i s (endEntry s e r) := by
  obtain ⟨d, hd, he⟩ := endEntry_spliceOnly s e r
  rw [he, foldl_dropRef_frame]
  exact (of_splice hd).trans (of_services rfl)

theorem demote (s : State) (e : Entry) : ForcedKept i s (demote s e) :=
  (of_splice (SpliceOnly.discardSeeking e.svc s _)).trans (of_services rfl)

theorem runsKeep (i : Nat) (s : State) : RunsKeep EntryState.idle (ForcedKept i s) := fun t n x h hx _ => by
  rcases armRun_cases hx with ⟨a, r, hu⟩ | ⟨a, c, hu⟩ | ⟨a, sp, b, -, -, hu⟩
  · rw [hu]
    exact h.trans (endEntry t _ r)
  · rw [hu]
    exact h.trans (of_services rfl)
  · have hy : ForcedKept i t (t.yielded x.svc) := by
      unfold State.yielded
      split
      · exact demote t _
      · exact refl t
    rw [hu]
    refine (h.trans hy).trans ?_
    refine ForcedKept.trans (t := (t.yielded x.svc).setEntry n (some { x with st := .armed, a := a, s := some sp, commitment := podRate t x.pod }))
      (of_services rfl) ?_
    exact (requestNext _ x.svc _).trans (raiseIf b _ x.svc (by decide))

theorem handE (s : State) (j e : Nat) : ForcedKept i s (handE s j e) := by
  unfold Machine.handE
  split
  · exact refl s
  · exact of_splice (SpliceOnly.modSp j s _)

theorem reportCut (s : State) (j : Nat) (o : Owner) (sEff delta : Nat) (v : Seal) : ForcedKept i s (reportCut s j o sEff delta v) :=
  reportCut_keeps (P := ForcedKept i s) (runsKeep i s) (fun t e r h => h.trans (endEntry t e r)) (fun _ _ _ h => h.trans (of_services rfl))
    (fun t j e h => h.trans (handE t j e)) (fun t j h => h.trans (of_splice (SpliceOnly.modSp j t _)))
    (fun t j h => h.trans (of_splice (SpliceOnly.modSp j t _))) (fun _ _ _ h => h.trans (of_services rfl)) (refl s) j o sEff delta v

end ForcedKept

end Sys2Proof.Machine
end

section
/-! The packet of the clip that plays, with a newcomer SEEKING behind it: the cut to the newcomer, at its point, by force or at
exhaustion (R84, R85), and what the cut reports (R64, R69, R94, R177). -/

namespace Sys2Proof.Machine

variable {s t u v w : State} {i j c m n r sEff delta due : Nat} {o nx x : Inst} {b : Pkt} {e a : Entry} {forced : Bool} {g : Target}

/-! ### The packet is taken (R91) -/

theorem took_kept (s : State) (i : Nat) (o : Inst) (b : Pkt) : Kept s (s.took i o b) :=
  Kept.raiseIf (Kept.modSp (Kept.refl s) i _) _ i .wrap

theorem fillHead_seeking (hhead : (s.sp i).head = none) (hcur : (s.sp i).cur = some o) (hnxt : (s.sp i).nxt = some nx)
    (hseek : nx.phase = .seeking) (hb : o.packet = some b) : fillHead s i = some (takePacket s i .current o b) := by
  simp [fillHead, hhead, offerCur, offerNext, hcur, hnxt, hseek, hb]

theorem takePacket_current (s : State) (i : Nat) (o : Inst) (b : Pkt) : takePacket s i .current o b =
    exhaust (repeatEnd (match examineCur (s.took i o b) i (o.took b) b (dueOf s i o) with
      | some u => u
      | none => placeHead (s.took i o b) i .current (o.took b) b (dueOf s i o)) i) i := rfl

theorem Kept.seekOverdue (h : Kept s t) (i : Nat) (x : Inst) : seekOverdue t i x = seekOverdue s i x := by
  have hpast (y l : Nat) : pastDeadline t i y l = pastDeadline s i y l := by simp only [pastDeadline, h.estimate]
  have hdone (y : Option Nat) (l : Nat) : timerDone t y l = timerDone s y l := by
    unfold timerDone sinceTicks
    rw [h.localCount]
  simp only [Machine.seekOverdue, hpast, hdone]

theorem Kept.openTimer (h : Kept s t) (i : Nat) : openTimer t i = openTimer s i := by
  rw [Machine.openTimer, h.estimate, h.localCount, Machine.openTimer]

theorem searchMode_clip {p : SpliceRec} (hc : p.cur = some o) (hr : p.ret ≠ .emergency) (hb : p.retBegun = false) :
    searchMode p = .clip := by
  simp [searchMode, hc, hr, hb]

/-- Where no return is open, the lead packet decides by the newcomer's cut point alone (R84). -/
theorem examineCur_cut (hcur : (s.sp i).cur = some o) (hnxt : (s.sp i).nxt = some nx) (hseek : nx.phase = .seeking)
    (hret : (s.sp i).ret = .idle) (hbeg : (s.sp i).retBegun = false) (hlead : o.leadComp = some c) (hc : o.compOf b = some c)
    (hst : o.isStopped c = false) (hp : cutPoint (seekOverdue s i nx) nx (rebasedPts o b) = some (sEff, forced)) :
    examineCur s i o b due = some (clipCut (raiseIf forced s i .forced) i c nx sEff due) := by
  have hmode : searchMode (s.sp i) = .clip := searchMode_clip hcur (by rw [hret]; nofun) hbeg
  have hstop : stopsAtE s i (rebasedPts o b) = false := by simp [stopsAtE, hret]
  have hcut : clipCutOf s i o c (rebasedPts o b) = some (nx, sEff, forced) := by
    simp [clipCutOf, hnxt, hseek, hmode, hlead, hp]
  simp [examineCur, hc, hst, hstop, hcut]

/-- Where the packet brings no cut, it leaves the store for nothing or for the head. -/
theorem examineCur_no_cut (hnxt : (s.sp i).nxt = some nx) (hseek : nx.phase = .seeking) (hret : (s.sp i).ret = .idle)
    (hp : o.compOf b ≠ o.leadComp ∨ cutPoint (seekOverdue s i nx) nx (rebasedPts o b) = none) :
    examineCur s i o b due = some s ∨ examineCur s i o b due = none := by
  unfold examineCur
  cases hc : o.compOf b with
  | none => exact .inl rfl
  | some d =>
    have hstop : stopsAtE s i (rebasedPts o b) = false := by simp [stopsAtE, hret]
    have hcut : clipCutOf s i o d (rebasedPts o b) = none := by
      unfold clipCutOf
      simp only [hnxt]
      split
      · next h =>
        rcases hp with hp | hp
        · exact absurd (hc.trans h.2.2.symm) hp
        · rw [hp]
          rfl
      · rfl
    have hout : outgoingStop s i (rebasedPts o b) = none := by simp [outgoingStop, hnxt, hseek]
    dsimp only
    split
    · exact .inl rfl
    · simp only [hstop, Bool.false_eq_true, if_false, hcut, hout]
      split
      · exact .inl rfl
      · exact .inr rfl

/-! ### The state that a cut from the clip reports (R84) -/

/-- The state at the report of a cut from the clip. -/
def State.clipTaken (s : State) (i c : Nat) (nx : Inst) (sEff due : Nat) : State :=
  s.modSp i (fun p => { p with cur := p.cur.map (·.stop c), nxt := some (incoming s i nx sEff due) })

theorem clipCut_eq (s : State) (i c : Nat) (nx : Inst) (sEff due : Nat) : clipCut s i c nx sEff due =
    reportCut (s.clipTaken i c nx sEff due) i nx.owner sEff (cutDelta sEff nx.sealVals) nx.sealVals := rfl

/-- The state at the report of a cut at exhaustion (R85). -/
def State.exhaustTaken (s : State) (i : Nat) (o nx : Inst) (sEff : Nat) : State :=
  s.modSp i (fun p =>
    { p with cur := p.cur.map (fun o => { o with stopped := o.stopped.map (fun _ => true), phase := .ending })
             nxt := some (incoming s i nx sEff (dueOf s i o)) })

theorem exhaustCut_eq (hx : nx.s = some sEff) : exhaustCut s i o nx =
    reportCut (s.exhaustTaken i o nx sEff) i nx.owner sEff (cutDelta sEff nx.sealVals) nx.sealVals := by
  unfold exhaustCut
  simp only [hx, Option.isSome_some, if_true, Option.getD_some]
  rfl

theorem clipTaken_sp (hcur : (s.sp i).cur = some o) (hk : Kept w s) : (s.clipTaken i c nx sEff due).sp i =
    { s.sp i with cur := some (o.stop c), nxt := some (incoming w i nx sEff due) } := by
  rw [State.clipTaken, State.sp_modSp, if_pos rfl, hcur]
  have hin : incoming s i nx sEff due = incoming w i nx sEff due := by simp only [incoming, hk.openTimer]
  rw [hin]
  rfl

/-- With the newcomer cut in, there is nothing to exhaust. -/
theorem exhaust_of_cut (hnxt : (s.sp i).nxt = some nx) (hp : nx.phase ≠ .seeking) : exhaust s i = s := by
  unfold exhaust
  rw [hnxt]
  cases (s.sp i).cur with
  | none => rfl
  | some o => exact if_neg fun h => hp h.2.1

theorem SpliceOnly.handE (i : Nat) (s : State) (x : Nat) : SpliceOnly i s (handE s i x) := by
  unfold Machine.handE
  split
  · exact SpliceOnly.refl i s
  · exact SpliceOnly.modSp i s _

theorem handE_sp (s : State) (i x : Nat) : (handE s i x).sp i = s.sp i ∨ ∃ timer seek, (handE s i x).sp i = (s.sp i).handed x timer seek := by
  unfold handE
  split
  · exact .inl rfl
  · exact .inr ⟨_, _, by rw [State.sp_modSp, if_pos rfl]; rfl⟩

/-- The record with the end of its clip as the return point (R178). -/
def State.clipEnded (s : State) (r i : Nat) (o : Inst) : State :=
  s.modAlert r (fun a => a.modTarget i (fun t => { t with e := some (endOf o.sealVals (o.delta.getD 0)) }))

theorem handClipEnd_splice (s : State) (r i : Nat) (o : Inst) : SpliceOnly i (s.clipEnded r i o) (handClipEnd s r i o) :=
  (SpliceOnly.handE i (s.clipEnded r i o) _).trans (SpliceOnly.modSp i (handE (s.clipEnded r i o) i (endOf o.sealVals (o.delta.getD 0)))
    (fun p => { p with fixE := (s.sp i).fixE && !p.retBegun }))

/-- The end of a repeated clip leaves the roles. -/
theorem repeatEnd_sp (s : State) (i : Nat) : ((repeatEnd s i).sp i).cur = (s.sp i).cur ∧ ((repeatEnd s i).sp i).nxt = (s.sp i).nxt
    ∧ ((repeatEnd s i).sp i).head = (s.sp i).head ∧ ((repeatEnd s i).sp i).sigmaP = (s.sp i).sigmaP := by
  rcases repeatEnd_cases s i with h | ⟨o, nx, r, -, -, -, -, -, -, -, h⟩ <;> rw [h]
  · exact ⟨rfl, rfl, rfl, rfl⟩
  · have hsp : (handClipEnd s r i o).sp i = { (handE (s.clipEnded r i o) i (endOf o.sealVals (o.delta.getD 0))).sp i with
        fixE := (s.sp i).fixE && !((handE (s.clipEnded r i o) i (endOf o.sealVals (o.delta.getD 0))).sp i).retBegun } :=
      (State.sp_modSp _ i i _).trans (if_pos rfl)
    rw [hsp]
    rcases handE_sp (s.clipEnded r i o) i (endOf o.sealVals (o.delta.getD 0)) with h | ⟨_, _, h⟩ <;> rw [h] <;> exact ⟨rfl, rfl, rfl, rfl⟩

theorem repeatEnd_entries (s : State) (i : Nat) : (repeatEnd s i).entries = s.entries := by
  rcases repeatEnd_cases s i with h | ⟨o, nx, r, -, -, -, -, -, -, -, h⟩ <;> rw [h]
  rw [(handClipEnd_splice s r i o).frame]
  rfl

theorem repeatEnd_forced (s : State) (i : Nat) : ForcedKept i s (repeatEnd s i) := by
  rcases repeatEnd_cases s i with h | ⟨o, nx, r, -, -, -, -, -, -, -, h⟩ <;> rw [h]
  · exact ForcedKept.refl s
  · exact ForcedKept.trans (t := s.clipEnded r i o) (ForcedKept.of_services rfl) (.of_splice (handClipEnd_splice s r i o))

/-! ### What a cut reports to an entry (R69, R94) -/

theorem handE_entries (s : State) (i x : Nat) : (handE s i x).entries = s.entries := by
  unfold handE
  split <;> rfl

theorem setE_entry (he : s.entry n = some e) (x m : Nat) : (setE s n x).entry m = if m = n then some { e with e := some x } else s.entry m := by
  rw [setE, he]
  refine (congrArg (fun y => Table.get none y m) (handE_entries _ e.svc x)).trans ?_
  exact State.entry_setEntry s n _ m

/-- The cut of a pod transition (R69, R94). -/
theorem reportCut_active (he : s.entry m = some e) (hst : e.st = .active) (i : Nat) (v : Seal) : let t := reportCut s i (.entry m) sEff delta v
    t.entry m = some { e with
      podIdx := e.podIdx + 1, xEnd := if e.podIdx + 2 = e.pod.length then some (endOf v delta) else e.xEnd
      e := if e.podIdx + 2 = e.pod.length ∧ e.retMode = .clipEnd ∧ e.cancelled = false then some (endOf v delta) else e.e }
    ∧ ∀ n, n ≠ m → t.entry n = s.entry n := by
  intro t
  have ht : t = podAdvance s m delta v := by
    dsimp only [t]
    unfold reportCut
    simp only [he]
    exact if_pos hst
  rw [ht]
  unfold podAdvance
  simp only [he, beq_iff_eq]
  split
  · next h =>
    have hc : e.cancelled = false := by simpa using h.2.2
    refine ⟨?_, fun n hn => ?_⟩
    · rw [setE_entry (State.entry_setEntry_self s m _), if_pos rfl]
      simp [h.1, h.2.1, hc]
    · rw [setE_entry (State.entry_setEntry_self s m _), if_neg hn, State.entry_setEntry, if_neg hn]
  · next h =>
    refine ⟨?_, fun n hn => by rw [State.entry_setEntry, if_neg hn]⟩
    have hno : ¬(e.podIdx + 2 = e.pod.length ∧ e.retMode = .clipEnd ∧ e.cancelled = false) := fun hx => h (by simpa using hx)
    rw [State.entry_setEntry_self]
    simp only [hno, if_false]

theorem State.Numbered.setEntry_some (h : s.Numbered) (hm : s.entry m ≠ none) {x : Entry} (hx : x.num = m) :
    (s.setEntry m (some x)).Numbered := ((NoneJoins.refl h).setEntry_some hm hx).numbered

/-- Entry `m` is ACTIVE from its first cut, and entry `k` has ended. -/
def Activating (m sEff k : Nat) (t : State) : Prop :=
  ∃ y, t.ActiveAs m y ∧ y.sEff = some sEff ∧ y.podIdx = 0 ∧ t.entry k = none

theorem Activating.of_entries (h : Activating m sEff k s) (ht : t.entries = s.entries) : Activating m sEff k t := by
  obtain ⟨y, hy, hs, hp, hk⟩ := h
  exact ⟨y, hy.of_entries ht, hs, hp, by rw [State.entry, ht]; exact hk⟩

theorem Activating.runsKeep (m sEff k : Nat) : RunsKeep EntryState.idle (Activating m sEff k) := fun t n x ⟨y, hy, hs, hp, hk⟩ hx hst =>
  ⟨y, State.ActiveAs.runsKeep m y t n x hy hx hst, hs, hp, ((NoneJoins.refl hy.numbered).armRun n).absent k hk⟩

theorem Activating.setE (h : Activating m sEff k s) (x : Nat) : Activating m sEff k (setE s m x) := by
  obtain ⟨y, hy, hs, hp, hk⟩ := h
  have hent : (Machine.setE s m x).entries = (s.setEntry m (some { y with e := some x })).entries := by
    unfold Machine.setE
    rw [hy.entry]
    exact handE_entries _ _ _
  have hnum : (s.setEntry m (some { y with e := some x })).Numbered :=
    hy.numbered.setEntry_some (x := { y with e := some x }) (by rw [hy.entry]; nofun) (hy.numbered.num m y hy.entry)
  have hkm : k ≠ m := by
    rintro rfl
    exact absurd (hk.symm.trans hy.entry) nofun
  refine Activating.of_entries ⟨{ y with e := some x }, ⟨hnum, State.entry_setEntry_self s m _, hy.active⟩, hs, hp, ?_⟩ hent
  rw [State.entry_setEntry, if_neg hkm, hk]

/-- The cut that activates an entry over a lower one (R64, R69). -/
theorem activate_over (hs : s.Numbered) (he : s.entry m = some e) (hst : e.st = .armed) (ha : activeEntry s e.svc = some a) (v : Seal) :
    let t := activate s m sEff delta v
    (∃ x, t.entry m = some x ∧ x.st = .active ∧ x.sEff = some sEff ∧ x.podIdx = 0) ∧ t.entry a.num = none := by
  have hal := hs.entry_of_find ha
  have hne : m ≠ a.num := by
    rintro rfl
    cases he.symm.trans hal
    have hact : e.st = .active := by simpa using List.find?_some ha
    exact absurd (hst.symm.trans hact) nofun
  have hnum : e.num = m := hs.num m e he
  have h3 (z : Option Nat) : Activating m sEff a.num
      ((((endEntry s a .preempted).modSp e.svc SpliceRec.disown).modSp e.svc SpliceRec.clearReturn).setEntry m
        (some { e with st := .active, sEff := some sEff, podIdx := 0, xEnd := z })) := by
    have hm : (endEntry s a .preempted).entry m = some e := by rw [endEntry_entry_any, if_neg hne, he]
    have hend := ((NoneJoins.refl hs).endEntry a .preempted).numbered.setEntry_some
      (x := { e with st := .active, sEff := some sEff, podIdx := 0, xEnd := z }) (by rw [hm]; nofun) hnum
    refine Activating.of_entries (s := (endEntry s a .preempted).setEntry m
      (some { e with st := .active, sEff := some sEff, podIdx := 0, xEnd := z })) ⟨_, ⟨hend, State.entry_setEntry_self _ m _, rfl⟩, rfl, rfl, ?_⟩ rfl
    rw [State.entry_setEntry, if_neg hne.symm, endEntry_entry_any, if_pos rfl]
  have hact : Activating m sEff a.num (activate s m sEff delta v) := by
    unfold activate
    simp only [he, ha, Option.isSome_some, if_true]
    refine (Activating.runsKeep m sEff a.num).poolFreed (EntryState.idle_waiting _) _ ?_
    split
    · exact (h3 _).setE _
    · split
      · exact (h3 _).setE _
      · exact h3 _
    · split
      · split
        · exact (h3 _).setE _
        · exact h3 _
      · exact h3 _
  obtain ⟨y, hy, hseff, hpod, hgone⟩ := hact
  exact ⟨⟨y, hy.entry, hy.active, hseff, hpod⟩, hgone⟩

/-! ### What a cut reports to the alert unit (R64, R177) -/

theorem alertCut_again (hg : (s.alert r).target i = some g) (hc : g.cut = true) : alertCut s r i = s := by
  simp only [alertCut, hg, hc, if_true]

/-- The first cut of a hold: the target is marked, and the return is no more. -/
theorem alertCut_first (hg : (s.alert r).target i = some g) (hc : g.cut = false) : let u := alertCut s r i
    u.alert r = (s.alert r).modTarget i (fun t => { t with cut := true }) ∧ (∀ q, q ≠ r → u.alert q = s.alert q) ∧ (u.sp i).ret = .idle
    ∧ (activeEntry s i = none → u.entries = s.entries)
    ∧ ∀ e, activeEntry s i = some e → s.Numbered → u.entry e.num = none
      ∧ ((s.box e.origin).queue.length < 32 → e.endEvent .preempted ∈ (u.box e.origin).queue) := by
  let s2 := (s.modAlert r (fun a => a.modTarget i (fun t => { t with cut := true }))).modSp i SpliceRec.clearReturn
  have hal (q : Nat) : s2.alert q = if q = r then (s.alert r).modTarget i (fun t => { t with cut := true }) else s.alert q :=
    alert_modAlert s r (fun a => a.modTarget i (fun t => { t with cut := true })) q
  have hret : (s2.sp i).ret = .idle := by
    dsimp only [s2]
    rw [State.sp_modSp, if_pos rfl]
    rfl
  have hcut : alertCut s r i = match activeEntry s i with
      | some e => poolFreed ((endEntry s2 e .preempted).modSp i SpliceRec.disown) ((s.laneOf i).getD 0)
      | none => s2 := by
    simp only [alertCut, hg, hc, Bool.false_eq_true, if_false]
    rfl
  intro u
  have hu : u = _ := hcut
  cases ha : activeEntry s i with
  | none =>
    rw [ha] at hu
    rw [hu]
    exact ⟨by rw [hal, if_pos rfl], fun q hq => by rw [hal, if_neg hq], hret, fun _ => rfl, fun e he => by cases he⟩
  | some e =>
    rw [ha] at hu
    let w := (endEntry s2 e .preempted).modSp i SpliceRec.disown
    have hw : u = poolFreed w ((s.laneOf i).getD 0) := hu
    have hdisown : ScheduleFrame (endEntry s2 e .preempted) w := rfl
    have hframe : ScheduleFrame s2 u := by
      rw [hw]
      exact (((ScheduleFrame.refl s2).endEntry e _).trans hdisown).poolFreed _
    refine ⟨by rw [hframe.alert, hal, if_pos rfl], fun q hq => by rw [hframe.alert, hal, if_neg hq], ?_, nofun, fun x hx hs => ?_⟩
    · have hend : Asked i s2 (endEntry s2 e .preempted) := Asked.endEntry s2 e _
      have hdis : (w.sp i).ret = ((endEntry s2 e .preempted).sp i).ret := by
        dsimp only [w]
        rw [State.sp_modSp, if_pos rfl]
        rfl
      rw [hw, (Asked.poolFreed w _).ret, hdis, hend.ret, hret]
    · cases hx
      have hgone : w.entry e.num = none := (endEntry_entry_any .preempted e.num).trans (if_pos rfl)
      have hnum : w.Numbered := ((NoneJoins.refl (hs.of_entries (t := s2) rfl)).endEntry e .preempted).numbered.of_entries rfl
      refine ⟨?_, fun hroom => ?_⟩
      · rw [hw]
        exact ((NoneJoins.refl hnum).poolFreed _).absent _ hgone
      · have hbox : w.box e.origin = pushBox (s.box e.origin) (e.endEvent .preempted) :=
          (endEntry_box_any (s := s2) .preempted e.origin).trans (if_pos rfl)
        have hgrow := ((Kept.poolFreed (Kept.refl w) ((s.laneOf i).getD 0)).grows e.origin)
        rw [hw]
        refine hgrow.subset ?_
        rw [hbox]
        exact mem_pushBox _ _ hroom

/-! ### The cut at a packet (R84) -/

theorem forced_raised_sp (forced : Bool) : ((raiseIf forced (s.took i o b) i .forced).sp i) = { s.sp i with cur := some (o.took b) } := by
  rw [raiseIf_sp, took_sp]

/-- The state at the report of the cut that a packet brings. -/
def State.cutAtPacket (s : State) (i c : Nat) (o nx : Inst) (b : Pkt) (sEff : Nat) (forced : Bool) : State :=
  (raiseIf forced (s.took i o b) i .forced).clipTaken i c nx sEff (dueOf s i o)

theorem took_alerts (s : State) (i : Nat) (o : Inst) (b : Pkt) : (s.took i o b).alerts = s.alerts := by rw [took_frame]
theorem took_entries (s : State) (i : Nat) (o : Inst) (b : Pkt) : (s.took i o b).entries = s.entries := by rw [took_frame]

theorem raiseIf_alerts (f : Bool) (i : Nat) (c : Cond) : (raiseIf f s i c).alerts = s.alerts := by
  cases f
  · rfl
  · exact raise_alerts _ _ _

theorem cutAtPacket_entries : (s.cutAtPacket i c o nx b sEff forced).entries = s.entries :=
  (raiseIf_entries forced i .forced).trans (took_entries s i o b)

theorem cutAtPacket_alerts : (s.cutAtPacket i c o nx b sEff forced).alerts = s.alerts :=
  (raiseIf_alerts forced i .forced).trans (took_alerts s i o b)

theorem cutAtPacket_sp : (s.cutAtPacket i c o nx b sEff forced).sp i =
    { s.sp i with cur := some ((o.took b).stop c), nxt := some (incoming s i nx sEff (dueOf s i o)) } := by
  have hk : Kept s (raiseIf forced (s.took i o b) i .forced) := Kept.raiseIf (took_kept s i o b) _ _ _
  rw [State.cutAtPacket, clipTaken_sp (o := o.took b) (by rw [forced_raised_sp]) hk, forced_raised_sp]

theorem cutAtPacket_forced (h : forced = true) :
    ((s.cutAtPacket i c o nx b sEff forced).svc i).cond.flags.getLsbD Cond.forced.pos = true := by
  subst h
  have hsvc : ((s.cutAtPacket i c o nx b sEff true).svc i).cond = ((raise (s.took i o b) i .forced).svc i).cond := by
    refine congrArg Service.cond ((State.svc_modSvc _ i i _).trans (if_pos rfl)) |>.trans ?_
    rfl
  rw [hsvc]
  exact raise_flag _ _ _

/-- Every state after the report of a cut keeps the newcomer in the next role, the head free and the outgoing instance ENDING. -/
structure CutMade (s : State) (i : Nat) (z x : Inst) (t : State) : Prop where
  next : (t.sp i).nxt = some z
  head : (t.sp i).head = (s.sp i).head
  cur : ∃ o, (t.sp i).cur = some { x with owner := o } ∧ (o = x.owner ∨ o = .ended)

theorem RolesKept.cutMade {z : Inst} (h : RolesKept i u t) (hsp : u.sp i = { s.sp i with cur := some x, nxt := some z }) (hz : z.phase ≠ .seeking) :
    CutMade s i z x t where
  next := (h.carried z (by rw [hsp]) hz).1
  head := (h.carried z (by rw [hsp]) hz).2.trans (by rw [hsp])
  cur := h.playing x (by rw [hsp])

section
variable (hhead : (s.sp i).head = none) (hcur : (s.sp i).cur = some o) (hnxt : (s.sp i).nxt = some nx) (hseek : nx.phase = .seeking)
  (hret : (s.sp i).ret = .idle) (hbeg : (s.sp i).retBegun = false) (hb : o.packet = some b)
include hhead hcur hnxt hseek hret hbeg hb

/-- A packet that brings the cut: the head stays free, the newcomer cuts, and its owner has the report. -/
theorem fillHead_cut (hlead : o.leadComp = some c) (hc : o.compOf b = some c) (hst : o.isStopped c = false)
    (hp : cutPoint (seekOverdue s i nx) nx (rebasedPts o b) = some (sEff, forced)) :
    let u := reportCut (s.cutAtPacket i c o nx b sEff forced) i nx.owner sEff (cutDelta sEff nx.sealVals) nx.sealVals
    fillHead s i = some (repeatEnd u i)
    ∧ CutMade s i (incoming s i nx sEff (dueOf s i o)) ((o.took b).stop c) u
    ∧ CutMade s i (incoming s i nx sEff (dueOf s i o)) ((o.took b).stop c) (repeatEnd u i) := by
  intro u
  have hk := took_kept s i o b
  have hsp := took_sp (s := s) i o b
  have hexam := examineCur_cut (s := s.took i o b) (o := o.took b) (b := b) (due := dueOf s i o) (by rw [hsp]) (by rw [hsp]; exact hnxt) hseek
    (by rw [hsp]; exact hret) (by rw [hsp]; exact hbeg) hlead hc hst (by rw [hk.seekOverdue]; exact hp)
  have hmade : CutMade s i (incoming s i nx sEff (dueOf s i o)) ((o.took b).stop c) u :=
    (RolesKept.reportCut (s.cutAtPacket i c o nx b sEff forced) i nx.owner sEff _ _).cutMade cutAtPacket_sp nofun
  obtain ⟨hrc, hrn, hrh, -⟩ := repeatEnd_sp u i
  have hafter : CutMade s i (incoming s i nx sEff (dueOf s i o)) ((o.took b).stop c) (repeatEnd u i) :=
    ⟨hrn.trans hmade.next, hrh.trans hmade.head, by rw [hrc]; exact hmade.cur⟩
  refine ⟨?_, hmade, hafter⟩
  rw [fillHead_seeking hhead hcur hnxt hseek hb, takePacket_current, hexam]
  exact congrArg some (exhaust_of_cut hafter.next nofun)

end

end Sys2Proof.Machine
end

section
/-! O58: the cut of a level-3 hold, and the end of its return (R64, R99, R171, R176, R177, R181). -/

namespace Sys2Proof.Machine

variable {s t u v w : State} {i j c m n r q sEff delta due : Nat} {o nx x y : Inst} {b : Pkt} {e a : Entry} {forced : Bool} {g : Target}

/-! ### The end of a repeated clip behind a cut (R178) -/

theorem handClipEnd_alert (s : State) (r i : Nat) (o : Inst) (q : Nat) : (handClipEnd s r i o).alert q =
    if q = r then (s.alert r).modTarget i (fun t => { t with e := some (endOf o.sealVals (o.delta.getD 0)) }) else s.alert q := by
  rw [State.alert, (handClipEnd_splice s r i o).frame]
  exact alert_modAlert s r (fun a => a.modTarget i (fun t => { t with e := some (endOf o.sealVals (o.delta.getD 0)) })) q

/-- Behind a newcomer of another owner, or a clip that goes on, no clip's end is handed. -/
theorem repeatEnd_none (hcur : (s.sp i).cur = some x) (hnxt : (s.sp i).nxt = some y)
    (h : ∀ r, x.owner = .alert r → y.owner = .alert r → x.spent = true → lastPass s r = false) : repeatEnd s i = s := by
  rcases repeatEnd_cases s i with hr | ⟨x', y', r, hx, hy, hxo, hyo, hsp, -, hl, -⟩
  · exact hr
  · cases hcur.symm.trans hx
    cases hnxt.symm.trans hy
    exact absurd (hl.symm.trans (h r hxo hyo hsp)) (by decide)

/-- Behind a newcomer of record `r`, only that record can be handed a clip's end, and its target stays as it has cut. -/
theorem repeatEnd_alert_of_ne (hnxt : (s.sp i).nxt = some y) (hown : y.owner = .alert r) (hq : q ≠ r) :
    (repeatEnd s i).alert q = s.alert q := by
  rcases repeatEnd_cases s i with h | ⟨x', y', r', -, hy, -, hyo, -, -, -, h⟩ <;> rw [h]
  cases hnxt.symm.trans hy
  cases hown.symm.trans hyo
  rw [handClipEnd_alert, if_neg hq]

theorem repeatEnd_cut (s : State) (r i : Nat) : (((repeatEnd s i).alert r).target i).map (·.cut) = ((s.alert r).target i).map (·.cut) := by
  rcases repeatEnd_cases s i with h | ⟨x', y', r', -, -, -, -, -, -, -, h⟩ <;> rw [h]
  rw [handClipEnd_alert]
  split
  · next hr =>
    rw [hr, AlertRec.target_modTarget (f := fun t => { t with e := some (endOf x'.sealVals (x'.delta.getD 0)) }) _ fun _ => rfl, Option.map_map]
    rfl
  · rfl

theorem cutAtPacket_kept (s : State) (i c : Nat) (o nx : Inst) (b : Pkt) (sEff : Nat) (forced : Bool) :
    Kept s (s.cutAtPacket i c o nx b sEff forced) := Kept.modSp (Kept.raiseIf (took_kept s i o b) forced i .forced) i
    (fun p => { p with cur := p.cur.map (·.stop c), nxt := some (incoming (raiseIf forced (s.took i o b) i .forced) i nx sEff (dueOf s i o)) })

theorem cutAtPacket_dir : (s.cutAtPacket i c o nx b sEff forced).dir = s.dir := by
  show (raiseIf forced (s.took i o b) i .forced).dir = s.dir
  have hf : (raiseIf forced (s.took i o b) i .forced).dir = (s.took i o b).dir := by
    cases forced
    · rfl
    · exact raise_dir _ _ _
  rw [hf, took_frame]

theorem cutAtPacket_clipDamaged (k : Nat) : (s.cutAtPacket i c o nx b sEff forced).clipDamaged k = s.clipDamaged k := by
  simp only [State.clipDamaged, State.clip, cutAtPacket_dir]

theorem took_queue_le (s : State) (i : Nat) (o : Inst) (b : Pkt) (p : PortId) :
    ((s.took i o b).box p).queue.length ≤ (s.box p).queue.length + 1 := by
  unfold State.took raiseIf
  split
  · rw [raise_box]
    split
    · exact Nat.le_succ _
    · unfold offeredBox
      split
      · exact pushBox_length_le _ _
      · exact Nat.le_succ _
  · exact Nat.le_succ _

/-- A hold's first cut from the network, on a service without an ACTIVE entry: the target is marked, and the instance plays. -/
theorem networkCut_marks {k : Nat} {z : Comp} (hl : s.laneOf i = some k) (hz : (s.svc i).defComps[j]? = some z) (hown : nx.owner = .alert r)
    (hg : (s.alert r).target i = some g) (hc : g.cut = false) (hact : activeEntry s i = none) : let u := networkCut s i j nx sEff
    u.alert r = (s.alert r).modTarget i (fun t => { t with cut := true }) ∧ (∀ q, q ≠ r → u.alert q = s.alert q)
    ∧ (u.sp i).ret = .idle ∧ u.entries = s.entries ∧ (u.sp i).cur = some (nx.cutIn sEff (s.cutMoment i)) := by
  let N := s.networkTaken i j nx sEff
  have hN : networkCut s i j nx sEff = alertCut N r i := by
    rw [networkCut_eq, hown]
    rfl
  have hNal (q : Nat) : N.alert q = s.alert q := by
    dsimp only [N]
    rw [networkTaken_eq hl hz]
    rfl
  have hNent : N.entries = s.entries := networkTaken_entries hl hz
  obtain ⟨hal, hals, hidle, hents, -⟩ := alertCut_first (s := N) (by rw [hNal]; exact hg) hc
  have hkept := (CutKept.refl (i := i) N).alertCut r i
  intro u
  have hu : u = alertCut N r i := hN
  rw [hu]
  refine ⟨by rw [hal, hNal], fun q hq => (hals q hq).trans (hNal q), hidle, (hents ((activeEntry_congr hNent).trans hact)).trans hNent,
    hkept.cur _ ?_ rfl⟩
  dsimp only [N]
  rw [networkTaken_sp hl hz]
  rfl

section
variable (hcur : (s.sp i).cur = some x) (hnxt : (s.sp i).nxt = some y) (hown : y.owner = .alert r) (hg : (s.alert r).target i = some g)
include hcur hnxt hown hg

/-- The cut of a loop repeat: the clip's end alone can be handed, which leaves the target as it has cut (R177, R178). -/
theorem repeatEnd_again (hc : g.cut = true) : let t := repeatEnd (alertCut s r i) i
    t.entries = s.entries ∧ (∀ q, q ≠ r → t.alert q = s.alert q) ∧ ((t.alert r).target i).map (·.cut) = some true
    ∧ (x.owner ≠ .alert r ∨ x.spent = false ∨ lastPass s r = false → t.alerts = s.alerts) := by
  rw [alertCut_again hg hc]
  refine ⟨repeatEnd_entries s i, fun q hq => repeatEnd_alert_of_ne hnxt hown hq, by rw [repeatEnd_cut, hg, Option.map_some, hc], fun h => ?_⟩
  rw [repeatEnd_none hcur hnxt]
  rintro q ho hn hspent
  cases hn.symm.trans hown
  rcases h with h | h | h
  · exact absurd ho h
  · exact absurd (hspent.symm.trans h) nofun
  · exact h

omit hg in
/-- The first cut of a hold, over the clip of another owner, hands no clip's end. -/
theorem repeatEnd_first (hp : y.phase ≠ .seeking) (hx : x.owner ≠ .alert r) : repeatEnd (alertCut s r i) i = alertCut s r i := by
  have hk : RolesKept i s (alertCut s r i) := RolesKept.reportCut s i (.alert r) 0 0 y.sealVals
  obtain ⟨o', hcur', hown'⟩ := hk.playing x hcur
  refine repeatEnd_none hcur' (hk.carried y hnxt hp).1 fun q ho hn _ => ?_
  cases hn.symm.trans hown
  rcases hown' with rfl | rfl
  · exact absurd ho hx
  · cases ho

end

/-! ### A claim taken, and one given up (R176, R181) -/

section
variable (hdef : deferredIn s i = some q) (hg : (s.alert q).target i = some g)
include hdef hg

theorem passOn_gives_up (hd : s.clipDamaged (s.alert q).clip = true) :
    ((passOn s i).alert q).st = .idle ∨ ∃ y, ((passOn s i).alert q).target i = some y ∧ y.status = .unavailable := by
  rw [passOn_damaged hdef hd]
  rcases testRecord_alert_self (reeval (s.gaveUp q i) i .held) q with h | h <;> rw [h]
  · rw [reeval_alert, State.gaveUp, alert_modAlert, if_pos rfl]
    refine .inr ⟨g.as .unavailable, ?_, rfl⟩
    rw [AlertRec.target_modTarget (f := fun x => x.as .unavailable) _ fun _ => rfl, hg]
    rfl
  · exact .inl rfl

theorem passOn_takes (hd : s.clipDamaged (s.alert q).clip = false) (harm : armedEntry s i = none) (hnxt : (s.sp i).nxt = none) {v : Seal}
    (hv : s.sealOf (s.alert q).clip = some v) : let u := passOn s i
    (u.sp i).ret = (s.sp i).ret ∧ ∃ y, (u.alert q).target i = some y ∧ y.status = .held ∧ y.cut = false
      ∧ y.s = alertPoint s i (s.alert q).clip
      ∧ ∃ n, (u.sp i).nxt = some n ∧ n.clip = (s.alert q).clip ∧ n.owner = .alert q ∧ n.phase = .seeking ∧ n.s = y.s := by
  intro u
  have hu : u = takeService s q i := passOn_taken hdef hd
  have hgi : g.svc = i := by simpa using List.find?_some (p := fun (t : Target) => t.svc == i) (by exact hg)
  have hsvc : i ∈ (s.alert q).targets.map (·.svc) := List.mem_map.2 ⟨g, List.mem_of_find?_eq_some hg, hgi⟩
  have hret : (u.sp i).ret = (s.sp i).ret := by
    rw [hu, takeService_eq, cleared_of_none (s := holdTarget s q i) harm]
    exact (Asked.requestNext (holdTarget s q i) i _).ret
  obtain ⟨n, hn, hclip, hown, hseek, hs⟩ := takeService_asks (r := q) (i := i) (s := s) (fun x hx => absurd (hnxt.symm.trans hx) nofun) hv
  rw [hu]
  refine ⟨hu ▸ hret, g.taken (alertPoint s i (s.alert q).clip), ?_, rfl, rfl, rfl, n, hn, hclip, hown, hseek, hs.trans (takeRequest_s hsvc)⟩
  rw [takeService_alert, if_pos rfl, AlertRec.target_modTarget (f := fun x => x.taken (alertPoint s i (s.alert q).clip)) _ fun _ => rfl, hg]
  rfl

end

/-- The splice point of an alert cut, by the readiness of its clip (R176). -/
theorem alertPoint_eq (s : State) (i c : Nat) : alertPoint s i c = (estimate s i).map (fun e =>
    (e + if ∃ j, j < 4 ∧ (s.preload j).st = .ready ∧ (s.preload j).clip = c then 9000 else (s.cfgOf i).preroll * 90) % nPts) := by
  rw [alertPoint]
  by_cases h : readySlot s c = true
  · rw [if_pos h, if_pos ((readySlot_iff c).1 h)]
    exact leadPoint_eq s i 9000
  · rw [if_neg h, if_neg fun hx => h ((readySlot_iff c).2 hx)]
    exact leadPoint_eq s i _

/-! ### The end of a return (R99, R181) -/

/-- The record as the service leaves it (R181). -/
def AlertRec.leftBy (a : AlertRec) (i : Nat) (emergency : Bool) : AlertRec :=
  a.modTarget i (fun t => { t with status := .released, byEmergency := emergency })

theorem leaveHeld_alert (s : State) (r i : Nat) (b : Bool) (q : Nat) : (leaveHeld s r i b).alert q =
    if q = r then (s.alert r).leftBy i b else s.alert q :=
  alert_modAlert s r (fun a => a.modTarget i (fun t => { t with status := .released, byEmergency := b })) q

/-- The hold's service when its return has ended and it has left the held set. -/
def State.departed (s : State) (i r : Nat) : State := leaveHeld (s.modSp i SpliceRec.returned) r i ((s.sp i).ret == .emergency)

theorem departed_sp : (s.departed i r).sp i = (s.sp i).returned := (State.sp_modSp s i i _).trans (if_pos rfl)

theorem departed_alert (q : Nat) : (s.departed i r).alert q =
    if q = r then (s.alert r).leftBy i ((s.sp i).ret == .emergency) else s.alert q := leaveHeld_alert _ r i _ q

theorem departed_svc (hj : j ≠ i) : (s.departed i r).svc j = s.svc j := by
  rw [State.departed, leaveHeld, State.modAlert, State.setAlert_svc, State.modSp, State.svc_modSvc, if_neg hj]

theorem departed_clip (k : Nat) : (s.departed i r).clip k = s.clip k := rfl

/-- A record that claims the service has it as a target. -/
theorem claim_target {a : AlertRec} (h : a.st = .on ∧ ∃ x ∈ a.targets, x.svc = i ∧ x.status = .deferred) : ∃ y, a.target i = some y := by
  obtain ⟨-, x, hx, hi, -⟩ := h
  exact Option.isSome_iff_exists.1 (List.find?_isSome.2 ⟨x, hx, by simp [hi]⟩)

theorem departed_kept : Kept s (s.departed i r) := by simp [State.departed, leaveHeld]

section
variable (hcur : (s.sp i).cur = none) (hnxt : (s.sp i).nxt = none) (hwait : (s.sp i).waiting = none) (hret : (s.sp i).ret ≠ .idle)
  (hbeg : (s.sp i).retBegun = true) (hback : ∀ x ∈ (s.sp i).comps, x.replaced = false ∧ x.unsent = false)
include hcur hnxt hwait hret hbeg hback

/-- With no instance left and every component back on the network, the return ends. -/
theorem svcStep_finishReturn : svcStep s i = some (finishReturn s i) := by
  have hserve : serveWaiting s i = none := by simp [serveWaiting, hwait]
  have hclip : clipEndStep s i = none := by simp [clipEndStep, hcur]
  have hlate : lateExhaust s i = none := by simp [lateExhaust, hcur]
  have hfin : finishOrPromote s i = none := by simp [finishOrPromote, hcur, hnxt]
  have hdone : returnDone s i = true := by
    have hall : (s.sp i).comps.all (fun c => !c.replaced && !c.unsent) = true := List.all_eq_true.2 fun x hx => by
      obtain ⟨h1, h2⟩ := hback x hx
      simp [h1, h2]
    simp only [returnDone, hcur, hnxt, hbeg, hall, Bool.and_true, bne_iff_ne]
    exact hret
  simp [svcStep, hserve, hclip, hlate, hfin, hdone]

/-- The return of a hold that has cut: the splice record is reset, and the service leaves the held set. -/
theorem svcStep_departs (hr : holdingAlert s i = some r) (hg : (s.alert r).target i = some g) (hc : g.cut = true) :
    svcStep s i = some (testRecord (passOn (s.departed i r) i) r) := by
  rw [svcStep_finishReturn hcur hnxt hwait hret hbeg hback]
  unfold finishReturn
  simp only [hcur, Option.isSome_none, Bool.false_eq_true, if_false, playingOwner_alert hr hg hc]
  rfl

end

theorem deferredIn_eq_some_iff : deferredIn s i = some q ↔ q < 4
    ∧ ((s.alert q).st = .on ∧ ∃ x ∈ (s.alert q).targets, x.svc = i ∧ x.status = .deferred)
    ∧ ∀ m, m < q → ¬((s.alert m).st = .on ∧ ∃ x ∈ (s.alert m).targets, x.svc = i ∧ x.status = .deferred) := by
  unfold deferredIn
  rw [List.find?_range_eq_some]
  simp only [List.mem_range, Bool.and_eq_true, List.any_eq_true, beq_iff_eq, Bool.not_eq_true', ← Bool.not_eq_true]
  exact ⟨fun ⟨h1, h2, h3⟩ => ⟨h2, h1, h3⟩, fun ⟨h1, h2, h3⟩ => ⟨h2, h1, h3⟩⟩

/-- A service leaves a held set for the first record that claims it, if any does: the record it leaves is no claimant. -/
theorem deferredIn_leaveHeld (b : Bool) (hq4 : q < 4) (hne : q ≠ r)
    (hclaim : (s.alert q).st = .on ∧ ∃ x ∈ (s.alert q).targets, x.svc = i ∧ x.status = .deferred)
    (hfirst : ∀ m, m < q → m ≠ r → ¬((s.alert m).st = .on ∧ ∃ x ∈ (s.alert m).targets, x.svc = i ∧ x.status = .deferred)) :
    deferredIn (leaveHeld s r i b) i = some q := by
  have hclaims (m : Nat) : ((leaveHeld s r i b).alert m).st = .on ∧
      (∃ x ∈ ((leaveHeld s r i b).alert m).targets, x.svc = i ∧ x.status = .deferred) ↔
      m ≠ r ∧ (s.alert m).st = .on ∧ ∃ x ∈ (s.alert m).targets, x.svc = i ∧ x.status = .deferred := by
    by_cases hm : m = r
    · subst hm
      refine ⟨fun ⟨_, x, hx, hi, hd⟩ => ?_, fun h => absurd rfl h.1⟩
      exact absurd ((leaveHeld_released b hx hi).symm.trans hd) nofun
    · rw [leaveHeld_alert, if_neg hm]
      exact ⟨fun h => ⟨hm, h⟩, fun h => h.2⟩
  exact deferredIn_eq_some_iff.2 ⟨hq4, (hclaims q).2 ⟨hne, hclaim⟩, fun m hm hc => by
    obtain ⟨hmr, hcm⟩ := (hclaims m).1 hc
    exact hfirst m hm hmr hcm⟩

/-- The test of a record that is not IDLE (R171, R181). -/
theorem testRecord_spec (hst : (s.alert r).st ≠ .idle) : let a := s.alert r
    let keeps := (∃ x ∈ a.targets, x.status = .held) ∨ a.st = .on ∧ ∃ x ∈ a.targets, x.status = .deferred
    (keeps → testRecord s r = s) ∧ (¬keeps → testRecord s r = endRecord s r (if a.st = .on then .vacated else a.cause)) := by
  intro a keeps
  have hany (st : TStatus) : a.targets.any (fun t => t.status == st) = true ↔ ∃ x ∈ a.targets, x.status = st := by
    simp [List.any_eq_true]
  unfold testRecord
  dsimp only
  split
  · next h => exact absurd h hst
  · next h =>
    have hne : a.st ≠ .on := by
      show (s.alert r).st ≠ .on
      rw [h]
      nofun
    rw [if_neg hne]
    have hk : keeps ↔ ∃ x ∈ a.targets, x.status = .held := ⟨fun hk => hk.resolve_right fun h => hne h.1, .inl⟩
    rw [hk]
    exact ⟨fun h => if_pos ((hany _).2 h), fun h => if_neg fun hx => h ((hany _).1 hx)⟩
  · next h =>
    rw [if_pos h]
    have hk : keeps ↔ (a.targets.any (fun t => t.status == .held) || a.targets.any (fun t => t.status == .deferred)) = true := by
      rw [Bool.or_eq_true, hany, hany]
      exact or_congr_right ⟨fun h => h.2, fun hd => ⟨h, hd⟩⟩
    exact ⟨fun hx => if_pos (hk.1 hx), fun hx => if_neg fun hy => hx (hk.2 hy)⟩

theorem endRecord_clip (c : EndCause) (k : Nat) : (endRecord s r c).clip k =
    (s.clip k).map (fun x => if k = (s.alert r).clip then { x with refs := x.refs - 1 } else x) := by
  refine (State.clip_setClip _ (s.alert r).clip _ k).trans ?_
  by_cases h : k = (s.alert r).clip
  · simp only [h, if_true]
    rfl
  · simp only [h, if_false, Option.map_id']
    rfl

theorem holdingAlert_st (hr : holdingAlert s i = some r) : r < 4 ∧ (s.alert r).st ≠ .idle := by
  have hp := List.find?_some hr
  exact ⟨List.mem_range.1 (List.mem_of_find?_eq_some hr), bne_iff_ne.1 (Bool.and_eq_true_iff.1 hp).1⟩

/-- The record after the service has left it, and has been passed on and tested. -/
theorem depart_alert (hne : deferredIn (leaveHeld s r i forced) i ≠ some r) :
    ((depart s r i forced).alert r).st = .idle ∨ (depart s r i forced).alert r = (s.alert r).leftBy i forced := by
  have hpass : (passOn (leaveHeld s r i forced) i).alert r = (s.alert r).leftBy i forced := by
    rw [passOn_alert hne, leaveHeld_alert, if_pos rfl]
  rcases testRecord_alert_self (passOn (leaveHeld s r i forced) i) r with h | h
  · exact .inr (h.trans hpass)
  · exact .inl (by rw [depart, h]; rfl)

section
variable (hcur : (s.sp i).cur = none) (hnxt : (s.sp i).nxt = none) (hwait : (s.sp i).waiting = none) (hret : (s.sp i).ret ≠ .idle)
  (hbeg : (s.sp i).retBegun = true) (hback : ∀ x ∈ (s.sp i).comps, x.replaced = false ∧ x.unsent = false)
  (hr : holdingAlert s i = some r) (hg : (s.alert r).target i = some g) (hc : g.cut = true)
include hcur hnxt hwait hret hbeg hback hr hg hc

/-- No record claims the service: it is released. -/
theorem svcStep_departs_unclaimed (hno : ∀ q, q < 4 → q ≠ r →
      ¬((s.alert q).st = .on ∧ ∃ x ∈ (s.alert q).targets, x.svc = i ∧ x.status = .deferred))
    (hheld : ∀ e ∈ s.schedule, e.svc = i → e.st ≠ .waiting .held) :
    svcStep s i = some (testRecord (s.departed i r) r) := by
  have hnone : deferredIn (s.departed i r) i = none := deferredIn_none_iff.2 fun q hq4 => by
    by_cases hq : q = r
    · subst hq
      rintro ⟨-, x, hx, hi, hd⟩
      exact absurd ((leaveHeld_released _ hx hi).symm.trans hd) nofun
    · rw [departed_alert, if_neg hq]
      exact hno q hq4 hq
  have hsame : reeval (s.departed i r) i .held = s.departed i r := reeval_none hheld
  rw [svcStep_departs hcur hnxt hwait hret hbeg hback hr hg hc, passOn_none hnone, hsame]

end

/-- A released service: its record goes on with `left`, or ends (R171). -/
theorem released_record (hr : holdingAlert s i = some r) : let left := (s.alert r).leftBy i ((s.sp i).ret == .emergency)
    let keeps := (∃ x ∈ left.targets, x.status = .held) ∨ left.st = .on ∧ ∃ x ∈ left.targets, x.status = .deferred
    let u := testRecord (s.departed i r) r
    (keeps → u.alert r = left ∧ u.boxes = s.boxes ∧ u.dir = s.dir)
    ∧ (¬keeps → u.alert r = AlertRec.idle
      ∧ (∀ q, u.box q = if q = .ap then pushBox (s.box q) (.alertEnd (if left.st = .on then .vacated else left.cause) r left.id
            (left.count (fun x => x.status == .held || x.status == .released)) (left.count (·.byEmergency))) else s.box q)
      ∧ ∀ c, u.clip c = (s.clip c).map (fun x => if c = left.clip then { x with refs := x.refs - 1 } else x)) := by
  intro left keeps u
  obtain ⟨-, hrst⟩ := holdingAlert_st hr
  have hown : (s.departed i r).alert r = left := (departed_alert r).trans (if_pos rfl)
  obtain ⟨hkeep, hend⟩ := testRecord_spec (s := s.departed i r) (r := r) (by rw [hown]; exact hrst)
  rw [hown] at hkeep hend
  refine ⟨fun hk => ?_, fun hk => ?_⟩
  · rw [show u = s.departed i r from hkeep hk]
    exact ⟨hown, rfl, rfl⟩
  · rw [show u = endRecord (s.departed i r) r _ from hend hk]
    refine ⟨(endRecord_alert _ r).trans (if_pos rfl), fun q => ?_, fun c => ?_⟩
    · rw [endRecord_box, hown]
      by_cases hq : q = .ap
      · subst hq
        rfl
      · simp only [hq, if_false]
        rfl
    · rw [endRecord_clip, hown]
      rfl

/-- Settles O58: the report of the first cut by `alertCut`, the end of a hold's return by `depart`. -/
theorem alertHoldCutsAndPassesOn : Obligations.AlertHoldCutsAndPassesOn := by
  unfold Obligations.AlertHoldCutsAndPassesOn
  intro cutAt point
  refine ⟨?_, ?_, ?_⟩
  · intro s i r c x y o nx b g p hhead hcur hnxt hseek hret hbeg hb hlead hcomp hst hs hlate hpts hat hown hg
    have hp : cutPoint (seekOverdue s i nx) nx (rebasedPts o b) = some (y, false) := by
      have hreb : rebasedPts o b = some y := hpts
      simp [cutPoint, hs, hlate, hreb, ptsAt, hat]
    obtain ⟨hfill, -, hafter⟩ := fillHead_cut hhead hcur hnxt hseek hret hbeg hb hlead hcomp hst hp
    let G := s.cutAtPacket i c o nx b y false
    have hrep : reportCut G i nx.owner y (cutDelta y nx.sealVals) nx.sealVals = alertCut G r i := by rw [hown]; rfl
    have hGal (q : Nat) : G.alert q = s.alert q := by rw [State.alert, cutAtPacket_alerts]; rfl
    have hGg : (G.alert r).target i = some g := by rw [hGal]; exact hg
    have hGact : activeEntry G i = activeEntry s i := activeEntry_congr cutAtPacket_entries
    have hGcur : (G.sp i).cur = some ((o.took b).stop c) := by rw [cutAtPacket_sp]
    have hGnxt : (G.sp i).nxt = some (incoming s i nx y (dueOf s i o)) := by rw [cutAtPacket_sp]
    rw [hrep] at hfill hafter
    refine ⟨_, hfill, ⟨_, hafter.next, rfl, rfl, hown⟩, fun hgc => ?_, fun hgc hoo => ?_⟩
    · obtain ⟨hents, hals, hcut, hsame⟩ := repeatEnd_again hGcur hGnxt hown hGg hgc
      refine ⟨hents.trans cutAtPacket_entries, fun q hq => (hals q hq).trans (hGal q), hcut, fun h => (hsame ?_).trans cutAtPacket_alerts⟩
      refine h.imp_right (Or.imp beq_false_of_ne fun ⟨hloop, hdam⟩ => ?_)
      rw [lastPass, hGal, cutAtPacket_clipDamaged, hloop, hdam]
      rfl
    · obtain ⟨hal, hals, hidle, hents, hev⟩ := alertCut_first hGg hgc
      rw [repeatEnd_first hGcur hGnxt hown nofun hoo]
      refine ⟨by rw [hal, hGal]; rfl, fun q hq => (hals q hq).trans (hGal q), hidle,
        fun hn => (hents (hGact.trans hn)).trans cutAtPacket_entries, fun e he hwf hnum => ?_⟩
      obtain ⟨hgone, hbox⟩ := hev e (hGact.trans he) (State.Numbered.of_entries (s := s) ⟨hwf, hnum⟩ cutAtPacket_entries)
      refine ⟨hgone, fun hroom => ?_⟩
      have hroomG : (G.box e.origin).queue.length ≤ (s.box e.origin).queue.length + 1 := took_queue_le s i o b e.origin
      have hmem := hbox (by omega)
      rw [Entry.endEvent, activeEntry_svc he] at hmem
      exact hmem
  · intro s k i j r y b cs n g hex s1 p hcs hrep hlead hfix hnxt hseek hcur hret hbeg hlate hpts hat hown hg hc hact
    obtain ⟨x, hx, -⟩ := compIndex_spec hex.component
    have hl1 : (s.observed k i j b).laneOf i = some k.val := by
      rw [State.laneOf, observed_defn]
      exact laneOf_of_serviceOfPid hex.service
    have hx1 : ((s.observed k i j b).svc i).defComps[j]? = some x := by rw [observed_defComps]; exact hx
    have hlead1 : leadIdx ((s.observed k i j b).svc i).defComps = some j := by rw [observed_defComps]; exact hlead
    have hp : cutPoint n.overdue n (seenPts b) = some (y, false) := by
      have hseen : seenPts b = some y := by rw [seenPts, hpts, hex.observable]; rfl
      rw [hseen]
      cases hns : n.s with
      | none => simp [cutPoint, hns, hlate]
      | some z => simp [cutPoint, hns, hlate, ptsAt, hat z hns]
    have hdec := (decide_unfixed (fun _ hf => absurd (hf.symm.trans hfix) nofun) hcs).trans
      (judged_networkCut hrep hlead1 (networkCutOf_some hnxt hseek (searchMode_network hcur hret hbeg) hp))
    rw [show raiseIf false s1 i .forced = s1 from rfl] at hdec
    obtain ⟨hal, hals, hidle, hents, hplays⟩ := networkCut_marks (sEff := y) hl1 hx1 hown hg hc hact
    exact ⟨_, exec_arrives_held hex.toarrives hdec, hal, hals, hents, hidle, _, hplays, rfl, rfl, hown⟩
  · intro s i r g p a hcur hnxt hwait hret hbeg hback hr hg hc left claims first
    have hown : (s.departed i r).alert r = left := (departed_alert r).trans (if_pos rfl)
    have hothers (q : Nat) (hq : q ≠ r) : (s.departed i r).alert q = s.alert q := (departed_alert q).trans (if_neg hq)
    have hstep : svcStep s i = some (testRecord (passOn (s.departed i r) i) r) := svcStep_departs hcur hnxt hwait hret hbeg hback hr hg hc
    have hfirst {q : Nat} (hq : first q) : deferredIn (s.departed i r) i = some q :=
      deferredIn_leaveHeld (s := s.modSp i SpliceRec.returned) _ hq.1 hq.2.1 hq.2.2.1 hq.2.2.2
    have hrec {q : Nat} (hq : first q) : ((testRecord (passOn (s.departed i r) i) r).alert r).st = .idle
        ∨ (testRecord (passOn (s.departed i r) i) r).alert r = left := by
      have hne : deferredIn (s.departed i r) i ≠ some r := fun h => hq.2.1 (Option.some.inj ((hfirst hq).symm.trans h))
      exact depart_alert hne
    refine ⟨fun hno hheld => ?_, fun q x v hq hclip hdam hv harm => ?_, fun q hq hdam => ?_⟩
    · have hfr : RecordFrame (s.departed i r) (testRecord (s.departed i r) r) := (RecordFrame.refl _).testRecord r
      have hsp : (testRecord (s.departed i r) r).sp i = (s.sp i).returned := (hfr.sp i).trans departed_sp
      obtain ⟨hkeep, hend⟩ := released_record hr
      refine ⟨_, svcStep_departs_unclaimed hcur hnxt hwait hret hbeg hback hr hg hc hno hheld, Eq.trans hfr (by rw [hfr.services]; rfl), fun l hl => ?_, ?_, ?_, ?_, ?_, ?_, ?_,
        hkeep, hend⟩
      · exact (hfr.svc l).trans (departed_svc hl)
      all_goals
        rw [hsp]
        rfl
    · have hok : (s.departed i r).clipDamaged ((s.departed i r).alert q).clip = false := by
        rw [hothers q hq.2.1]
        simp only [State.clipDamaged, departed_clip, hclip]
        exact beq_false_of_ne hdam
      obtain ⟨y, hy⟩ := claim_target hq.2.2.1
      have hseal : (s.departed i r).sealOf ((s.departed i r).alert q).clip = some v := by
        rw [hothers q hq.2.1, State.sealOf, departed_clip, hclip]
        exact hv
      obtain ⟨hidle, z, hz, hheld, hzcut, hzs, n, hn, hnclip, hnown, hnseek, hns⟩ := passOn_takes (hfirst hq)
        (by rw [hothers q hq.2.1]; exact hy) hok harm (by rw [departed_sp]; exact hnxt) hseal
      rw [hothers q hq.2.1] at hnclip hzs
      have hfr : RecordFrame (passOn (s.departed i r) i) (testRecord (passOn (s.departed i r) i) r) := (RecordFrame.refl _).testRecord r
      refine ⟨_, hstep, ?_, ⟨z, ?_, hheld, hzcut, ?_, n, ?_, hnclip, hnown, hnseek, hns⟩, hrec hq⟩
      · rw [hfr.sp, hidle, departed_sp]
        rfl
      · rw [testRecord_alert_of_ne hq.2.1]
        exact hz
      · rw [hzs, departed_kept.alertPoint, alertPoint_eq]
      · rw [hfr.sp]
        exact hn
    · have hbad : (s.departed i r).clipDamaged ((s.departed i r).alert q).clip = true := by
        rw [hothers q hq.2.1]
        exact hdam
      obtain ⟨y, hy⟩ := claim_target hq.2.2.1
      refine ⟨_, hstep, ?_, hrec hq⟩
      rw [testRecord_alert_of_ne hq.2.1]
      exact passOn_gives_up (hfirst hq) (by rw [hothers q hq.2.1]; exact hy) hbad

end Sys2Proof.Machine
end

section
/-! O28: a return stops the clip that plays, and its end gives the entry its result (R71, R95, R98, R99, R102). -/

namespace Sys2Proof.Machine

variable {s t u : State} {i c x y : Nat} {o : Inst} {b : Pkt} {e : Entry} {r : EntryResult} {raised : Option Cond}

/-! ### The packet of a clip that plays alone (R95, R98) -/

theorem fillHead_alone (hhead : (s.sp i).head = none) (hcur : (s.sp i).cur = some o) (hnxt : (s.sp i).nxt = none) (hb : o.packet = some b) :
    fillHead s i = some (takePacket s i .current o b) := by
  simp [fillHead, hhead, offerCur, offerNext, hcur, hnxt, hb]

theorem stopsAtE_iff {pts : Option Nat} (hret : (s.sp i).ret = .returning x) : stopsAtE s i pts = true ↔
    inputThere s i = true ∧ ((s.sp i).retOverdue = true ∨ ∃ y, pts = some y ∧ atOrAfter nPts y x = true) := by
  have hat : ptsAt pts x = true ↔ ∃ y, pts = some y ∧ atOrAfter nPts y x = true := by cases pts <;> simp [ptsAt]
  simp only [stopsAtE, hret, Bool.and_eq_true, Bool.or_eq_true, hat]
  exact and_congr_right fun _ => or_comm

theorem Kept.inputThere (h : Kept s t) (i : Nat) : inputThere t i = inputThere s i := by
  simp only [Machine.inputThere, h.laneOf, h.lane]

theorem took_stopsAtE (hret : (s.sp i).ret = .returning x) : stopsAtE (s.took i o b) i (rebasedPts (o.took b) b) = true ↔
    inputThere s i = true ∧ ((s.sp i).retOverdue = true ∨ ∃ y, rebasedPts o b = some y ∧ atOrAfter nPts y x = true) := by
  rw [stopsAtE_iff (x := x) (by rw [took_sp]; exact hret), (took_kept s i o b).inputThere, took_sp]
  rfl

/-- The begin of a return leaves the instance that plays, but for its stops; nothing stands behind it then. -/
theorem beginReturn_playing (hcur : (s.sp i).cur = some o) (hnxt : (s.sp i).nxt = none) (hhead : (s.sp i).head = none) :
    ((beginReturn s i).sp i).nxt = none ∧ ((beginReturn s i).sp i).head = none
    ∧ ∃ l ph, ((beginReturn s i).sp i).cur = some { o with stopped := l, phase := ph } ∧ l.length = o.stopped.length := by
  unfold beginReturn
  extract_lets s1
  split
  · exact ⟨hnxt, hhead, o.stopped, o.phase, hcur, rfl⟩
  · have h1 : ∃ w, s1.sp i = { s.sp i with waiting := w } := by
      dsimp only [s1]
      split
      · next q _ =>
        refine ⟨if (s.sp i).waiting.map (·.owner) = some q then none else (s.sp i).waiting, ?_⟩
        unfold discardSeeking
        simp only [hnxt, State.sp_modSp, if_true]
      · exact ⟨_, rfl⟩
    obtain ⟨w, hw⟩ := h1
    rw [State.sp_modSp, if_pos rfl, hw]
    refine ⟨by simp [hnxt], by simp [hhead], _, _, by simp only [hcur, Option.map_some]; rfl, by simp⟩

section
variable (hhead : (s.sp i).head = none) (hcur : (s.sp i).cur = some o) (hnxt : (s.sp i).nxt = none) (hret : (s.sp i).ret = .returning x)
  (hb : o.packet = some b) (hc : o.compOf b = some c) (hst : o.isStopped c = false)
include hhead hcur hnxt hret hb hc hst

/-- The packet that reaches E is discarded with its component, and the return has begun. -/
theorem fillHead_stopsAtE (hstop : stopsAtE (s.took i o b) i (rebasedPts (o.took b) b) = true) :
    ∃ t y, fillHead s i = some t ∧ (t.sp i).head = none ∧ (t.sp i).cur = some y ∧ y.phase = .ending ∧ y.k = o.k + 1
      ∧ (c < o.stopped.length → y.isStopped c = true) ∧ (t.sp i).retBegun = true ∧ (t.sp i).ret = .returning x := by
  have hsp := took_sp (s := s) i o b
  obtain ⟨hn, hh, l, ph, hplays, hlen⟩ := beginReturn_playing (s := s.took i o b) (i := i) (o := o.took b) (by rw [hsp])
    (by rw [hsp]; exact hnxt) (by rw [hsp]; exact hhead)
  obtain ⟨-, hkeep, hbegun, -⟩ := beginReturn_sp (s := s.took i o b) (i := i)
  let t := stopCur (beginReturn (s.took i o b) i) i c
  have hexam : examineCur (s.took i o b) i (o.took b) b (dueOf s i o) = some t := by
    simp only [examineCur, show (o.took b).compOf b = some c from hc, show (o.took b).isStopped c = false from hst, hstop,
      Bool.false_eq_true, if_false, if_true]
    rfl
  have ht : t.sp i = { (beginReturn (s.took i o b) i).sp i with
      cur := some ({ o.took b with stopped := l, phase := ph }.stop c) } := by
    dsimp only [t, stopCur]
    rw [State.sp_modSp, if_pos rfl, hplays]
    rfl
  refine ⟨t, _, ?_, by rw [ht]; exact hh, by rw [ht], rfl, rfl, fun hl => ?_, by rw [ht]; exact hbegun, ?_⟩
  · rw [fillHead_alone hhead hcur hnxt hb, takePacket_current, hexam]
    exact congrArg some (exhaust_repeatEnd_of_alone (by rw [ht]; exact hn))
  · have hl' : c < l.length := by rw [hlen]; exact hl
    simp [Inst.stop, Inst.isStopped, setIdx, List.getD_eq_getElem?_getD, hl']
  · rw [ht]
    refine hkeep.trans ?_
    rw [hsp]
    exact hret

omit hret in
/-- A packet short of E leaves the instance in play, and the return not begun by it. -/
theorem fillHead_goes_on (hstop : ¬stopsAtE (s.took i o b) i (rebasedPts (o.took b) b) = true) :
    ∃ t y, fillHead s i = some t ∧ (t.sp i).cur = some y ∧ y.k = o.k + 1 ∧ y.stopped = o.stopped ∧ y.phase = o.phase
      ∧ (t.sp i).retBegun = (s.sp i).retBegun := by
  have hsp := took_sp (s := s) i o b
  have hexam : examineCur (s.took i o b) i (o.took b) b (dueOf s i o) =
      if ((o.took b).mapped c).isNone then some (s.took i o b) else none := by
    have hn : ((s.took i o b).sp i).nxt = none := by rw [hsp]; exact hnxt
    simp only [examineCur, show (o.took b).compOf b = some c from hc, show (o.took b).isStopped c = false from hst, hstop,
      Bool.false_eq_true, if_false, clipCutOf, outgoingStop, hn]
  have hgoes {w : State} (hn : (w.sp i).nxt = none) (hplays : (w.sp i).cur = some (o.took b))
      (hbeg : (w.sp i).retBegun = (s.sp i).retBegun) (hfill : fillHead s i = some (exhaust (repeatEnd w i) i)) :
      ∃ t y, fillHead s i = some t ∧ (t.sp i).cur = some y ∧ y.k = o.k + 1 ∧ y.stopped = o.stopped ∧ y.phase = o.phase
        ∧ (t.sp i).retBegun = (s.sp i).retBegun :=
    ⟨w, _, hfill.trans (congrArg some (exhaust_repeatEnd_of_alone hn)), hplays, rfl, rfl, rfl, hbeg⟩
  have hfill := (fillHead_alone hhead hcur hnxt hb).trans (congrArg some (takePacket_current s i o b))
  rw [hexam] at hfill
  by_cases hmap : ((o.took b).mapped c).isNone = true
  · rw [if_pos hmap] at hfill
    exact hgoes (by rw [hsp]; exact hnxt) (by rw [hsp]) (by rw [hsp]) hfill
  · rw [if_neg hmap] at hfill
    have hplace : ∃ h, (placeHead (s.took i o b) i .current (o.took b) b (dueOf s i o)).sp i =
        { s.sp i with cur := some (o.took b), head := h } := by
      rcases placeHead_cases (s := s.took i o b) i .current (o.took b) b (dueOf s i o) with h | h | ⟨h, hx⟩
      · exact ⟨_, by rw [h, hsp]⟩
      · exact ⟨_, by rw [h, raise_sp, hsp]⟩
      · exact ⟨some h, by rw [hx, State.sp_modSp, if_pos rfl, hsp]⟩
    obtain ⟨h, hx⟩ := hplace
    exact hgoes (by rw [hx]; exact hnxt) (by rw [hx]) (by rw [hx]) hfill

end

/-! ### The end of an entry's return (R71, R99) -/

theorem Asked.endAndRelease (s : State) (e : Entry) (r : EntryResult) : Asked i s (endAndRelease s e r) := by
  unfold Machine.endAndRelease
  dsimp only
  split
  · exact (Asked.runsKeep i s).afterEnd (EntryState.idle_waiting _) (EntryState.idle_waiting _) _ (Asked.endEntry s e r)
  · exact Asked.endEntry s e r

theorem endAndRelease_gone (hs : s.Numbered) (e : Entry) (r : EntryResult) : (endAndRelease s e r).entry e.num = none := by
  have hgone : (endEntry s e r).entry e.num = none := (endEntry_entry_any r e.num).trans (if_pos rfl)
  unfold endAndRelease
  dsimp only
  split
  · exact ((NoneJoins.refl ((NoneJoins.refl hs).endEntry e r).numbered).afterEnd e.svc).absent _ hgone
  · exact hgone

/-- The end of an entry is reported at its port, if that has room. -/
theorem endAndRelease_reports (e : Entry) (r : EntryResult) (hroom : (s.box e.origin).queue.length < 32) :
    e.endEvent r ∈ ((endAndRelease s e r).box e.origin).queue := by
  have hbox : (endEntry s e r).box e.origin = pushBox (s.box e.origin) (e.endEvent r) := (endEntry_box_any r e.origin).trans (if_pos rfl)
  have hmem : e.endEvent r ∈ ((endEntry s e r).box e.origin).queue := by
    rw [hbox]
    exact mem_pushBox _ _ hroom
  unfold endAndRelease
  dsimp only
  split
  · exact ((Kept.afterEnd (Kept.refl (endEntry s e r)) e.svc).grows e.origin).subset hmem
  · exact hmem

theorem raise_queue_le (c : Cond) (p : PortId) : ((raise s i c).box p).queue.length ≤ (s.box p).queue.length + 1 := by
  rw [raise_box]
  split
  · exact Nat.le_succ _
  · unfold offeredBox
    split
    · exact pushBox_length_le _ _
    · exact Nat.le_succ _

/-- The state with the condition of the result raised, if it has one (R71). -/
def State.raisedBy (s : State) (i : Nat) : Option Cond → State
  | some c => raise s i c
  | none => s

/-- The result of an ACTIVE entry whose return ends, and the condition that goes with it (R71). -/
def Entry.returnResult (e : Entry) (emergency : Bool) (point : Option Nat) : EntryResult × Option Cond :=
  if emergency then (.faulted, none)
  else if e.cancelled then (.cancelled, none)
  else match e.xEnd, point with
    | some x, some p =>
      if sdiff nPts p x < 0 then (.truncated, some .trunc) else if sdiff nPts p x = 0 then (.completed, none) else (.completed, some .fill)
    | _, _ => (.truncated, some .trunc)

theorem returnEnded_eq (s : State) (e : Entry) (emergency : Bool) (point : Option Nat) : returnEnded s e emergency point =
    endAndRelease (s.raisedBy e.svc (e.returnResult emergency point).2) e (e.returnResult emergency point).1 := by
  unfold returnEnded Entry.returnResult
  cases emergency with
  | true => rfl
  | false =>
    cases hc : e.cancelled with
    | true => rfl
    | false =>
      cases hx : e.xEnd with
      | none => rfl
      | some x =>
        cases point with
        | none => rfl
        | some p =>
          by_cases h1 : sdiff nPts p x < 0
          · simp only [h1, Bool.false_eq_true, if_true, if_false, State.raisedBy]
          · by_cases h2 : sdiff nPts p x = 0
            · simp only [h2, Bool.false_eq_true, if_true, if_false, State.raisedBy]
              rfl
            · simp only [h1, h2, Bool.false_eq_true, if_false, State.raisedBy]

/-- The service as its return has ended, before the end is reported (R99). -/
def State.restored (s : State) (i : Nat) : State :=
  (if (s.sp i).cur.isSome then discardRole s i .current else s).modSp i SpliceRec.returned

theorem restored_sp : ∃ q, (s.restored i).sp i = { (s.sp i).returned with raReq := q } := by
  rw [State.restored, State.sp_modSp, if_pos rfl]
  split
  · exact ⟨_, by rw [State.sp, discardRole_svc, if_pos rfl]; rfl⟩
  · exact ⟨_, rfl⟩

theorem restored_entries : (s.restored i).entries = s.entries := by
  unfold State.restored
  split <;> rfl

theorem restored_box (p : PortId) : (s.restored i).box p = s.box p := by
  unfold State.restored
  split <;> rfl

section
variable (hcur : ∀ o, (s.sp i).cur = some o → o.owner = .ended ∧ o.allStopped = false ∧ o.spent = false)
  (hnxt : (s.sp i).nxt = none) (hwait : (s.sp i).waiting = none) (hret : (s.sp i).ret ≠ .idle)
  (hbeg : (s.sp i).retBegun = true) (hback : ∀ x ∈ (s.sp i).comps, x.replaced = false ∧ x.unsent = false)
  (hact : activeEntry s i = some e) (hfree : holdingAlert s i = none)
include hcur hnxt hwait hret hbeg hback hact hfree

/-- The end of an ACTIVE entry's return, with at most an instance of an ended entry left. -/
theorem svcStep_ends_return : svcStep s i = some (finishReturn s i) := by
  have hown : playingOwner s i = some (.entry e.num) := playingOwner_entry hact fun r t hr => absurd (hfree.symm.trans hr) nofun
  have hserve : serveWaiting s i = none := by simp [serveWaiting, hwait]
  have hall : (s.sp i).comps.all (fun c => !c.replaced && !c.unsent) = true := List.all_eq_true.2 fun x hx => by
    obtain ⟨h1, h2⟩ := hback x hx
    simp [h1, h2]
  cases hc : (s.sp i).cur with
  | none =>
    have hclip : clipEndStep s i = none := by simp [clipEndStep, hc]
    have hlate : lateExhaust s i = none := by simp [lateExhaust, hc]
    have hfin : finishOrPromote s i = none := by simp [finishOrPromote, hc, hnxt]
    have hdone : returnDone s i = true := by simp [returnDone, hc, hnxt, hbeg, hall, hret]
    simp [svcStep, hserve, hclip, hlate, hfin, hdone]
  | some o =>
    obtain ⟨hended, hstops, hspent⟩ := hcur o hc
    have hclip : clipEndStep s i = none := by simp [clipEndStep, hc, hnxt, ownerStep, hended]
    have hlate : lateExhaust s i = none := by simp [lateExhaust, hc, hnxt]
    have hplays : finished (s.sp i) .current = false := by simp [finished, SpliceRec.inst, hc, hstops, hspent]
    have hnext : finished (s.sp i) .next = false := by simp [finished, SpliceRec.inst, hnxt]
    have hfin : finishOrPromote s i = none := by simp [finishOrPromote, hc, hplays, hnext]
    have hdone : returnDone s i = true := by simp [returnDone, hc, hnxt, hbeg, hall, hret, hown, hended]
    simp [svcStep, hserve, hclip, hlate, hfin, hdone]

omit hcur hnxt hwait hret hbeg hback in
theorem finishReturn_entry (hs : s.Numbered) : finishReturn s i =
    returnEnded (s.restored i) e ((s.sp i).ret == .emergency) (match (s.sp i).ret with | .returning x => some x | _ => none) := by
  have hown : playingOwner s i = some (.entry e.num) := playingOwner_entry hact fun r t hr => absurd (hfree.symm.trans hr) nofun
  have hent : ((if (s.sp i).cur.isSome then discardRole s i .current else s).modSp i SpliceRec.returned).entry e.num = some e := by
    refine (congrArg (fun x => Table.get none x e.num) (restored_entries (s := s) (i := i))).trans ?_
    exact hs.entry_of_find hact
  unfold finishReturn
  simp only [hown, hent]
  rfl

/-- What the end of the return leaves: the record reset, the entry gone with its result, and the condition raised. -/
theorem return_ends (hs : s.Numbered) (hres : e.returnResult ((s.sp i).ret == .emergency)
      (match (s.sp i).ret with | .returning x => some x | _ => none) = (r, raised)) :
    ∃ t, svcStep s i = some t ∧ t.entry e.num = none
      ∧ (t.sp i).ret = .idle ∧ (t.sp i).retBegun = false ∧ (t.sp i).cur = none ∧ (t.sp i).head = none
      ∧ (t.sp i).sigmaP = none ∧ (t.sp i).cutX = none
      ∧ (t.sp i).comps = (s.sp i).comps.map (fun x => { CompState.reset with mark := x.mark })
      ∧ (∀ x, raised = some x → (t.svc i).cond.flags.getLsbD x.pos = true)
      ∧ ((s.box e.origin).queue.length < 31 →
          Event.entryEnd r e.num i e.podIdx (e.pod.headD 0) e.sEff e.e ∈ (t.box e.origin).queue) := by
  have hi : e.svc = i := activeEntry_svc hact
  let w := (s.restored i).raisedBy e.svc raised
  have hw : w.sp i = (s.restored i).sp i := by
    dsimp only [w, State.raisedBy]
    split
    · exact raise_sp _ _ _ _
    · rfl
  have hwent : w.entries = s.entries := by
    dsimp only [w, State.raisedBy]
    split
    · exact (raise_entries _ _ _).trans restored_entries
    · exact restored_entries
  have hask : Asked i w (endAndRelease w e r) := Asked.endAndRelease w e r
  obtain ⟨q, hq⟩ := restored_sp (s := s) (i := i)
  have hwsp : w.sp i = { (s.sp i).returned with raReq := q } := hw.trans hq
  refine ⟨endAndRelease w e r, ?_, endAndRelease_gone (hs.of_entries hwent) e r, by rw [hask.ret, hwsp]; rfl, by rw [hask.retBegun, hwsp]; rfl,
    by rw [hask.cur, hwsp]; rfl, hask.empty (by rw [hwsp]; rfl), by rw [hask.sigmaP, hwsp]; rfl, by rw [hask.cutX, hwsp]; rfl,
    by rw [hask.comps, hwsp]; rfl, fun x hx => ?_, fun hroom => ?_⟩
  · rw [svcStep_ends_return hcur hnxt hwait hret hbeg hback hact hfree, finishReturn_entry hact hfree hs, returnEnded_eq, hres]
  · refine (Kept.endAndRelease (Kept.refl w) e r).flags i _ ?_
    dsimp only [w]
    rw [hx, hi]
    exact raise_flag _ _ _
  · have hbox : (w.box e.origin).queue.length ≤ (s.box e.origin).queue.length + 1 := by
      rw [← restored_box (s := s) (i := i)]
      dsimp only [w, State.raisedBy]
      split
      · exact raise_queue_le _ _
      · exact Nat.le_succ _
    have hmem := endAndRelease_reports (s := w) e r (by omega)
    rw [Entry.endEvent, hi] at hmem
    exact hmem

end

/-- Settles O28: the stop at E by `examineCur`, the end of the return by `returnEnded`. -/
theorem returnStopsClipAndEndsEntry : Obligations.ReturnStopsClipAndEndsEntry := by
  refine ⟨?_, ?_⟩
  · intro s i o b c x p pts reached hhead hcur hnxt hret hb hc hst
    have hstop : stopsAtE (s.took i o b) i (rebasedPts (o.took b) b) = true ↔ inputThere s i = true ∧ reached := took_stopsAtE hret
    exact ⟨fun hr hin => fillHead_stopsAtE hhead hcur hnxt hret hb hc hst (hstop.2 ⟨hin, hr⟩),
      fun h => fillHead_goes_on hhead hcur hnxt hb hc hst fun hs => h.elim (fun hr => hr (hstop.1 hs).2)
        fun hin => absurd ((hstop.1 hs).1.symm.trans hin) nofun⟩
  · intro s i e p hcur hnxt hwait hret hbeg hback hact hfree hwf hnum ends
    have hends {r : EntryResult} {raised : Option Cond} (h : e.returnResult (p.ret == .emergency)
        (match p.ret with | .returning x => some x | _ => none) = (r, raised)) : ends r raised :=
      return_ends hcur hnxt hwait hret hbeg hback hact hfree ⟨hwf, hnum⟩ h
    refine ⟨fun he => hends ?_, fun x hx hcan => hends ?_, fun x y hx hcan hend => ⟨fun hd => hends ?_, fun hd => hends ?_, fun hd => hends ?_⟩,
      fun x hx hcan hend => hends ?_⟩
    · rw [he]
      rfl
    · rw [hx]
      simp [Entry.returnResult, hcan]
    · rw [hx]
      simp [Entry.returnResult, hcan, hend, hd]
    · rw [hx]
      simp [Entry.returnResult, hcan, hend, hd]
    · rw [hx]
      have h1 : ¬sdiff nPts x y < 0 := by omega
      have h2 : sdiff nPts x y ≠ 0 := by omega
      simp [Entry.returnResult, hcan, hend, h1, h2]
    · rw [hx]
      simp [Entry.returnResult, hcan, hend]

end Sys2Proof.Machine
end

section
/-! O27: the end of the clip that plays, by its owner (R70, R93, R94, R129, R149, R178). -/

namespace Sys2Proof.Machine

variable {s t u : State} {i m r f delta : Nat} {c : Inst} {e : Entry}

/-! ### The act at a clip's end comes first (log 55) -/

theorem svcStep_ownerStep (hcur : (s.sp i).cur = some c) (hnxt : (s.sp i).nxt = none) (hwait : (s.sp i).waiting = none)
    (ht : ownerStep s i c = some t) : svcStep s i = some t := by
  have hserve : serveWaiting s i = none := by simp [serveWaiting, hwait]
  have hclip : clipEndStep s i = some t := by
    unfold clipEndStep
    simp only [hcur, hnxt, ht]
  simp [svcStep, hserve, hclip]

theorem ownerStep_entry (hown : c.owner = .entry m) (he : s.entry m = some e) (hst : e.st = .active) :
    ownerStep s i c = podStep s i c e := by
  unfold ownerStep
  simp only [hown, he, hst, if_true]

theorem ownerStep_alert (hown : c.owner = .alert r) : ownerStep s i c = loopStep s i c r := by
  unfold ownerStep
  simp only [hown]

theorem nearEnd_iff : c.nearEnd = true ↔ (c.sealVals.k + 42) / 43 - c.k / 43 ≤ 4 := by
  rw [Inst.nearEnd, Inst.pageTotal, pagesOf, ceilDiv, decide_eq_true_eq]
  exact Iff.rfl

/-- A free next role takes the instance that is asked for (R77, R78). -/
theorem requestNext_free (q : InstReq) {x : ClipRec} {v : Seal} (hnxt : (s.sp i).nxt = none) (hx : s.clip q.clip = some x)
    (hv : x.sealVals = some v) : let t := requestNext s i q
    t = { s with services := t.services, boxes := t.boxes } ∧ (∀ j, j ≠ i → t.svc j = s.svc j)
    ∧ t.sp i = { s.sp i with nxt := some (newInst s i q x v) }
    ∧ ((newInst s i q x v).map.any (·.isNone) = true → (t.svc i).cond.flags.getLsbD Cond.unmap.pos = true) := by
  have hreq : requestNext s i q = placeInst s i q := by
    unfold requestNext
    simp only [hnxt]
  rw [hreq]
  exact placeInst_spec s i q hx hv

/-! ### The emergency return (R102, R129) -/

/-- An emergency return with nothing in the next role leaves nothing of the clip. -/
theorem startEmergency_alone (hnxt : (s.sp i).nxt = none) (o : Owner) : let t := startEmergency s i o
    (t.sp i).cur = none ∧ (t.sp i).nxt = none ∧ (t.sp i).head = none ∧ (t.sp i).ret = .emergency ∧ (t.sp i).retBegun = true
    ∧ (t.sp i).retTimer = some s.localCount ∧ t.entries = s.entries := by
  have hd : ∃ h q, (discardRole s i .current).sp i = { s.sp i with cur := none, head := h, raReq := q } := by
    rw [State.sp, discardRole_svc, if_pos rfl]
    exact ⟨_, _, rfl⟩
  obtain ⟨h, q, hd⟩ := hd
  have hn : ((discardRole s i .current).sp i).nxt = none := by rw [hd]; exact hnxt
  unfold startEmergency
  simp only [hn]
  refine ⟨?_, ?_, ?_, ?_, ?_, ?_, rfl⟩ <;> rw [State.sp_modSp, if_pos rfl]
  · rw [hd]
  · exact hn
  · rfl

/-! ### The end of the pod (R70, R94) -/

theorem podEnd_noted (he : s.entry m = some e) (h : e.retMode ≠ .cue ∨ e.e ≠ none) (delta : Nat) (v : Seal) :
    podEnd s m delta v = s.setEntry m (some { e with podEnded := true }) := by
  unfold podEnd
  simp only [he]
  exact if_neg fun hx => h.elim (fun h => h hx.1) (fun h => h hx.2)

/-- The end of a CUE pod without a return point hands the clip's end as E. -/
theorem podEnd_handed (he : s.entry m = some e) (hi : e.svc = i) (hmode : e.retMode = .cue) (hpt : e.e = none)
    (hbeg : (s.sp i).retBegun = false) (hret : (s.sp i).ret ≠ .emergency) (delta : Nat) (v : Seal) : let t := podEnd s m delta v
    (t.sp i).ret = .returning (endOf v delta) ∧ t = { s with services := t.services, entries := t.entries } := by
  subst hi
  intro t
  let w := (s.setEntry m (some { e with podEnded := true })).setEntry m (some { e with podEnded := true, e := some (endOf v delta) })
  have hw : handE w e.svc (endOf v delta) = w.modSp e.svc (fun p => p.handed (endOf v delta) (openTimer w e.svc) (w.cfgOf e.svc).seekLimit) :=
    handE_of_open (s := w) hbeg hret _
  have ht : t = (handE w e.svc (endOf v delta)).modSp e.svc (fun p => { p with fixE := (s.sp e.svc).fixE && !p.retBegun }) := by
    dsimp only [t]
    unfold podEnd
    simp only [he]
    rw [if_pos ⟨hmode, hpt⟩]
    simp only [keepAwaiting, setE, State.entry_setEntry_self]
    rfl
  rw [ht, hw]
  refine ⟨?_, rfl⟩
  rw [State.sp_modSp, if_pos rfl, State.sp_modSp, if_pos rfl]
  rfl

theorem podStep_asks (hf : e.pod[e.podIdx + 1]? = some f) (hnear : c.nearEnd = true) (hnxt : (s.sp i).nxt = none)
    (hwait : (s.sp i).waiting = none) (hbeg : (s.sp i).retBegun = false) (hret : (s.sp i).ret ≠ .emergency) : podStep s i c e =
    if s.clipDamaged f then some (startEmergency s i c.owner)
    else if (s.sealOf f).isSome then
      some (requestNext s i { clip := f, owner := c.owner, s := some (endOf c.sealVals (c.delta.getD 0)) })
    else none := by
  unfold podStep
  simp only [hf]
  exact if_pos ⟨by simp [SpliceRec.nextFree, hnxt, hwait], by simp [hbeg], hret, hnear⟩

theorem podStep_last (hf : e.pod[e.podIdx + 1]? = none) (hspent : c.spent = true) (hplay : c.phase = .playing) : podStep s i c e =
    if e.podEnded = false then some (podEnd s e.num (c.delta.getD 0) c.sealVals) else none := by
  unfold podStep
  simp only [hf, hspent, hplay, true_and]

/-- Settles O27: the acts of `podStep` and `loopStep`, each the first that is due. -/
theorem endOfClipAsksForNextOrReturns : Obligations.EndOfClipAsksForNextOrReturns := by
  intro s i c delta p fin nearEnd asks hcur hnxt hwait hdelta hbeg hret
  have hfin : endOf c.sealVals (c.delta.getD 0) = fin := by rw [hdelta]; rfl
  have hasks {clip : Nat} (ht : ∀ x v, s.clip clip = some x → x.sealVals = some v →
      ownerStep s i c = some (requestNext s i { clip := clip, owner := c.owner, s := some (endOf c.sealVals (c.delta.getD 0)) })) :
      asks clip := fun x v hx hv => by
    obtain ⟨hframe, hothers, hsp, hunmap⟩ := requestNext_free (s := s) (i := i)
      { clip := clip, owner := c.owner, s := some (endOf c.sealVals (c.delta.getD 0)) } hnxt hx hv
    exact ⟨_, newInst s i { clip := clip, owner := c.owner, s := some (endOf c.sealVals (c.delta.getD 0)) } x v,
      svcStep_ownerStep hcur hnxt hwait (ht x v hx hv), hframe, hothers, by rw [hsp], rfl, rfl, rfl, congrArg some hfin, rfl, rfl, rfl,
      rfl, hunmap⟩
  refine ⟨fun m e hown he hnum hsvc hst => ⟨fun f hf hnear => ?_, fun hf hk hplay => ⟨fun hpod hmode hpt => ?_, fun hpod hor => ?_, fun hpod => ?_⟩⟩,
    fun r hown hidle => ⟨fun hloop hdam hon hfix hnear => hasks fun x v hx hv => ?_, fun hlast hk => ?_⟩⟩
  · have hpod := podStep_asks (s := s) (i := i) hf (nearEnd_iff.2 hnear) hnxt hwait hbeg hret
    refine ⟨fun hdam => hasks fun x v hx hv => ?_, fun hdam => ?_⟩
    · have hseal : (s.sealOf f).isSome = true := by simp [State.sealOf, hx, hv]
      rw [ownerStep_entry hown he hst, hpod, hdam, hseal]
      rfl
    · rw [hdam] at hpod
      exact ⟨_, svcStep_ownerStep hcur hnxt hwait ((ownerStep_entry hown he hst).trans hpod), startEmergency_alone hnxt c.owner⟩
  · have hstep := (ownerStep_entry (i := i) hown he hst).trans (podStep_last hf (beq_iff_eq.2 hk) hplay)
    rw [if_pos hpod, hnum] at hstep
    obtain ⟨hent, hothers⟩ := podEnd_spec (s := s) (delta := c.delta.getD 0) (v := c.sealVals) he
    obtain ⟨hto, hframe⟩ := podEnd_handed he hsvc hmode hpt hbeg hret (c.delta.getD 0) c.sealVals
    rw [if_pos ⟨hmode, hpt⟩, hfin] at hent
    exact ⟨_, svcStep_ownerStep hcur hnxt hwait hstep, hent, by rw [hto, hfin], hothers, hframe⟩
  · have hstep := (ownerStep_entry (i := i) hown he hst).trans (podStep_last hf (beq_iff_eq.2 hk) hplay)
    rw [if_pos hpod, hnum, podEnd_noted he hor] at hstep
    exact ⟨_, svcStep_ownerStep hcur hnxt hwait hstep, State.entry_setEntry_self s m _,
      fun n hn => (State.entry_setEntry s m _ n).trans (if_neg hn), rfl⟩
  · have hstep := (ownerStep_entry (i := i) hown he hst).trans (podStep_last hf (beq_iff_eq.2 hk) hplay)
    rw [if_neg (by rw [hpod]; nofun)] at hstep
    unfold clipEndStep
    simp only [show (s.sp i).cur = some c from hcur, show (s.sp i).nxt = none from hnxt, hstep]
  · have hpass : lastPass s r = false := by simp [lastPass, hloop, hdam]
    rw [ownerStep_alert hown, loopStep, if_neg (fun h => h hidle), hpass, if_neg nofun]
    exact if_pos ⟨hon, by simp [show (s.sp i).fixE = false from hfix], by
      simp [SpliceRec.nextFree, show (s.sp i).nxt = none from hnxt, show (s.sp i).waiting = none from hwait], nearEnd_iff.2 hnear⟩
  · have hpass : lastPass s r = true := by
      rcases hlast with h | h <;> simp [lastPass, h]
    have hspent : c.spent = true := beq_iff_eq.2 hk
    have hstep : ownerStep s i c = some (handClipEnd s r i c) := by
      rw [ownerStep_alert hown, loopStep, if_neg (fun h => h hidle), hpass, if_pos rfl, hspent]
      exact if_pos rfl
    obtain ⟨hframe, -, hsv, hal, -⟩ := handClipEnd_spec (s := s) (i := i) r c hidle hbeg
    rw [hfin] at hal hsv
    have hsp : (handClipEnd s r i c).sp i = { s.sp i with
        ret := .returning fin, retOverdue := false, retTimer := openTimer s i, retSeek := (s.cfgOf i).seekLimit } := by rw [State.sp, hsv]
    refine ⟨_, svcStep_ownerStep hcur hnxt hwait hstep, by rw [hsp], by rw [hsp], fun x hx hxi => ?_, hframe⟩
    rw [hal] at hx
    rcases mem_modTarget (f := fun x => { x with e := some fin }) (fun _ => rfl) hx with ⟨-, y, -, rfl⟩ | ⟨h, -⟩
    · rfl
    · exact absurd hxi h

end Sys2Proof.Machine
end

section
/-! O26: the cut from a clip to the next, at its point, by force or at exhaustion, and what follows it (R64, R69, R76, R77, R84 to R86,
R94, R100, R152, R178). -/

namespace Sys2Proof.Machine

variable {s t u w : State} {i c m r sEff x y due : Nat} {o nx z : Inst} {b : Pkt} {e a : Entry} {g : Target} {forced : Bool}

/-! ### The end of a repeated clip (R178) -/

/-- `t` is a state behind `s` in which the repeated clip `o` of record `r` has run out: its end is handed on the last pass only. -/
structure RepeatEnds (s : State) (i r : Nat) (o : Inst) (t : State) : Prop where
  goes : lastPass s r = false → (t.sp i).ret = .idle ∧ t.alerts = s.alerts
  ends : lastPass s r = true → (t.sp i).ret = .returning (endOf o.sealVals (o.delta.getD 0)) ∧ (t.sp i).retBegun = false
    ∧ (t.sp i).fixE = (s.sp i).fixE
    ∧ (∀ x ∈ (t.alert r).targets, x.svc = i → x.e = some (endOf o.sealVals (o.delta.getD 0)))
    ∧ ∀ q, q ≠ r → t.alert q = s.alert q

theorem repeatEnd_ends (hcur : (s.sp i).cur = some o) (hnxt : (s.sp i).nxt = some nx) (ho : o.owner = .alert r) (hn : nx.owner = .alert r)
    (hspent : o.spent = true) (hret : (s.sp i).ret = .idle) (hbeg : (s.sp i).retBegun = false) : RepeatEnds s i r o (repeatEnd s i) := by
  have hrep : repeatEnd s i = if lastPass s r then handClipEnd s r i o else s := by
    unfold repeatEnd
    simp only [hcur, hnxt, ho, hspent, hn, hret, true_and]
  refine ⟨fun h => ?_, fun h => ?_⟩
  · rw [hrep, h, if_neg nofun]
    exact ⟨hret, rfl⟩
  · obtain ⟨-, -, hsv, hal, hals⟩ := handClipEnd_spec (s := s) (i := i) r o hret hbeg
    have hsp : (handClipEnd s r i o).sp i = { s.sp i with
        ret := .returning (endOf o.sealVals (o.delta.getD 0)), retOverdue := false, retTimer := openTimer s i
        retSeek := (s.cfgOf i).seekLimit } := by rw [State.sp, hsv]
    rw [hrep, h, if_pos rfl]
    refine ⟨by rw [hsp], by rw [hsp]; exact hbeg, by rw [hsp], fun x hx hxi => ?_, hals⟩
    rw [hal] at hx
    rcases mem_modTarget (f := fun x => { x with e := some (endOf o.sealVals (o.delta.getD 0)) }) (fun _ => rfl) hx with ⟨-, y, -, rfl⟩ | ⟨h, -⟩
    · rfl
    · exact absurd hxi h

/-- The state before may differ in what the end does not read, and the state after in what it does not set. -/
theorem RepeatEnds.of (h : RepeatEnds w i r z u) (hv : z.sealVals = o.sealVals) (hz : z.delta = o.delta) (ha : w.alerts = s.alerts) (hd : ∀ c, w.clipDamaged c = s.clipDamaged c)
    (hf : (w.sp i).fixE = (s.sp i).fixE) (hret : (t.sp i).ret = (u.sp i).ret) (hbeg : (t.sp i).retBegun = (u.sp i).retBegun)
    (hfix : (t.sp i).fixE = (u.sp i).fixE) (hta : t.alerts = u.alerts) : RepeatEnds s i r o t := by
  have hend : endOf z.sealVals (z.delta.getD 0) = endOf o.sealVals (o.delta.getD 0) := by rw [hv, hz]
  have hlast : lastPass w r = lastPass s r := by simp only [lastPass, State.alert, ha, hd]
  have hal (q : Nat) : t.alert q = u.alert q := by rw [State.alert, hta]; rfl
  have hal' (q : Nat) : w.alert q = s.alert q := by rw [State.alert, ha]; rfl
  refine ⟨fun hl => ?_, fun hl => ?_⟩
  · obtain ⟨h1, h2⟩ := h.goes (hlast.trans hl)
    exact ⟨hret.trans h1, hta.trans (h2.trans ha)⟩
  · obtain ⟨h1, h2, h3, h4, h5⟩ := h.ends (hlast.trans hl)
    rw [hend] at h1 h4
    exact ⟨hret.trans h1, hbeg.trans h2, hfix.trans (h3.trans hf), by rw [hal]; exact h4, fun q hq => (hal q).trans ((h5 q hq).trans (hal' q))⟩

/-! ### The packet that leaves the store at the end of the clip, and brings no cut (R91) -/

/-- The packet has left the store: it has been passed over, dropped, or placed at the head. -/
structure PacketLeft (s : State) (i : Nat) (o : Inst) (b : Pkt) (t : State) : Prop where
  kept : Kept s t
  sp : ∃ h, t.sp i = { s.sp i with cur := some (o.took b), head := h }
  entries : t.entries = s.entries
  alerts : t.alerts = s.alerts
  dir : t.dir = s.dir
  forced : ForcedKept i s t

theorem packetLeft_took (s : State) (i : Nat) (o : Inst) (b : Pkt) : PacketLeft s i o b (s.took i o b) where
  kept := took_kept s i o b
  sp := ⟨_, took_sp i o b⟩
  entries := took_entries s i o b
  alerts := took_alerts s i o b
  dir := by rw [took_frame]
  forced := (ForcedKept.of_splice (SpliceOnly.modSp i s _)).trans (ForcedKept.raiseIf _ _ i (by decide))

theorem packetLeft_placeHead (s : State) (i : Nat) (o : Inst) (b : Pkt) (due : Nat) :
    PacketLeft s i o b (placeHead (s.took i o b) i .current (o.took b) b due) := by
  have ht := packetLeft_took s i o b
  rcases placeHead_cases (s := s.took i o b) i .current (o.took b) b due with h | h | ⟨p, h⟩ <;> rw [h]
  · exact ht
  · exact ⟨Kept.raise ht.kept i .drop, by rw [raise_sp]; exact ht.sp, (raise_entries _ _ _).trans ht.entries,
      (raise_alerts _ _ _).trans ht.alerts, (raise_dir _ _ _).trans ht.dir, ht.forced.trans (ForcedKept.raise _ i (by decide))⟩
  · refine ⟨Kept.modSp ht.kept i _, ⟨some p, ?_⟩, ht.entries, ht.alerts, ht.dir, ht.forced.trans (.of_splice (SpliceOnly.modSp i _ _))⟩
    rw [State.sp_modSp, if_pos rfl, took_sp]

/-- The state at the report of a cut at exhaustion, `w` being the state behind the packet. -/
theorem exhaust_eq (hcur : (w.sp i).cur = some o) (hnxt : (w.sp i).nxt = some nx) (hspent : o.spent = true) (hseek : nx.phase = .seeking)
    (hret : (w.sp i).ret ≠ .emergency) (hbeg : (w.sp i).retBegun = false) (hx : nx.s = some x) :
    exhaust w i = reportCut (w.exhaustTaken i o nx x) i nx.owner x (cutDelta x nx.sealVals) nx.sealVals := by
  rw [← exhaustCut_eq hx]
  unfold exhaust
  simp only [hcur, hnxt]
  exact if_pos ⟨hspent, hseek, searchMode_clip hcur hret hbeg⟩

/-- The end of a repeated clip begins no return, and gives no emergency. -/
theorem repeatEnd_returning (hret : (s.sp i).ret = .idle) (hbeg : (s.sp i).retBegun = false) :
    ((repeatEnd s i).sp i).ret ≠ .emergency ∧ ((repeatEnd s i).sp i).retBegun = false := by
  rcases repeatEnd_cases s i with h | ⟨o, -, r, -, -, -, -, -, -, -, h⟩ <;> rw [h]
  · exact ⟨by rw [hret]; nofun, hbeg⟩
  · obtain ⟨-, -, hsv, -⟩ := handClipEnd_spec (s := s) (i := i) r o hret hbeg
    rw [State.sp, hsv]
    exact ⟨nofun, hbeg⟩

/-- The outgoing instance after a cut at exhaustion (R85): every component counts as stopped. -/
def Inst.exhausted (n : Inst) : Inst := { n with stopped := n.stopped.map (fun _ => true), phase := .ending }

theorem incoming_congr (hk : Kept s t) (n : Inst) : incoming t i n sEff due = incoming s i n sEff due := by
  simp only [incoming, hk.openTimer]

theorem dueOf_congr (hk : Kept s t) (hs : (t.sp i).sigmaP = (s.sp i).sigmaP) (hd : departure nx = departure o) :
    dueOf t i nx = dueOf s i o := by simp only [dueOf, hk.cfgOf, hs, hd]

section
variable (hhead : (s.sp i).head = none) (hcur : (s.sp i).cur = some o) (hnxt : (s.sp i).nxt = some nx) (hseek : nx.phase = .seeking)
  (hret : (s.sp i).ret = .idle) (hbeg : (s.sp i).retBegun = false) (hb : o.packet = some b)
include hhead hcur hnxt hseek hret hbeg hb

/-- The last packet of a clip brings no cut itself: the cut is taken at exhaustion, behind the end of a repeated clip. -/
theorem fillHead_exhausts (hx : nx.s = some x) (hk : o.k + 1 = o.sealVals.k)
    (hp : o.compOf b ≠ o.leadComp ∨ cutPoint (seekOverdue s i nx) nx (rebasedPts o b) = none) :
    ∃ w, PacketLeft s i o b w ∧ let E := (repeatEnd w i).exhaustTaken i (o.took b) nx x
      fillHead s i = some (reportCut E i nx.owner x (cutDelta x nx.sealVals) nx.sealVals)
      ∧ E.sp i = { (repeatEnd w i).sp i with cur := some (o.took b).exhausted, nxt := some (incoming s i nx x (dueOf s i o.advance)) } := by
  have hsp := took_sp (s := s) i o b
  have hleft : ∃ w, PacketLeft s i o b w ∧ fillHead s i = some (exhaust (repeatEnd w i) i) := by
    rw [fillHead_seeking hhead hcur hnxt hseek hb, takePacket_current]
    rcases examineCur_no_cut (s := s.took i o b) (i := i) (o := o.took b) (b := b) (due := dueOf s i o) (by rw [hsp]; exact hnxt) hseek
      (by rw [hsp]; exact hret) (hp.imp_right fun h => by rw [(took_kept s i o b).seekOverdue]; exact h) with h | h <;> rw [h]
    · exact ⟨_, packetLeft_took s i o b, rfl⟩
    · exact ⟨_, packetLeft_placeHead s i o b _, rfl⟩
  obtain ⟨w, hw, hfill⟩ := hleft
  obtain ⟨h, hwsp⟩ := hw.sp
  obtain ⟨hrc, hrn, -, hrs⟩ := repeatEnd_sp w i
  obtain ⟨hre, hrb⟩ := repeatEnd_returning (s := w) (i := i) (by rw [hwsp]; exact hret) (by rw [hwsp]; exact hbeg)
  have hspent : (o.took b).spent = true := beq_iff_eq.2 hk
  have hcur' : ((repeatEnd w i).sp i).cur = some (o.took b) := by rw [hrc, hwsp]
  have hnxt' : ((repeatEnd w i).sp i).nxt = some nx := by rw [hrn, hwsp]; exact hnxt
  have hkept : Kept s (repeatEnd w i) := hw.kept.repeatEnd i
  refine ⟨w, hw, hfill.trans (congrArg some (exhaust_eq hcur' hnxt' hspent hseek hre hrb hx)), ?_⟩
  rw [State.exhaustTaken, State.sp_modSp, if_pos rfl, hcur', incoming_congr hkept,
    dueOf_congr (nx := o.took b) (o := o.advance) hkept (by rw [hrs, hwsp]) rfl]
  rfl

end

/-! ### What the report tells an entry (R64, R69, R94) -/

section
variable (hent : u.entries = s.entries) (ht : t.entries = (reportCut u i (.entry m) sEff (cutDelta sEff nx.sealVals) nx.sealVals).entries)
  (he : s.entry m = some e)
include hent ht he

theorem reported_transition (hst : e.st = .active) : t.entry m = some { e with
      podIdx := e.podIdx + 1
      xEnd := if e.podIdx + 2 = e.pod.length then some (endOf nx.sealVals (cutDelta sEff nx.sealVals)) else e.xEnd
      e := if e.podIdx + 2 = e.pod.length ∧ e.retMode = .clipEnd ∧ e.cancelled = false then
          some (endOf nx.sealVals (cutDelta sEff nx.sealVals)) else e.e }
    ∧ ∀ n, n ≠ m → t.entry n = s.entry n := by
  have hu (n : Nat) : u.entry n = s.entry n := by rw [State.entry, hent]; rfl
  have htn (n : Nat) : t.entry n = (reportCut u i (.entry m) sEff (cutDelta sEff nx.sealVals) nx.sealVals).entry n := by
    rw [State.entry, ht]
    rfl
  obtain ⟨h1, h2⟩ := reportCut_active (sEff := sEff) (delta := cutDelta sEff nx.sealVals) ((hu m).trans he) hst i nx.sealVals
  exact ⟨(htn m).trans h1, fun n hn => (htn n).trans ((h2 n hn).trans (hu n))⟩

theorem reported_activation (hi : e.svc = i) (hst : e.st = .armed) (ha : activeEntry s i = some a) (hs : s.Numbered) :
    (∃ x, t.entry m = some x ∧ x.st = .active ∧ x.sEff = some sEff ∧ x.podIdx = 0) ∧ t.entry a.num = none := by
  subst hi
  have hu : u.entry m = some e := by rw [State.entry, hent]; exact he
  have hrep : reportCut u e.svc (.entry m) sEff (cutDelta sEff nx.sealVals) nx.sealVals =
      activate u m sEff (cutDelta sEff nx.sealVals) nx.sealVals := by
    unfold reportCut
    simp only [hu]
    exact if_neg (by rw [hst]; nofun)
  have htn (n : Nat) : t.entry n = (activate u m sEff (cutDelta sEff nx.sealVals) nx.sealVals).entry n := by
    rw [State.entry, ht, hrep]
    rfl
  rw [htn, htn]
  exact activate_over (hs.of_entries hent) hu hst ((activeEntry_congr hent).trans ha) nx.sealVals

end

/-! ### Finishing, promotion and the waiting request (R76, R77, R86) -/

/-- A finished instance goes with its pages and its reads; its packet was not at the head. -/
theorem discardRole_finished (k : Role) (hhead : ∀ h, (s.sp i).head = some h → h.role ≠ k) : let t := discardRole s i k
    t = { s with services := t.services, flash := t.flash } ∧ (∀ j, j ≠ i → t.svc j = s.svc j)
    ∧ t.svc i = { s.svc i with sp := { (s.sp i).setInst k none with
        raReq := if (s.sp i).raReq.map (·.role) = some k then none else (s.sp i).raReq } }
    ∧ t.flash = { s.flash with op := s.flash.op.map (fun o => if o.req = .readAhead i k then { o with orphan := true } else o) } := by
  refine ⟨discardRole_frame s i k, fun j hj => (discardRole_svc s i k j).trans (if_neg hj), ?_, discardRole_flash s i k⟩
  have hno : (s.sp i).head.map (·.role) ≠ some k := by
    cases hh : (s.sp i).head with
    | none => nofun
    | some h => exact fun hk => hhead h hh (Option.some.inj hk)
  rw [discardRole_svc, if_pos rfl, if_neg hno]
  cases k <;> rfl

theorem svcStep_finishes (hwait : serveWaiting s i = none) (hclip : clipEndStep s i = none) (hlate : lateExhaust s i = none)
    (ht : finishOrPromote s i = some t) : svcStep s i = some t := by simp [svcStep, hwait, hclip, hlate, ht]

theorem serveWaiting_none_iff : serveWaiting s i = none ↔ (s.sp i).waiting = none ∨ (s.sp i).nxt ≠ none := by
  unfold serveWaiting
  split
  · next q hq hn => simp [hq, hn]
  · next h =>
    refine ⟨fun _ => ?_, fun _ => rfl⟩
    by_contra hno
    obtain ⟨h1, h2⟩ := not_or.1 hno
    obtain ⟨q, hq⟩ := Option.ne_none_iff_exists'.1 h1
    exact h q hq (not_not.1 h2)

theorem finishOrPromote_current (hcur : (s.sp i).cur = some o) (hf : finished (s.sp i) .current = true) :
    finishOrPromote s i = some (discardRole s i .current) := by
  unfold finishOrPromote
  simp only [hcur, hf, if_true]

theorem finishOrPromote_next (hcur : (s.sp i).cur = some o) (hc : finished (s.sp i) .current = false)
    (hn : finished (s.sp i) .next = true) : finishOrPromote s i = some (discardRole s i .next) := by
  unfold finishOrPromote
  simp only [hcur, hc, hn, if_true, Bool.false_eq_true, if_false]

theorem finishOrPromote_promotes (hcur : (s.sp i).cur = none) (hnxt : (s.sp i).nxt = some nx) (hp : nx.phase ≠ .seeking) :
    finishOrPromote s i = some ((s.modSp i SpliceRec.toCurrent).modFlash (fun f => f.toCurrent i)) := by
  unfold finishOrPromote
  simp only [hcur, hnxt]
  exact if_pos hp

theorem svcStep_serves {q : InstReq} (hwait : (s.sp i).waiting = some q) (hnxt : (s.sp i).nxt = none) :
    svcStep s i = some (placeInst (s.modSp i (fun p => { p with waiting := none })) i q) := by
  have hserve : serveWaiting s i = some (placeInst (s.modSp i (fun p => { p with waiting := none })) i q) := by
    unfold serveWaiting
    simp only [hwait, hnxt]
  simp [svcStep, hserve]

/-! ### The two cuts, with their reports -/

/-- What a cut from the clip leaves: `nx` plays from `sEff`, at the due time `due`. -/
structure ClipCut (s : State) (i : Nat) (nx : Inst) (sEff due : Nat) (t : State) : Prop where
  next : (t.sp i).nxt = some (incoming s i nx sEff due)
  pod : ∀ m e, nx.owner = .entry m → s.entry m = some e → e.st = .active →
    t.entry m = some { e with
      podIdx := e.podIdx + 1
      xEnd := if e.podIdx + 2 = e.pod.length then some (endOf nx.sealVals (cutDelta sEff nx.sealVals)) else e.xEnd
      e := if e.podIdx + 2 = e.pod.length ∧ e.retMode = .clipEnd ∧ e.cancelled = false then
          some (endOf nx.sealVals (cutDelta sEff nx.sealVals)) else e.e }
    ∧ ∀ n, n ≠ m → t.entry n = s.entry n
  activates : ∀ m e a, nx.owner = .entry m → s.entry m = some e → e.svc = i → e.st = .armed → activeEntry s i = some a → s.Numbered →
    (∃ x, t.entry m = some x ∧ x.st = .active ∧ x.sEff = some sEff ∧ x.podIdx = 0) ∧ t.entry a.num = none

/-- A report, with no change of the schedule before it or after it. -/
theorem ClipCut.of_report (hnxt : (t.sp i).nxt = some (incoming s i nx sEff due)) (hu : u.entries = s.entries)
    (ht : t.entries = (reportCut u i nx.owner sEff (cutDelta sEff nx.sealVals) nx.sealVals).entries) : ClipCut s i nx sEff due t where
  next := hnxt
  pod m e ho he hst := by
    rw [ho] at ht
    exact reported_transition hu ht he hst
  activates m e a ho he hi hst ha hs := by
    rw [ho] at ht
    exact reported_activation hu ht he hi hst ha hs

section
variable (hhead : (s.sp i).head = none) (hcur : (s.sp i).cur = some o) (hnxt : (s.sp i).nxt = some nx) (hseek : nx.phase = .seeking)
  (hret : (s.sp i).ret = .idle) (hbeg : (s.sp i).retBegun = false) (hb : o.packet = some b)
include hhead hcur hnxt hseek hret hbeg hb

theorem fillHead_clipCut (hlead : o.leadComp = some c) (hc : o.compOf b = some c) (hst : o.isStopped c = false)
    (hp : cutPoint (seekOverdue s i nx) nx (rebasedPts o b) = some (sEff, forced)) :
    ∃ t z, fillHead s i = some t ∧ (t.sp i).head = none ∧ (t.sp i).cur = some z ∧ z.phase = .ending ∧ z.k = o.k + 1
      ∧ z.stopped = o.stopped.set c true ∧ ClipCut s i nx sEff (dueOf s i o) t
      ∧ (∀ r g, o.owner = .alert r → nx.owner = .alert r → (s.alert r).target i = some g → g.cut = true → o.k + 1 = o.sealVals.k →
          RepeatEnds s i r o t)
      ∧ (forced = true → (t.svc i).cond.flags.getLsbD Cond.forced.pos = true) := by
  obtain ⟨hfill, -, hafter⟩ := fillHead_cut hhead hcur hnxt hseek hret hbeg hb hlead hc hst hp
  let G := s.cutAtPacket i c o nx b sEff forced
  have hGsp : G.sp i = { s.sp i with cur := some ((o.took b).stop c), nxt := some (incoming s i nx sEff (dueOf s i o)) } := cutAtPacket_sp
  obtain ⟨own, hz, -⟩ := hafter.cur
  refine ⟨_, _, hfill, hafter.head.trans hhead, hz, rfl, rfl, rfl,
    ClipCut.of_report (u := G) hafter.next cutAtPacket_entries (repeatEnd_entries _ _), fun r g ho hn hg hgc hk => ?_, fun hf => ?_⟩
  · have hGg : (G.alert r).target i = some g := by rw [State.alert, cutAtPacket_alerts]; exact hg
    have hrep : reportCut G i nx.owner sEff (cutDelta sEff nx.sealVals) nx.sealVals = G := by
      rw [hn]
      exact alertCut_again hGg hgc
    rw [hrep]
    exact (repeatEnd_ends (s := G) (o := (o.took b).stop c) (nx := incoming s i nx sEff (dueOf s i o)) (by rw [hGsp]) (by rw [hGsp]) ho hn
      (beq_iff_eq.2 hk) (by rw [hGsp]; exact hret) (by rw [hGsp]; exact hbeg)).of rfl rfl cutAtPacket_alerts (fun _ => cutAtPacket_clipDamaged _)
      (by rw [hGsp]) rfl rfl rfl rfl
  · exact Eq.trans ((ForcedKept.reportCut G i nx.owner sEff _ _).trans (repeatEnd_forced _ i)) (cutAtPacket_forced hf)

theorem fillHead_exhaustCut (hx : nx.s = some x) (hk : o.k + 1 = o.sealVals.k)
    (hp : o.compOf b ≠ o.leadComp ∨ cutPoint (seekOverdue s i nx) nx (rebasedPts o b) = none) :
    ∃ t z, fillHead s i = some t ∧ (t.sp i).cur = some z ∧ z.phase = .ending ∧ z.k = o.sealVals.k
      ∧ z.stopped = List.replicate o.stopped.length true ∧ ClipCut s i nx x (dueOf s i o.advance) t
      ∧ (∀ r g, o.owner = .alert r → nx.owner = .alert r → (s.alert r).target i = some g → g.cut = true → RepeatEnds s i r o t)
      ∧ ForcedKept i s t := by
  obtain ⟨w, hw, hfill, hE⟩ := fillHead_exhausts hhead hcur hnxt hseek hret hbeg hb hx hk hp
  let E := (repeatEnd w i).exhaustTaken i (o.took b) nx x
  obtain ⟨h, hwsp⟩ := hw.sp
  have hmade := (RolesKept.reportCut (i := i) E i nx.owner x (cutDelta x nx.sealVals) nx.sealVals).cutMade hE nofun
  obtain ⟨own, hz, -⟩ := hmade.cur
  have hEent : E.entries = s.entries := (repeatEnd_entries w i).trans hw.entries
  refine ⟨_, _, hfill, hz, rfl, hk, List.map_const' .., ClipCut.of_report hmade.next hEent rfl, fun r g ho hn hg hgc => ?_, ?_⟩
  · have hwg : (w.alert r).target i = some g := by rw [State.alert, hw.alerts]; exact hg
    have hcut : ((E.alert r).target i).map (·.cut) = some true := by
      refine (repeatEnd_cut w r i).trans ?_
      rw [hwg, Option.map_some, hgc]
    obtain ⟨g', hg', hgc'⟩ := Option.map_eq_some_iff.1 hcut
    have hrep : reportCut E i nx.owner x (cutDelta x nx.sealVals) nx.sealVals = E := by
      rw [hn]
      exact alertCut_again hg' hgc'
    rw [hrep]
    have hdam (c : Nat) : w.clipDamaged c = s.clipDamaged c := by simp only [State.clipDamaged, State.clip, hw.dir]
    exact (repeatEnd_ends (s := w) (o := o.took b) (nx := nx) (by rw [hwsp]) (by rw [hwsp]; exact hnxt) ho hn (beq_iff_eq.2 hk)
      (by rw [hwsp]; exact hret) (by rw [hwsp]; exact hbeg)).of (t := E) rfl rfl hw.alerts hdam (by rw [hwsp]) (by rw [hE]) (by rw [hE]) (by rw [hE]) rfl
  · refine ((hw.forced.trans (repeatEnd_forced w i)).trans ?_).trans (ForcedKept.reportCut E i nx.owner x _ _)
    exact .of_splice (SpliceOnly.modSp i _ _)

end

/-- Settles O26: the cut by `examineCur` or `exhaust`, then `finishOrPromote` and `serveWaiting`. -/
theorem clipCutOrExhaustionHandsOver : Obligations.ClipCutOrExhaustionHandsOver := by
  refine ⟨?_, ?_⟩
  · intro s i o nx b p late pts hhead hcur hnxt hseek hret hbeg hb taken reported
    have hreports {t : State} {sEff due : Nat} (h : ClipCut s i nx sEff due t)
        (hrep : ∀ r g, o.owner = .alert r → nx.owner = .alert r → (s.alert r).target i = some g → g.cut = true →
          o.k + 1 = o.sealVals.k → RepeatEnds s i r o t) : reported t sEff := by
      refine ⟨fun m e ho he _ _ hst => h.pod m e ho he hst, fun m e a ho he hi hst ha hwf hnum => h.activates m e a ho he hi hst ha ⟨hwf, hnum⟩,
        fun r g ho hn hg hgc hk => ⟨fun hl hd => (hrep r g ho hn hg hgc hk).goes ?_, fun hl => (hrep r g ho hn hg hgc hk).ends ?_⟩⟩
      · simp [lastPass, hl, hd]
      · rcases hl with hl | hl <;> simp [lastPass, hl]
    refine ⟨fun c hlead hc hst => ?_, fun x hx hk hp => ?_⟩
    · intro cutAt
      have hcuts {sEff : Nat} {forced : Bool} (hp : cutPoint late nx pts = some (sEff, forced)) : cutAt sEff forced := by
        obtain ⟨t, z, hfill, hempty, hz, hend, hzk, hstop, hcut, hrep, hforced⟩ :=
          fillHead_clipCut hhead hcur hnxt hseek hret hbeg hb hlead hc hst hp
        exact ⟨t, z, hfill, hempty, hz, hend, hzk, hstop, hcut.next, hreports hcut hrep, hforced⟩
      refine ⟨fun x hx hl => hcuts ?_, fun x y hx hl hy hat => hcuts ?_, fun hx hl => hcuts ?_, fun y hx hl hy => hcuts ?_⟩
      · simp only [cutPoint, hx, hl, if_true]
      · simp [cutPoint, hx, hl, hy, ptsAt, hat]
      · simp only [cutPoint, hx, hl, if_true]
      · simp [cutPoint, hx, hl, hy]
    · have hnone : o.compOf b ≠ o.leadComp ∨ cutPoint late nx pts = none := hp.imp_right fun ⟨hl, hat⟩ => by
        have hno : ptsAt pts x = false := by
          cases hz : pts with
          | none => rfl
          | some y => exact hat y hz
        simp [cutPoint, hx, hl, hno]
      obtain ⟨t, z, hfill, hz, hend, hzk, hstop, hcut, hrep, hforced⟩ := fillHead_exhaustCut hhead hcur hnxt hseek hret hbeg hb hx hk hnone
      exact ⟨t, z, hfill, hz, hend, hzk, hstop, hcut.next, hreports hcut fun r g ho hn hg hgc _ => hrep r g ho hn hg hgc, hforced⟩
  · intro s i p stopped finishes gone
    refine ⟨fun hwait hclip hlate => ?_, fun n hcur hnxt hp => ?_, fun q r v hwait hnxt hr hv => ?_⟩
    · have hserve := serveWaiting_none_iff.2 hwait
      have hdone {k : Role} {n : Inst} (h : finishes k n) : finished (s.sp i) k = true := (finished_iff (s.sp i) k n h.1).2 h.2
      refine ⟨fun n hf => ?_, fun o n hcur hno hf => ?_⟩
      · exact ⟨_, svcStep_finishes hserve hclip hlate (finishOrPromote_current hf.1 (hdone hf)), discardRole_finished .current hf.2.2.2⟩
      · have hplays : finished (s.sp i) .current = false :=
          Bool.eq_false_iff.2 fun h => hno ⟨hcur, (finished_iff (s.sp i) .current o hcur).1 h⟩
        exact ⟨_, svcStep_finishes hserve hclip hlate (finishOrPromote_next hcur hplays (hdone hf)), discardRole_finished .next hf.2.2.2⟩
    · have hserve : serveWaiting s i = none := serveWaiting_none_iff.2 (.inr (by rw [hnxt]; nofun))
      have hclip : clipEndStep s i = none := by simp [clipEndStep, show (s.sp i).cur = none from hcur]
      have hlate : lateExhaust s i = none := by simp [lateExhaust, show (s.sp i).cur = none from hcur]
      refine ⟨_, svcStep_finishes hserve hclip hlate (finishOrPromote_promotes hcur hnxt hp), rfl,
        ((SpliceOnly.modSp i s SpliceRec.toCurrent).trans (SpliceOnly.modFlash i _ _)).others, ?_, ?_⟩
      · rw [State.modFlash_svc, State.modSp, State.svc_modSvc, if_pos rfl]
        exact congrArg (fun (x : Option Inst) => { s.svc i with sp := { s.sp i with
          cur := x, nxt := none, head := (s.sp i).head.map (fun (h : HeadPkt) => { h with role := .current })
          raReq := (s.sp i).raReq.map (fun (q : RaReq) => { q with role := .current }) } }) hnxt
      · simp [State.modFlash, State.withFlash, Flash.toCurrent]
    · have hk : Kept s (s.modSp i (fun p => { p with waiting := none })) := (Kept.refl s).modSp i _
      obtain ⟨hframe, hothers, hsp, hunmap⟩ := placeInst_spec (s.modSp i (fun p => { p with waiting := none })) i q hr hv
      refine ⟨_, newInst (s.modSp i (fun p => { p with waiting := none })) i q r v, svcStep_serves hwait hnxt, Eq.trans hframe rfl,
        fun j hj => (hothers j hj).trans ((State.svc_modSvc s i j _).trans (if_neg hj)), ?_, rfl, rfl, rfl, rfl, rfl, rfl, rfl, rfl, rfl, rfl, rfl,
        ?_, ?_, hunmap⟩
      · rw [hsp, State.sp_modSp, if_pos rfl]
      · exact congrArg LaneSettings.seekLimit (hk.cfgOf i)
      · exact congrArg (mapComps v.comps) (hk.defComps i)

end Sys2Proof.Machine
end

section
/-! What the laws of the schedule read (R48, R49, R65), as a view of the state, and the laws on it. -/

namespace Sys2Proof.Machine

/-- What the laws of the schedule read: the entries, the alert records, each service's lane and each lane's pool, and of each
service's splice record the owners of its instances and of its request that waits, the next one's with whether it is SEEKING. -/
structure View where
  entries : Table (Option Entry)
  alert : Nat → AlertRec
  laneOf : Nat → Option Nat
  pool : Nat → Nat
  cur : Nat → Option Owner
  nxt : Nat → Option (Owner × Bool)
  waits : Nat → Option Owner

/-- An instance of the next role as the laws read it. -/
def Inst.asks (n : Inst) : Owner × Bool := (n.owner, n.phase == .seeking)

def State.view (s : State) : View where
  entries := s.entries
  alert := s.alert
  laneOf := s.laneOf
  pool k := (s.lane k).cfg.pool
  cur i := (s.sp i).cur.map (·.owner)
  nxt i := (s.sp i).nxt.map Inst.asks
  waits i := (s.sp i).waiting.map (·.owner)

namespace View

def entry (V : View) (n : Nat) : Option Entry := Table.get none V.entries n

/-- The view with one entry replaced. -/
def set (V : View) (n : Nat) (e : Option Entry) : View := { V with entries := Table.set none V.entries n e }

/-- What an entry draws on a lane's pool: its commitment, when its service is the lane's. -/
def charge (V : View) (k : Nat) (e : Entry) : Nat := if V.laneOf e.svc = some k then e.commitment else 0

/-- Entry `n` stands in a state on service `i`. -/
def stands (V : View) (n i : Nat) (st : EntryState) : Prop := ∃ e, V.entry n = some e ∧ e.svc = i ∧ e.st = st

/-- No instance and no request that waits is entry `n`'s. -/
def Unowned (V : View) (n : Nat) : Prop :=
  (∀ i, V.cur i ≠ some (.entry n)) ∧ (∀ i b, V.nxt i ≠ some (.entry n, b)) ∧ ∀ i, V.waits i ≠ some (.entry n)

end View

/-- The laws of the schedule on a view: those of `SchedulerLaws`, with the commitments summed over the whole schedule, which comes
to the same where an entry that is neither ARMED nor ACTIVE commits nothing. -/
structure Laws (V : View) : Prop where
  table : Table.wf none V.entries = true
  num : ∀ n e, V.entry n = some e → e.num = n
  charged : ∀ n e, V.entry n = some e → e.st ≠ .armed → e.st ≠ .active → e.commitment = 0
  oneActive : ∀ n m i, V.stands n i .active → V.stands m i .active → n = m
  oneArmed : ∀ n m i, V.stands n i .armed → V.stands m i .armed → n = m
  levels : ∀ n m e f, V.entry n = some e → V.entry m = some f → e.svc = f.svc → e.st = .armed → f.st = .active →
    levelOf f.origin < levelOf e.origin
  held : ∀ r n i, r < 4 → (V.alert r).holds i = true → ¬V.stands n i .armed
  cut : ∀ r n t, r < 4 → (V.alert r).st ≠ .idle → t ∈ (V.alert r).targets → t.status = .held → t.cut = true →
    ¬V.stands n t.svc .active
  targets : ∀ r, r < 4 → ((V.alert r).targets.map (·.svc)).Nodup
  pool : ∀ k, ((Table.vals V.entries).map (V.charge k)).sum ≤ V.pool k
  current : ∀ i n, V.cur i = some (.entry n) → V.stands n i .active
  next : ∀ i n b, V.nxt i = some (.entry n, b) → V.stands n i .active ∨ V.stands n i .armed ∧ b = true
  waits : ∀ i n, V.waits i = some (.entry n) → V.stands n i .armed ∧ V.nxt i ≠ some (.entry n, true)

theorem Laws.committed_eq {s : State} (h : ∀ n e, s.entry n = some e → e.st ≠ .armed → e.st ≠ .active → e.commitment = 0)
    (hw : Table.wf none s.entries = true) (k : Nat) : committed s k = ((Table.vals s.view.entries).map (s.view.charge k)).sum := by
  have hz : ∀ e ∈ s.schedule, e.st ≠ .armed → e.st ≠ .active → e.commitment = 0 := fun e he ha hb => by
    obtain ⟨n, hn⟩ := (mem_schedule_iff hw e).1 he
    exact h n e hn ha hb
  unfold committed
  change _ = (s.schedule.map (s.view.charge k)).sum
  generalize s.schedule = l at hz
  induction l with
  | nil => rfl
  | cons e r ih =>
    have ih := ih fun x hx => hz x (List.mem_cons_of_mem _ hx)
    have he := hz e List.mem_cons_self
    have hc : s.view.charge k e = if s.laneOf e.svc = some k then e.commitment else 0 := rfl
    rw [List.map_cons, List.sum_cons, ← ih, hc]
    by_cases hl : s.laneOf e.svc = some k
    · by_cases hs : e.st = .armed ∨ e.st = .active
      · simp [hl, hs]
      · obtain ⟨ha, hb⟩ := not_or.1 hs
        simp [hl, ha, hb, he ha hb]
    · simp [hl]

/-- The laws of a state are those of its view. -/
theorem schedulerLaws_iff (s : State) : SchedulerLaws s ↔ Laws s.view := by
  constructor
  · intro h
    constructor
    case table => exact h.table
    case num => exact h.num
    case charged => exact h.charged
    case targets => exact h.targets
    case levels => exact h.levels
    case oneActive =>
      rintro n m i ⟨e, he, rfl, hs⟩ ⟨f, hf, hi, ht⟩
      exact h.oneActive n m e f he hf hi.symm hs ht
    case oneArmed =>
      rintro n m i ⟨e, he, rfl, hs⟩ ⟨f, hf, hi, ht⟩
      exact h.oneArmed n m e f he hf hi.symm hs ht
    case held =>
      rintro r n i hr hh ⟨e, he, rfl, hs⟩
      exact h.held r n e hr hh he hs
    case cut =>
      rintro r n t hr hi ht hs hc ⟨e, he, hv, ha⟩
      exact h.cut r n e t hr hi ht hv.symm hs hc he ha
    case pool =>
      intro k
      rw [← Laws.committed_eq h.charged h.table]
      exact h.pool k
    case current =>
      intro i n hc
      obtain ⟨x, hx, ho⟩ := Option.map_eq_some_iff.1 hc
      obtain ⟨e, he, hi, ha | ⟨-, hr, -⟩⟩ := h.instances i .current x n hx ho
      · exact ⟨e, he, hi, ha⟩
      · cases hr
    case next =>
      intro i n b hc
      obtain ⟨x, hx, ho⟩ := Option.map_eq_some_iff.1 hc
      obtain ⟨ho, hb⟩ := Prod.mk.inj ho
      obtain ⟨e, he, hi, ha | ⟨ha, -, hp⟩⟩ := h.instances i .next x n hx ho
      · exact .inl ⟨e, he, hi, ha⟩
      · exact .inr ⟨⟨e, he, hi, ha⟩, by rw [← hb, hp]; rfl⟩
    case waits =>
      intro i n hc
      obtain ⟨q, hq, ho⟩ := Option.map_eq_some_iff.1 hc
      obtain ⟨ha, hx⟩ := h.waits i q n hq ho
      refine ⟨ha, fun hn => ?_⟩
      obtain ⟨x, hxs, he⟩ := Option.map_eq_some_iff.1 hn
      obtain ⟨ho, hb⟩ := Prod.mk.inj he
      exact hx x hxs (by simpa using hb) ho
  · intro h
    constructor
    case table => exact h.table
    case num => exact h.num
    case charged => exact h.charged
    case targets => exact h.targets
    case levels => exact h.levels
    case oneActive => exact fun n m e f he hf hi hs ht => h.oneActive n m e.svc ⟨e, he, rfl, hs⟩ ⟨f, hf, hi.symm, ht⟩
    case oneArmed => exact fun n m e f he hf hi hs ht => h.oneArmed n m e.svc ⟨e, he, rfl, hs⟩ ⟨f, hf, hi.symm, ht⟩
    case held => exact fun r n e hr hh he hs => h.held r n e.svc hr hh ⟨e, he, rfl, hs⟩
    case cut => exact fun r n e t hr hi ht hv hs hc he ha => h.cut r n t hr hi ht hs hc ⟨e, he, hv.symm, ha⟩
    case pool =>
      intro k
      rw [Laws.committed_eq h.charged h.table]
      exact h.pool k
    case instances =>
      rintro i (_ | _) x n hx ho
      · have hc : s.view.cur i = some (.entry n) := by
          change ((s.sp i).cur).map _ = _
          rw [show (s.sp i).cur = some x from hx, Option.map_some, ho]
        obtain ⟨e, he, hi, ha⟩ := h.current i n hc
        exact ⟨e, he, hi, .inl ha⟩
      · have hc : s.view.nxt i = some (.entry n, x.phase == .seeking) := by
          change ((s.sp i).nxt).map _ = _
          rw [show (s.sp i).nxt = some x from hx, Option.map_some, Inst.asks, ho]
        rcases h.next i n _ hc with ⟨e, he, hi, ha⟩ | ⟨⟨e, he, hi, ha⟩, hb⟩
        · exact ⟨e, he, hi, .inl ha⟩
        · exact ⟨e, he, hi, .inr ⟨ha, rfl, by simpa using hb⟩⟩
    case waits =>
      intro i q n hq ho
      have hc : s.view.waits i = some (.entry n) := by
        change ((s.sp i).waiting).map _ = _
        rw [hq, Option.map_some, ho]
      obtain ⟨ha, hx⟩ := h.waits i n hc
      refine ⟨ha, fun x hxs hp hox => hx ?_⟩
      change ((s.sp i).nxt).map _ = _
      rw [hxs, Option.map_some, Inst.asks, hox, hp]
      rfl

end Sys2Proof.Machine
end

section
/-! The changes that keep the laws of the schedule on a view: of an instance's or a request's owner, of an entry, of an alert record,
of lanes and pools (R48, R49, R65). -/

namespace Sys2Proof.Machine

/-! ### Sums over a table -/

theorem Table.vals_insert {α : Type} (k : Nat) (v : α) (t : Table (Option α)) :
    (Table.vals (Table.insert k (some v) t)).Perm (v :: Table.vals t) := by
  induction t with
  | nil => exact List.Perm.refl _
  | cons e r ih =>
    obtain ⟨j, w⟩ := e
    unfold Table.insert
    split
    · exact List.Perm.refl _
    · cases w with
      | none => exact ih
      | some w => exact (ih.cons w).trans (List.Perm.swap _ _ _)

theorem Table.sum_vals_filter {α : Type} [DecidableEq α] {t : Table (Option α)} (hw : Table.wf none t = true) (k : Nat)
    (f : α → Nat) : ((Table.vals t).map f).sum
      = ((Table.vals (t.filter (fun e => e.1 != k))).map f).sum + (Table.get none t k).elim 0 f := by
  have hs := ((Table.wf_iff none t).1 hw).1
  clear hw
  induction t with
  | nil => rfl
  | cons e r ih =>
    obtain ⟨j, w⟩ := e
    obtain ⟨hj, hr⟩ := List.pairwise_cons.1 hs
    have hv (l : Table (Option α)) : ((Table.vals ((j, w) :: l)).map f).sum = w.elim 0 f + ((Table.vals l).map f).sum := by
      cases w <;> simp [Table.vals]
    by_cases hk : j = k
    · have hf : r.filter (fun e => e.1 != k) = r :=
        List.filter_eq_self.2 fun e he => by simpa [← hk] using (hj e he).ne'
      rw [hv, Table.get, if_pos hk, List.filter_cons_of_neg (by simpa using hk), hf, Nat.add_comm]
    · rw [hv, Table.get, if_neg hk, List.filter_cons_of_pos (by simpa using hk), hv, ih hr, Nat.add_assoc]

/-- A record replaced in a table takes its own part of a sum for the old one's. -/
theorem Table.sum_vals_set {α : Type} [DecidableEq α] {t : Table (Option α)} (hw : Table.wf none t = true) (k : Nat)
    (x : Option α) (f : α → Nat) : ((Table.vals (Table.set none t k x)).map f).sum + (Table.get none t k).elim 0 f
      = ((Table.vals t).map f).sum + x.elim 0 f := by
  rw [Table.sum_vals_filter hw k f, Table.set]
  cases x with
  | none => simp
  | some v =>
    rw [if_neg (by simp), ((Table.vals_insert k v _).map f).sum_eq, List.map_cons, List.sum_cons, Option.elim]
    omega

/-! ### Changes of a view -/

namespace View

variable (V : View) (i n m : Nat)

def setCur (o : Option Owner) : View := { V with cur := Function.update V.cur i o }
def setNxt (o : Option (Owner × Bool)) : View := { V with nxt := Function.update V.nxt i o }
def setWaits (o : Option Owner) : View := { V with waits := Function.update V.waits i o }
def setAlert (r : Nat) (a : AlertRec) : View := { V with alert := Function.update V.alert r a }

theorem setCur_cur (o : Option Owner) (j : Nat) : (V.setCur i o).cur j = if j = i then o else V.cur j := Function.update_apply _ _ _ _
theorem setNxt_nxt (o : Option (Owner × Bool)) (j : Nat) : (V.setNxt i o).nxt j = if j = i then o else V.nxt j :=
  Function.update_apply _ _ _ _
theorem setWaits_waits (o : Option Owner) (j : Nat) : (V.setWaits i o).waits j = if j = i then o else V.waits j :=
  Function.update_apply _ _ _ _
theorem setAlert_alert (r : Nat) (a : AlertRec) (q : Nat) : (V.setAlert r a).alert q = if q = r then a else V.alert q :=
  Function.update_apply _ _ _ _

@[simp] theorem setCur_self : V.setCur i (V.cur i) = V := by simp [setCur]
@[simp] theorem setNxt_self : V.setNxt i (V.nxt i) = V := by simp [setNxt]
@[simp] theorem setWaits_self : V.setWaits i (V.waits i) = V := by simp [setWaits]
@[simp] theorem setAlert_self (r : Nat) : V.setAlert r (V.alert r) = V := by simp [setAlert]

variable {V i n m}

theorem entry_set (x : Option Entry) : (V.set n x).entry m = if m = n then x else V.entry m := by
  simp [entry, set, Table.get_set]

theorem stands_set_self {e : Entry} {st : EntryState} : (V.set n (some e)).stands n i st ↔ e.svc = i ∧ e.st = st := by
  simp [stands, entry_set]

theorem stands_set_ne (h : m ≠ n) {x : Option Entry} {st : EntryState} : (V.set n x).stands m i st ↔ V.stands m i st := by
  simp [stands, entry_set, h]

theorem stands.entry {st : EntryState} {e : Entry} (h : V.stands n i st) (he : V.entry n = some e) : e.svc = i ∧ e.st = st := by
  obtain ⟨f, hf, hi, hs⟩ := h
  cases he.symm.trans hf
  exact ⟨hi, hs⟩

end View

/-- A target of a record that is not IDLE, HELD, is held by it. -/
theorem AlertRec.holds_of_mem {a : AlertRec} {t : Target} (ha : a.st ≠ .idle) (ht : t ∈ a.targets) (hs : t.status = .held) :
    a.holds t.svc = true := by
  simp only [AlertRec.holds, bne_iff_ne, Bool.and_eq_true, List.any_eq_true, beq_iff_eq]
  exact ⟨ha, t, ht, rfl, hs⟩

namespace Laws

variable {V : View} {i n : Nat}

/-! ### Owners -/

/-- The owner of a current instance changes: an entry only where it is the service's ACTIVE one. -/
theorem setCur (h : Laws V) (i : Nat) (o : Option Owner) (ho : ∀ n, o = some (.entry n) → V.stands n i .active) :
    Laws (V.setCur i o) := by
  refine { h with current := fun j n hj => ?_ }
  rw [View.setCur_cur] at hj
  split at hj
  · next e => exact e ▸ ho n hj
  · exact h.current j n hj

/-- The owner of an instance in the next role changes: an entry only where it is the service's ACTIVE or ARMED one. -/
theorem setNxt (h : Laws V) (i : Nat) (o : Option (Owner × Bool)) (ho : ∀ n b, o = some (.entry n, b) →
    (V.stands n i .active ∨ V.stands n i .armed ∧ b = true) ∧ (b = true → V.waits i ≠ some (.entry n))) :
    Laws (V.setNxt i o) := by
  refine { h with next := fun j n b hj => ?_, waits := fun j n hj => ⟨(h.waits j n hj).1, fun hx => ?_⟩ }
  · rw [View.setNxt_nxt] at hj
    split at hj
    · next e => exact e ▸ (ho n b hj).1
    · exact h.next j n b hj
  · rw [View.setNxt_nxt] at hx
    split at hx
    · next e => exact (ho n true hx).2 rfl (e ▸ hj)
    · exact (h.waits j n hj).2 hx

/-- The owner of a request that waits changes: an entry only where it is the service's ARMED one, and is asked for once. -/
theorem setWaits (h : Laws V) (i : Nat) (o : Option Owner) (ho : ∀ n, o = some (.entry n) →
    V.stands n i .armed ∧ V.nxt i ≠ some (.entry n, true)) : Laws (V.setWaits i o) := by
  refine { h with waits := fun j n hj => ?_ }
  rw [View.setWaits_waits] at hj
  split at hj
  · next e => exact e ▸ ho n hj
  · exact h.waits j n hj

/-! ### Entries -/

/-- An entry that is neither ARMED nor ACTIVE owns no instance and no request. -/
theorem unowned (h : Laws V) (ha : ∀ i, ¬V.stands n i .active) (hb : ∀ i, ¬V.stands n i .armed) : V.Unowned n :=
  ⟨fun i hc => ha i (h.current i n hc), fun i b hc => (h.next i n b hc).elim (ha i) fun x => hb i x.1,
    fun i hc => hb i (h.waits i n hc).1⟩

theorem table_set (h : Laws V) (x : Option Entry) : Table.wf none (V.set n x).entries = true := Table.wf_set none _ _ _ h.table

theorem num_set (h : Laws V) {x : Option Entry} (hx : ∀ e, x = some e → e.num = n) :
    ∀ m e, (V.set n x).entry m = some e → e.num = m := by
  intro m e hm
  rw [View.entry_set] at hm
  split at hm
  · next hmn => rw [hmn]; exact hx e hm
  · exact h.num m e hm

theorem charged_set (h : Laws V) {x : Option Entry} (hx : ∀ e, x = some e → e.st ≠ .armed → e.st ≠ .active → e.commitment = 0) :
    ∀ m e, (V.set n x).entry m = some e → e.st ≠ .armed → e.st ≠ .active → e.commitment = 0 := by
  intro m e hm
  rw [View.entry_set] at hm
  split at hm
  · exact hx e hm
  · exact h.charged m e hm

/-- The lane's sum after a change of entry `n`. -/
theorem sum_set (h : Laws V) (x : Option Entry) (k : Nat) :
    ((Table.vals (V.set n x).entries).map ((V.set n x).charge k)).sum + (V.entry n).elim 0 (V.charge k)
      = ((Table.vals V.entries).map (V.charge k)).sum + x.elim 0 (V.charge k) := Table.sum_vals_set h.table n x _

/-- An entry that owns nothing leaves the schedule, or stands in it neither ARMED nor ACTIVE. -/
theorem release (h : Laws V) (hu : V.Unowned n) (x : Option Entry)
    (hx : ∀ e, x = some e → e.num = n ∧ e.st ≠ .armed ∧ e.st ≠ .active ∧ e.commitment = 0) : Laws (V.set n x) := by
  have hne {m i : Nat} {st : EntryState} (hs : (V.set n x).stands m i st) (ht : st = .armed ∨ st = .active) : m ≠ n := by
    rintro rfl
    obtain ⟨e, he, -, hst⟩ := hs
    rw [View.entry_set, if_pos rfl] at he
    obtain ⟨-, ha, hb, -⟩ := hx e he
    rcases ht with rfl | rfl
    · exact ha hst
    · exact hb hst
  have hdown {m i : Nat} {st : EntryState} (ht : st = .armed ∨ st = .active) (hs : (V.set n x).stands m i st) :
      V.stands m i st := (View.stands_set_ne (hne hs ht)).1 hs
  have hup {m i : Nat} {st : EntryState} (hm : m ≠ n) (hs : V.stands m i st) : (V.set n x).stands m i st :=
    (View.stands_set_ne hm).2 hs
  constructor
  case table => exact h.table_set x
  case num => exact h.num_set fun e he => (hx e he).1
  case charged => exact h.charged_set fun e he _ _ => (hx e he).2.2.2
  case oneActive => exact fun a b i p q => h.oneActive a b i (hdown (.inr rfl) p) (hdown (.inr rfl) q)
  case oneArmed => exact fun a b i p q => h.oneArmed a b i (hdown (.inl rfl) p) (hdown (.inl rfl) q)
  case levels =>
    intro a b e f he hf hv hs ht
    have ha : a ≠ n := hne ⟨e, he, rfl, hs⟩ (.inl rfl)
    have hb : b ≠ n := hne ⟨f, hf, rfl, ht⟩ (.inr rfl)
    rw [View.entry_set, if_neg ha] at he
    rw [View.entry_set, if_neg hb] at hf
    exact h.levels a b e f he hf hv hs ht
  case held => exact fun r m i hr hh hs => h.held r m i hr hh (hdown (.inl rfl) hs)
  case cut => exact fun r m t hr hi ht hs hc ha => h.cut r m t hr hi ht hs hc (hdown (.inr rfl) ha)
  case targets => exact h.targets
  case pool =>
    intro k
    have hsum := h.sum_set (n := n) x k
    have hp := h.pool k
    have hz : x.elim 0 (V.charge k) = 0 := by
      cases x with
      | none => rfl
      | some e => simp [View.charge, (hx e rfl).2.2.2]
    have : (V.set n x).pool k = V.pool k := rfl
    omega
  case current => exact fun i m hm => hup (by rintro rfl; exact hu.1 i hm) (h.current i m hm)
  case next =>
    intro i m b hm
    have hmn : m ≠ n := by rintro rfl; exact hu.2.1 i b hm
    exact (h.next i m b hm).imp (hup hmn) fun ⟨p, q⟩ => ⟨hup hmn p, q⟩
  case waits =>
    intro i m hm
    have hmn : m ≠ n := by rintro rfl; exact hu.2.2 i hm
    exact ⟨hup hmn (h.waits i m hm).1, (h.waits i m hm).2⟩

/-- The fields of an entry that the laws do not read change. -/
theorem relabel (h : Laws V) {e x : Entry} (he : V.entry n = some e) (hn : x.num = e.num) (hv : x.svc = e.svc)
    (ho : x.origin = e.origin) (hs : x.st = e.st) (hc : x.commitment = e.commitment) : Laws (V.set n (some x)) := by
  have hst {m i : Nat} {st : EntryState} : (V.set n (some x)).stands m i st ↔ V.stands m i st := by
    by_cases hm : m = n
    · subst hm
      rw [View.stands_set_self, hv, hs]
      exact ⟨fun ⟨p, q⟩ => ⟨e, he, p, q⟩, fun p => p.entry he⟩
    · exact View.stands_set_ne hm
  have hread {m : Nat} {f : Entry} (hf : (V.set n (some x)).entry m = some f) :
      ∃ g, V.entry m = some g ∧ f.svc = g.svc ∧ f.origin = g.origin ∧ f.st = g.st := by
    rw [View.entry_set] at hf
    split at hf
    · next hm =>
      cases hf
      exact ⟨e, hm ▸ he, hv, ho, hs⟩
    · exact ⟨f, hf, rfl, rfl, rfl⟩
  constructor
  case table => exact h.table_set _
  case num =>
    refine h.num_set fun f hf => ?_
    cases hf
    rw [hn]
    exact h.num n e he
  case charged =>
    refine h.charged_set fun f hf ha hb => ?_
    cases hf
    rw [hc]
    exact h.charged n e he (hs ▸ ha) (hs ▸ hb)
  case oneActive => exact fun a b i p q => h.oneActive a b i (hst.1 p) (hst.1 q)
  case oneArmed => exact fun a b i p q => h.oneArmed a b i (hst.1 p) (hst.1 q)
  case levels =>
    intro a b f g hf hg hfg hsf hsg
    obtain ⟨f', hf', hfv, hfo, hfs⟩ := hread hf
    obtain ⟨g', hg', hgv, hgo, hgs⟩ := hread hg
    rw [hfo, hgo]
    exact h.levels a b f' g' hf' hg' (by rw [← hfv, ← hgv, hfg]) (hfs ▸ hsf) (hgs ▸ hsg)
  case held => exact fun r m i hr hh p => h.held r m i hr hh (hst.1 p)
  case cut => exact fun r m t hr hi ht ha hc p => h.cut r m t hr hi ht ha hc (hst.1 p)
  case targets => exact h.targets
  case pool =>
    intro k
    have hsum := h.sum_set (n := n) (some x) k
    rw [he] at hsum
    have hch : V.charge k x = V.charge k e := by simp [View.charge, hv, hc]
    simp only [Option.elim, hch] at hsum
    exact (Nat.add_right_cancel hsum).trans_le (h.pool k)
  case current => exact fun i m hm => hst.2 (h.current i m hm)
  case next => exact fun i m b hm => (h.next i m b hm).imp hst.2 fun ⟨p, q⟩ => ⟨hst.2 p, q⟩
  case waits => exact fun i m hm => ⟨hst.2 (h.waits i m hm).1, (h.waits i m hm).2⟩

/-- An entry that is neither ARMED nor ACTIVE arms: on a service that no record holds and no ARMED entry has, above the level of
the ACTIVE one, with a rate for which the lane's pool has room. -/
theorem arm (h : Laws V) {e x : Entry} (he : V.entry n = some e) (ha : e.st ≠ .armed) (hb : e.st ≠ .active) (hn : x.num = n)
    (hv : x.svc = e.svc) (hs : x.st = .armed) (hfree : ∀ m, ¬V.stands m e.svc .armed)
    (hlevel : ∀ m f, V.entry m = some f → f.svc = e.svc → f.st = .active → levelOf f.origin < levelOf x.origin)
    (hheld : ∀ r, r < 4 → (V.alert r).holds e.svc = false)
    (hpool : ∀ k, V.laneOf e.svc = some k → ((Table.vals V.entries).map (V.charge k)).sum + x.commitment ≤ V.pool k) :
    Laws (V.set n (some x)) := by
  have hactive {m i : Nat} : (V.set n (some x)).stands m i .active ↔ V.stands m i .active := by
    by_cases hm : m = n
    · subst hm
      rw [View.stands_set_self, hs]
      exact ⟨fun p => (nomatch p.2), fun p => absurd (View.stands.entry p he).2 hb⟩
    · exact View.stands_set_ne hm
  have harmed {m i : Nat} (p : (V.set n (some x)).stands m i .armed) : m = n ∧ i = e.svc ∨ m ≠ n ∧ V.stands m i .armed := by
    by_cases hm : m = n
    · subst hm
      exact .inl ⟨rfl, (View.stands_set_self.1 p).1.symm.trans hv⟩
    · exact .inr ⟨hm, (View.stands_set_ne hm).1 p⟩
  have hup {m i : Nat} (p : V.stands m i .armed) : (V.set n (some x)).stands m i .armed :=
    (View.stands_set_ne (by rintro rfl; exact ha (p.entry he).2)).2 p
  constructor
  case table => exact h.table_set _
  case num => exact h.num_set fun f hf => by cases hf; exact hn
  case charged => exact h.charged_set fun f hf hf' _ => by cases hf; exact absurd hs hf'
  case oneActive => exact fun a b i p q => h.oneActive a b i (hactive.1 p) (hactive.1 q)
  case oneArmed =>
    intro a b i p q
    rcases harmed p with ⟨ha, hi⟩ | ⟨-, ha⟩ <;> rcases harmed q with ⟨hb, hj⟩ | ⟨-, hb⟩
    · exact ha.trans hb.symm
    · exact absurd (hi ▸ hb) (hfree b)
    · exact absurd (hj ▸ ha) (hfree a)
    · exact h.oneArmed a b i ha hb
  case levels =>
    intro a b f g hf hg hfg hsf hsg
    have hbn : b ≠ n := by
      rintro rfl
      exact hb (((hactive.1 ⟨g, hg, rfl, hsg⟩).entry he).2)
    rw [View.entry_set, if_neg hbn] at hg
    rw [View.entry_set] at hf
    split at hf
    · cases hf
      exact hlevel b g hg (hfg.symm.trans hv) hsg
    · exact h.levels a b f g hf hg hfg hsf hsg
  case held =>
    intro r m i hr hh p
    rcases harmed p with ⟨-, rfl⟩ | ⟨-, p⟩
    · exact Bool.false_ne_true ((hheld r hr).symm.trans hh)
    · exact h.held r m i hr hh p
  case cut => exact fun r m t hr hi ht hh hc p => h.cut r m t hr hi ht hh hc (hactive.1 p)
  case targets => exact h.targets
  case pool =>
    intro k
    have hsum := h.sum_set (n := n) (some x) k
    have hk := h.pool k
    have hpk : (V.set n (some x)).pool k = V.pool k := rfl
    rw [he] at hsum
    simp only [Option.elim] at hsum
    by_cases hl : V.laneOf e.svc = some k
    · have hroom := hpool k hl
      have hx : V.charge k x = x.commitment := by simp [View.charge, hv, hl]
      omega
    · have hx : V.charge k x = 0 := by simp [View.charge, hv, hl]
      omega
  case current => exact fun i m hm => hactive.2 (h.current i m hm)
  case next => exact fun i m b hm => (h.next i m b hm).imp hactive.2 fun ⟨p, q⟩ => ⟨hup p, q⟩
  case waits => exact fun i m hm => ⟨hup (h.waits i m hm).1, (h.waits i m hm).2⟩

/-- The ARMED entry of a service without an ACTIVE one becomes ACTIVE. -/
theorem activate (h : Laws V) {e x : Entry} (he : V.entry n = some e) (ha : e.st = .armed) (hn : x.num = e.num) (hv : x.svc = e.svc)
    (hs : x.st = .active) (hc : x.commitment = e.commitment) (hfree : ∀ m, ¬V.stands m e.svc .active)
    (hw : ∀ i, V.waits i ≠ some (.entry n)) : Laws (V.set n (some x)) := by
  have hself : V.stands n e.svc .armed := ⟨e, he, rfl, ha⟩
  have harmed {m i : Nat} (p : (V.set n (some x)).stands m i .armed) : m ≠ n ∧ V.stands m i .armed := by
    by_cases hm : m = n
    · subst hm
      rw [View.stands_set_self, hs] at p
      exact nomatch p.2
    · exact ⟨hm, (View.stands_set_ne hm).1 p⟩
  have hactive {m i : Nat} (p : (V.set n (some x)).stands m i .active) : m = n ∧ i = e.svc ∨ V.stands m i .active := by
    by_cases hm : m = n
    · subst hm
      exact .inl ⟨rfl, (View.stands_set_self.1 p).1.symm.trans hv⟩
    · exact .inr ((View.stands_set_ne hm).1 p)
  have hup {m i : Nat} {st : EntryState} (hm : m ≠ n) (p : V.stands m i st) : (V.set n (some x)).stands m i st :=
    (View.stands_set_ne hm).2 p
  have hnow {i : Nat} (p : V.stands n i .armed) : (V.set n (some x)).stands n i .active :=
    View.stands_set_self.2 ⟨hv.trans (p.entry he).1, hs⟩
  have hother {m i : Nat} (p : V.stands m i .active) : m ≠ n := by
    rintro rfl
    cases ha.symm.trans (p.entry he).2
  constructor
  case table => exact h.table_set _
  case num => exact h.num_set fun f hf => by cases hf; exact hn.trans (h.num n e he)
  case charged => exact h.charged_set fun f hf _ hf' => by cases hf; exact absurd hs hf'
  case oneActive =>
    intro a b i p q
    rcases hactive p with ⟨ha, hi⟩ | ha <;> rcases hactive q with ⟨hb, hj⟩ | hb
    · exact ha.trans hb.symm
    · exact absurd (hi ▸ hb) (hfree b)
    · exact absurd (hj ▸ ha) (hfree a)
    · exact h.oneActive a b i ha hb
  case oneArmed => exact fun a b i p q => h.oneArmed a b i (harmed p).2 (harmed q).2
  case levels =>
    intro a b f g hf hg hfg hsf hsg
    obtain ⟨han, hfa⟩ := harmed ⟨f, hf, rfl, hsf⟩
    rcases hactive ⟨g, hg, rfl, hsg⟩ with ⟨rfl, hi⟩ | hga
    · exact absurd (h.oneArmed a b e.svc (hi ▸ hfg ▸ hfa) hself) han
    · rw [View.entry_set, if_neg han] at hf
      rw [View.entry_set, if_neg (hother hga)] at hg
      exact h.levels a b f g hf hg hfg hsf hsg
  case held => exact fun r m i hr hh p => h.held r m i hr hh (harmed p).2
  case cut =>
    intro r m t hr hi ht hh hcut p
    rcases hactive p with ⟨-, hv⟩ | p
    · exact h.held r n e.svc hr (hv ▸ AlertRec.holds_of_mem hi ht hh) hself
    · exact h.cut r m t hr hi ht hh hcut p
  case targets => exact h.targets
  case pool =>
    intro k
    have hsum := h.sum_set (n := n) (some x) k
    rw [he] at hsum
    have hch : V.charge k x = V.charge k e := by simp [View.charge, hv, hc]
    simp only [Option.elim, hch] at hsum
    exact (Nat.add_right_cancel hsum).trans_le (h.pool k)
  case current => exact fun i m hm => hup (hother (h.current i m hm)) (h.current i m hm)
  case next =>
    intro i m b hm
    rcases h.next i m b hm with p | ⟨p, q⟩
    · exact .inl (hup (hother p) p)
    · by_cases hmn : m = n
      · subst hmn
        exact .inl (hnow p)
      · exact .inr ⟨hup hmn p, q⟩
  case waits =>
    intro i m hm
    have hmn : m ≠ n := by rintro rfl; exact hw i hm
    exact ⟨hup hmn (h.waits i m hm).1, (h.waits i m hm).2⟩

/-! ### Alert records, lanes and pools -/

/-- An alert record changes: it comes to hold no service with an ARMED entry, and none that it has cut with an ACTIVE one. -/
theorem setAlert (h : Laws V) (r : Nat) (a : AlertRec) (hheld : r < 4 → ∀ n i, a.holds i = true → ¬V.stands n i .armed)
    (hcut : r < 4 → a.st ≠ .idle → ∀ t ∈ a.targets, t.status = .held → t.cut = true → ∀ n, ¬V.stands n t.svc .active)
    (hone : r < 4 → (a.targets.map (·.svc)).Nodup) : Laws (V.setAlert r a) :=
  have hread (q : Nat) : (V.setAlert r a).alert q = if q = r then a else V.alert q := Function.update_apply _ _ _ _
  { h with
    held := fun q n i hq hh => by
      rw [hread] at hh
      split at hh
      · next e => exact hheld (e ▸ hq) n i hh
      · exact h.held q n i hq hh
    cut := fun q n t hq hi ht hs hc => by
      rw [hread] at hi ht
      split at hi
      · next e =>
        rw [if_pos e] at ht
        exact hcut (e ▸ hq) hi t ht hs hc n
      · next e =>
        rw [if_neg e] at ht
        exact h.cut q n t hq hi ht hs hc
    targets := fun q hq => by
      rw [hread]
      split
      · next e => exact hone (e ▸ hq)
      · exact h.targets q hq }

/-- The lanes of services and the pools change, and every pool still has room for its lane's commitments. -/
theorem lanes (h : Laws V) (l : Nat → Option Nat) (p : Nat → Nat)
    (hp : ∀ k, ((Table.vals V.entries).map (View.charge { V with laneOf := l, pool := p } k)).sum ≤ p k) :
    Laws { V with laneOf := l, pool := p } := { h with pool := hp }

end Laws

end Sys2Proof.Machine
end

section
/-! The basic updates of the state as the laws of the schedule see them, and the acts of the splice engine that only ask for
instances and discard them. -/

namespace Sys2Proof.Machine

variable {s t u : State} {i j k n r : Nat} {e x : Entry} {o : Owner} {V : View}

/-- The laws of the schedule hold of a state, read off its view. -/
def Lawful (s : State) : Prop := Laws s.view

theorem lawful_iff (s : State) : Lawful s ↔ SchedulerLaws s := (schedulerLaws_iff s).symm

/-! ### The views of the basic updates -/

theorem View.ext_of {V W : View} (he : V.entries = W.entries) (ha : ∀ r, V.alert r = W.alert r) (hl : ∀ i, V.laneOf i = W.laneOf i)
    (hp : ∀ k, V.pool k = W.pool k) (hc : ∀ i, V.cur i = W.cur i) (hn : ∀ i, V.nxt i = W.nxt i) (hw : ∀ i, V.waits i = W.waits i) : V = W := by
  cases V
  cases W
  simp only [View.mk.injEq]
  exact ⟨he, funext ha, funext hl, funext hp, funext hc, funext hn, funext hw⟩

/-- What the laws read of a splice record. -/
def SpliceRec.owners (p : SpliceRec) : Option Owner × Option (Owner × Bool) × Option Owner :=
  (p.cur.map (·.owner), p.nxt.map Inst.asks, p.waiting.map (·.owner))

/-- A service keeps its lane and the owners that its splice record names. -/
theorem view_setSvc {v : Service} (hd : v.defn.map (·.lane) = (s.svc i).defn.map (·.lane)) (ho : v.sp.owners = (s.sp i).owners) :
    (s.setSvc i v).view = s.view := by
  have hv (j : Nat) : ((s.setSvc i v).svc j).defn.map (·.lane) = (s.svc j).defn.map (·.lane)
      ∧ ((s.setSvc i v).svc j).sp.owners = (s.sp j).owners := by
    rw [State.svc_setSvc]
    split
    · next h => exact h ▸ ⟨hd, ho⟩
    · exact ⟨rfl, rfl⟩
  exact View.ext_of rfl (fun _ => rfl) (fun j => (hv j).1) (fun _ => rfl) (fun j => congrArg (·.1) (hv j).2)
    (fun j => congrArg (·.2.1) (hv j).2) (fun j => congrArg (·.2.2) (hv j).2)

theorem view_modSvc {f : Service → Service} (hd : (f (s.svc i)).defn.map (·.lane) = (s.svc i).defn.map (·.lane))
    (ho : (f (s.svc i)).sp.owners = (s.sp i).owners) : (s.modSvc i f).view = s.view := view_setSvc hd ho

theorem view_modSp_same {f : SpliceRec → SpliceRec} (ho : (f (s.sp i)).owners = (s.sp i).owners) : (s.modSp i f).view = s.view :=
  view_setSvc rfl ho

theorem view_modSp (s : State) (i : Nat) (f : SpliceRec → SpliceRec) : (s.modSp i f).view =
    ((s.view.setCur i (f (s.sp i)).owners.1).setNxt i (f (s.sp i)).owners.2.1).setWaits i (f (s.sp i)).owners.2.2 := by
  have hl (j : Nat) : (s.modSp i f).laneOf j = s.laneOf j := by
    simp only [State.laneOf, State.modSp, State.svc_modSvc]
    split
    · next h => rw [h]
    · rfl
  have ho (j : Nat) : ((s.modSp i f).sp j).owners = if j = i then (f (s.sp i)).owners else (s.sp j).owners := by
    rw [State.sp_modSp]
    split
    · rfl
    · rfl
  refine View.ext_of rfl (fun _ => rfl) hl (fun _ => rfl) (fun j => ?_) (fun j => ?_) (fun j => ?_)
  all_goals
    have ho := ho j
    by_cases hj : j = i
  · rw [if_pos hj] at ho
    exact (congrArg (·.1) ho).trans ((View.setCur_cur s.view i _ j).trans (if_pos hj)).symm
  · rw [if_neg hj] at ho
    exact (congrArg (·.1) ho).trans ((View.setCur_cur s.view i _ j).trans (if_neg hj)).symm
  · rw [if_pos hj] at ho
    exact (congrArg (·.2.1) ho).trans ((View.setNxt_nxt (s.view.setCur i _) i _ j).trans (if_pos hj)).symm
  · rw [if_neg hj] at ho
    exact (congrArg (·.2.1) ho).trans ((View.setNxt_nxt (s.view.setCur i _) i _ j).trans (if_neg hj)).symm
  · rw [if_pos hj] at ho
    exact (congrArg (·.2.2) ho).trans ((View.setWaits_waits ((s.view.setCur i _).setNxt i _) i _ j).trans (if_pos hj)).symm
  · rw [if_neg hj] at ho
    exact (congrArg (·.2.2) ho).trans ((View.setWaits_waits ((s.view.setCur i _).setNxt i _) i _ j).trans (if_neg hj)).symm

theorem view_setLane {l : Lane} (hp : l.cfg.pool = (s.lane k).cfg.pool) : (s.setLane k l).view = s.view := by
  refine View.ext_of rfl (fun _ => rfl) (fun _ => rfl) (fun j => ?_) (fun _ => rfl) (fun _ => rfl) (fun _ => rfl)
  simp only [State.view, State.lane_setLane]
  split
  · next h => rw [hp, h]
  · rfl

theorem view_setAlert (s : State) (r : Nat) (a : AlertRec) : (s.setAlert r a).view = s.view.setAlert r a := by
  refine View.ext_of rfl (fun q => ?_) (fun _ => rfl) (fun _ => rfl) (fun _ => rfl) (fun _ => rfl) (fun _ => rfl)
  exact (State.alert_setAlert s r a q).trans (View.setAlert_alert s.view r a q).symm

theorem view_setEntry (s : State) (n : Nat) (x : Option Entry) : (s.setEntry n x).view = s.view.set n x := rfl

theorem view_raise (s : State) (i : Nat) (c : Cond) : (raise s i c).view = s.view := by
  have hs : (raise s i c).view = (s.modSvc i (fun v => { v with cond := { v.cond with flags := v.cond.flags ||| condBit c } })).view := by
    have hv : (raise s i c).services = _ := raise_services s i c
    rw [raise_frame]
    simp only [State.view, State.sp, State.svc, hv]
    rfl
  rw [hs]
  exact view_modSvc rfl rfl

theorem view_raiseIf (b : Bool) (s : State) (i : Nat) (c : Cond) : (raiseIf b s i c).view = s.view := by
  cases b
  · rfl
  · exact view_raise s i c

/-- A state that differs in nothing that the laws read. -/
theorem view_congr (hl : t.lanes = s.lanes) (hs : t.services = s.services) (he : t.entries = s.entries) (ha : t.alerts = s.alerts) :
    t.view = s.view := by
  cases s
  cases t
  cases hl
  cases hs
  cases he
  cases ha
  rfl

theorem view_dropRefs (pod : List Nat) (s : State) : (pod.foldl State.dropRef s).view = s.view :=
  (congrArg State.view (foldl_dropRef_frame s pod)).trans (view_congr rfl rfl rfl rfl)

/-! ### Owners that leave -/

/-- Nothing but owners has changed, and only so that entries own less. -/
structure View.Fewer (V W : View) : Prop where
  entries : W.entries = V.entries
  alert : W.alert = V.alert
  laneOf : W.laneOf = V.laneOf
  pool : W.pool = V.pool
  cur : ∀ i, W.cur i = V.cur i ∨ ∀ n, W.cur i ≠ some (.entry n)
  nxt : ∀ i, W.nxt i = V.nxt i ∨ ∀ n b, W.nxt i ≠ some (.entry n, b)
  waits : ∀ i, W.waits i = V.waits i ∨ ∀ n, W.waits i ≠ some (.entry n)

namespace View.Fewer

variable {W U : View}

theorem refl (V : View) : V.Fewer V := ⟨rfl, rfl, rfl, rfl, fun _ => .inl rfl, fun _ => .inl rfl, fun _ => .inl rfl⟩

theorem trans (h : V.Fewer W) (k : W.Fewer U) : V.Fewer U where
  entries := k.entries.trans h.entries
  alert := k.alert.trans h.alert
  laneOf := k.laneOf.trans h.laneOf
  pool := k.pool.trans h.pool
  cur i := (k.cur i).elim (fun e => e ▸ h.cur i) .inr
  nxt i := (k.nxt i).elim (fun e => e ▸ h.nxt i) .inr
  waits i := (k.waits i).elim (fun e => e ▸ h.waits i) .inr

theorem cur_entry (h : V.Fewer W) (hc : W.cur i = some (.entry n)) : V.cur i = some (.entry n) :=
  (h.cur i).elim (fun e => e ▸ hc) fun e => absurd hc (e n)

theorem nxt_entry {b : Bool} (h : V.Fewer W) (hc : W.nxt i = some (.entry n, b)) : V.nxt i = some (.entry n, b) :=
  (h.nxt i).elim (fun e => e ▸ hc) fun e => absurd hc (e n b)

theorem waits_entry (h : V.Fewer W) (hc : W.waits i = some (.entry n)) : V.waits i = some (.entry n) :=
  (h.waits i).elim (fun e => e ▸ hc) fun e => absurd hc (e n)

theorem unowned (h : V.Fewer W) (hu : V.Unowned n) : W.Unowned n :=
  ⟨fun i hc => hu.1 i (h.cur_entry hc), fun i b hc => hu.2.1 i b (h.nxt_entry hc), fun i hc => hu.2.2 i (h.waits_entry hc)⟩

theorem entry (h : V.Fewer W) (n : Nat) : W.entry n = V.entry n := by rw [View.entry, h.entries, View.entry]

theorem stands (h : V.Fewer W) {st : EntryState} : W.stands n i st ↔ V.stands n i st := by rw [View.stands, h.entry, View.stands]

theorem laws (h : V.Fewer W) (l : Laws V) : Laws W := by
  have hs {n i : Nat} {st : EntryState} : W.stands n i st ↔ V.stands n i st := h.stands
  obtain ⟨he, ha, hl, hp, -, -, -⟩ := id h
  constructor
  case table => exact he ▸ l.table
  case num => exact fun n e hn => l.num n e (h.entry n ▸ hn)
  case charged => exact fun n e hn => l.charged n e (h.entry n ▸ hn)
  case oneActive => exact fun n m i p q => l.oneActive n m i (hs.1 p) (hs.1 q)
  case oneArmed => exact fun n m i p q => l.oneArmed n m i (hs.1 p) (hs.1 q)
  case levels => exact fun n m e f hn hm => l.levels n m e f (h.entry n ▸ hn) (h.entry m ▸ hm)
  case held => exact fun r n i hr hh p => l.held r n i hr (ha ▸ hh) (hs.1 p)
  case cut => exact fun r n t hr hi ht hh hc p => l.cut r n t hr (ha ▸ hi) (ha ▸ ht) hh hc (hs.1 p)
  case targets => exact fun r hr => ha ▸ l.targets r hr
  case pool =>
    intro k
    have hc : W.charge k = V.charge k := funext fun e => by rw [View.charge, hl, View.charge]
    rw [he, hc, hp]
    exact l.pool k
  case current => exact fun i n hc => hs.2 (l.current i n (h.cur_entry hc))
  case next => exact fun i n b hc => (l.next i n b (h.nxt_entry hc)).imp hs.2 fun ⟨p, q⟩ => ⟨hs.2 p, q⟩
  case waits =>
    intro i n hc
    obtain ⟨p, q⟩ := l.waits i n (h.waits_entry hc)
    exact ⟨hs.2 p, fun hq => q (h.nxt_entry hq)⟩

end View.Fewer

theorem modSp_fewer (s : State) (i : Nat) {f : SpliceRec → SpliceRec}
    (hc : (f (s.sp i)).owners.1 = s.view.cur i ∨ ∀ n, (f (s.sp i)).owners.1 ≠ some (.entry n))
    (hn : (f (s.sp i)).owners.2.1 = s.view.nxt i ∨ ∀ n b, (f (s.sp i)).owners.2.1 ≠ some (.entry n, b))
    (hw : (f (s.sp i)).owners.2.2 = s.view.waits i ∨ ∀ n, (f (s.sp i)).owners.2.2 ≠ some (.entry n)) :
    s.view.Fewer (s.modSp i f).view := by
  rw [view_modSp]
  refine ⟨rfl, rfl, rfl, rfl, fun j => ?_, fun j => ?_, fun j => ?_⟩
  · rw [show (((s.view.setCur i _).setNxt i _).setWaits i _).cur j = _ from View.setCur_cur s.view i _ j]
    split
    · next h => exact h ▸ hc
    · exact .inl rfl
  · rw [show (((s.view.setCur i _).setNxt i _).setWaits i _).nxt j = _ from View.setNxt_nxt (s.view.setCur i _) i _ j]
    split
    · next h => exact h ▸ hn
    · exact .inl rfl
  · rw [View.setWaits_waits]
    split
    · next h => exact h ▸ hw
    · exact .inl rfl

/-- A discarded instance leaves its role (R77). -/
theorem discardRole_fewer (s : State) (i : Nat) (r : Role) : s.view.Fewer (discardRole s i r).view := by
  have hd : s.view.Fewer (s.modSp i (fun p => { p.setInst r none with
      head := if p.head.map (·.role) = some r then none else p.head
      raReq := if p.raReq.map (·.role) = some r then none else p.raReq })).view := by
    cases r
    · exact modSp_fewer s i (.inr nofun) (.inl rfl) (.inl rfl)
    · exact modSp_fewer s i (.inl rfl) (.inr nofun) (.inl rfl)
  exact hd

theorem discardRole_role (s : State) (i : Nat) (r : Role) : ((discardRole s i r).sp i).inst r = none := by
  rw [State.sp, discardRole_svc, if_pos rfl]
  cases r <;> rfl

theorem view_cur_of {x : Option Inst} (h : (s.sp i).cur = x) : s.view.cur i = x.map (·.owner) := congrArg (Option.map _) h
theorem view_nxt_of {x : Option Inst} (h : (s.sp i).nxt = x) : s.view.nxt i = x.map Inst.asks := congrArg (Option.map _) h
theorem view_waits_of {x : Option InstReq} (h : (s.sp i).waiting = x) : s.view.waits i = x.map (·.owner) := congrArg (Option.map _) h

theorem Inst.asks_of_seeking {n : Inst} (h : n.phase = .seeking) : n.asks = (n.owner, true) := by rw [Inst.asks, h]; rfl
theorem Inst.asks_of_not_seeking {n : Inst} (h : n.phase ≠ .seeking) : n.asks = (n.owner, false) := by
  rw [Inst.asks, beq_eq_false_iff_ne.2 h]

theorem Inst.asks_eq_true {n : Inst} (h : n.asks = (o, true)) : n.owner = o ∧ n.phase = .seeking :=
  have hp : (n.phase == .seeking) = true := congrArg (·.2) h
  ⟨congrArg (·.1) h, beq_iff_eq.1 hp⟩

/-- What an owner has asked for is discarded (R77). -/
theorem discardSeeking_fewer (s : State) (i : Nat) (o : Owner) : s.view.Fewer (discardSeeking s i o).view := by
  unfold discardSeeking
  extract_lets s1
  have h1 : s.view.Fewer s1.view := by
    unfold s1
    split
    · split
      · exact discardRole_fewer s i .next
      · exact .refl _
    · exact .refl _
  refine h1.trans (modSp_fewer s1 i (.inl rfl) (.inl rfl) ?_)
  dsimp only [SpliceRec.owners]
  split
  · exact .inr nofun
  · exact .inl rfl

theorem discardSeeking_nothing_asked (s : State) (i : Nat) (o : Owner) :
    (discardSeeking s i o).view.nxt i ≠ some (o, true) ∧ (discardSeeking s i o).view.waits i ≠ some o := by
  obtain ⟨hn, hw⟩ := discardSeeking_discards s i o
  constructor
  · intro h
    obtain ⟨x, hx, ha⟩ := Option.map_eq_some_iff.1 h
    obtain ⟨ho, hp⟩ := Inst.asks_eq_true ha
    rcases discardSeeking_nxt (s := s) (i := i) o with e | ⟨e, -⟩
    · cases (hn x (e.symm.trans hx) ho hp).symm.trans hx
    · cases e.symm.trans hx
  · intro h
    unfold discardSeeking at h
    extract_lets s1 at h
    have hv := view_waits_of (s := s1.modSp i (fun p => { p with waiting := if p.waiting.map (·.owner) = some o then none else p.waiting }))
      (i := i) (by rw [State.sp_modSp, if_pos rfl])
    rw [hv] at h
    split at h
    · cases h
    · next hne => exact hne h

/-! ### The laws under the basic updates -/

namespace Lawful

theorem of_view (h : Lawful s) (hv : t.view = s.view) : Lawful t := by
  unfold Lawful
  rw [hv]
  exact h

theorem fewer (h : Lawful s) (hv : s.view.Fewer t.view) : Lawful t := hv.laws h

theorem raise (h : Lawful s) (i : Nat) (c : Cond) : Lawful (raise s i c) := h.of_view (view_raise s i c)
theorem raiseIf (h : Lawful s) (b : Bool) (i : Nat) (c : Cond) : Lawful (raiseIf b s i c) := h.of_view (view_raiseIf b s i c)
theorem modSp_same (h : Lawful s) (i : Nat) {f : SpliceRec → SpliceRec} (ho : (f (s.sp i)).owners = (s.sp i).owners) :
    Lawful (s.modSp i f) := h.of_view (view_modSp_same ho)
theorem setLane (h : Lawful s) (k : Nat) {l : Lane} (hp : l.cfg.pool = (s.lane k).cfg.pool) : Lawful (s.setLane k l) :=
  h.of_view (view_setLane hp)
theorem discardRole (h : Lawful s) (i : Nat) (r : Role) : Lawful (discardRole s i r) := h.fewer (discardRole_fewer s i r)
theorem discardSeeking (h : Lawful s) (i : Nat) (o : Owner) : Lawful (discardSeeking s i o) := h.fewer (discardSeeking_fewer s i o)

theorem numbered (h : Lawful s) : s.Numbered := ⟨h.table, h.num⟩

theorem foldl {β : Type} {f : State → β → State} (hf : ∀ {t : State} (b : β), Lawful t → Lawful (f t b)) (l : List β)
    (h : Lawful s) : Lawful (l.foldl f s) := by
  induction l generalizing s with
  | nil => exact h
  | cons b r ih => exact ih (hf b h)

end Lawful

end Sys2Proof.Machine
end

section
/-! The laws of the schedule under the scheduler's acts: entries that end, are demoted, arm and change (R49, R61, R65, R72). -/

namespace Sys2Proof.Machine

variable {s t u : State} {i j k n r : Nat} {e x l : Entry} {o : Owner} {V : View}

/-! ### Reading the schedule -/

theorem Lawful.armedEntry_stands (h : Lawful s) (hl : armedEntry s i = some l) : s.entry l.num = some l ∧ l.svc = i ∧ l.st = .armed :=
  ⟨h.numbered.entry_of_find hl, armedEntry_svc hl, armedEntry_st hl⟩

theorem Lawful.activeEntry_stands (h : Lawful s) (hl : activeEntry s i = some l) : s.entry l.num = some l ∧ l.svc = i ∧ l.st = .active :=
  ⟨h.numbered.entry_of_find hl, activeEntry_svc hl, by simpa using List.find?_some hl⟩

theorem Lawful.activeEntry_of_stands (h : Lawful s) (hs : s.view.stands n i .active) :
    ∃ l, activeEntry s i = some l ∧ l.num = n ∧ s.entry n = some l := by
  obtain ⟨e, he, hi, hst⟩ := hs
  have hm : e ∈ entriesOf s i := h.numbered.mem_entriesOf.2 ⟨by rw [h.num n e he]; exact he, hi⟩
  cases hl : activeEntry s i with
  | none => exact absurd hst (by simpa using List.find?_eq_none.1 hl e hm)
  | some l =>
    obtain ⟨hl1, hl2, hl3⟩ := h.activeEntry_stands hl
    have hn : l.num = n := h.oneActive _ _ i ⟨l, hl1, hl2, hl3⟩ ⟨e, he, hi, hst⟩
    exact ⟨l, rfl, hn, hn ▸ hl1⟩

theorem Lawful.not_armed_of_none (h : Lawful s) (hl : armedEntry s i = none) (m : Nat) : ¬s.view.stands m i .armed := by
  rintro ⟨e, he, hi, hst⟩
  have hm : e ∈ entriesOf s i := h.numbered.mem_entriesOf.2 ⟨by rw [h.num m e he]; exact he, hi⟩
  exact absurd hst (by simpa using List.find?_eq_none.1 hl e hm)

theorem Lawful.not_active_of_none (h : Lawful s) (hl : activeEntry s i = none) (m : Nat) : ¬s.view.stands m i .active := by
  intro hs
  obtain ⟨l, hl', -⟩ := h.activeEntry_of_stands hs
  cases hl.symm.trans hl'

theorem Laws.unowned_idle (h : Laws V) (he : V.entry n = some e) (hst : e.st.idle) : V.Unowned n :=
  h.unowned (fun _ p => hst.2 (p.entry he).2) fun _ p => hst.1 (p.entry he).2

/-- An ARMED entry owns nothing once what it asked for is discarded. -/
theorem Laws.unowned_armed {W : View} (h : Laws V) (hf : V.Fewer W) (he : V.entry n = some e) (hst : e.st = .armed)
    (hask : W.nxt e.svc ≠ some (.entry n, true) ∧ W.waits e.svc ≠ some (.entry n)) : W.Unowned n := by
  have hsvc {i : Nat} {st : EntryState} (p : V.stands n i st) : e.svc = i ∧ .armed = st := hst ▸ p.entry he
  refine ⟨fun i hc => ?_, fun i b hc => ?_, fun i hc => ?_⟩
  · exact nomatch (hsvc (h.current i n (hf.cur_entry hc))).2
  · rcases h.next i n b (hf.nxt_entry hc) with p | ⟨p, rfl⟩
    · exact nomatch (hsvc p).2
    · exact hask.1 ((hsvc p).1 ▸ hc)
  · exact hask.2 ((hsvc (h.waits i n (hf.waits_entry hc)).1).1 ▸ hc)

theorem Lawful.unowned_armed (h : Lawful s) (he : s.entry n = some e) (hst : e.st = .armed) :
    (Machine.discardSeeking s e.svc (.entry n)).view.Unowned n :=
  Laws.unowned_armed h (discardSeeking_fewer s e.svc (.entry n)) he hst (discardSeeking_nothing_asked s e.svc (.entry n))

/-! ### Entries that end or are demoted -/

theorem view_push (s : State) (p : PortId) (v : Event) : (s.push p v).view = s.view := rfl

theorem endEntry_view_armed (r : EntryResult) (hst : x.st = .armed) :
    (endEntry s x r).view = (discardSeeking s x.svc (.entry x.num)).view.set x.num none := by
  simp only [endEntry, if_pos hst, view_setEntry, view_dropRefs, view_push]

theorem endEntry_view (r : EntryResult) (hst : x.st ≠ .armed) : (endEntry s x r).view = s.view.set x.num none := by
  simp only [endEntry, if_neg hst, view_setEntry, view_dropRefs, view_push]

/-- An entry ends: an ACTIVE one when it owns no instance any more. -/
theorem Lawful.endEntry (h : Lawful s) (he : s.entry x.num = some e) (hv : x.svc = e.svc) (hs : x.st = e.st)
    (hu : x.st = .active → s.view.Unowned x.num) (r : EntryResult) : Lawful (Machine.endEntry s x r) := by
  unfold Lawful
  by_cases ha : x.st = .armed
  · have hl : Laws (Machine.discardSeeking s e.svc (.entry x.num)).view := h.discardSeeking _ _
    have hun := h.unowned_armed he (hs.symm.trans ha)
    rw [endEntry_view_armed r ha, hv]
    exact hl.release hun none fun _ hx => nomatch hx
  · have hun : s.view.Unowned x.num := by
      by_cases hb : x.st = .active
      · exact hu hb
      · exact Laws.unowned_idle h he ⟨fun hx => ha (hs.trans hx), fun hx => hb (hs.trans hx)⟩
    rw [endEntry_view r ha]
    exact Laws.release h hun none fun _ hx => nomatch hx

/-- An entry that is not ACTIVE ends. -/
theorem Lawful.endEntry_self (h : Lawful s) (he : s.entry n = some e) (hst : e.st ≠ .active) (r : EntryResult) :
    Lawful (Machine.endEntry s e r) := h.endEntry (by rw [h.num n e he]; exact he) rfl rfl (fun ha => absurd ha hst) r

theorem demote_view (s : State) (l : Entry) : (demote s l).view
    = (discardSeeking s l.svc (.entry l.num)).view.set l.num (some { l with st := .waiting .held, s := none, commitment := 0 }) := rfl

theorem Lawful.demote (h : Lawful s) (hl : armedEntry s i = some l) : Lawful (Machine.demote s l) := by
  obtain ⟨he, -, hst⟩ := h.armedEntry_stands hl
  unfold Lawful
  rw [demote_view]
  exact Laws.release (h.discardSeeking _ _) (h.unowned_armed he hst) _ fun e hx => by
    cases hx
    exact ⟨rfl, nofun, nofun, rfl⟩

/-! ### Asking for an instance -/

theorem view_setNxt_of_modSp (s : State) (i : Nat) (n : Inst) :
    (s.modSp i (fun p => { p with nxt := some n })).view = s.view.setNxt i (some n.asks) := by
  have hv := view_modSp s i (fun p => { p with nxt := some n })
  have hc : (s.sp i).cur.map (·.owner) = s.view.cur i := rfl
  have hw : (s.sp i).waiting.map (·.owner) = (s.view.setNxt i (some n.asks)).waits i := rfl
  dsimp only [SpliceRec.owners] at hv
  rw [hv, hc, View.setCur_self, Option.map_some, hw, View.setWaits_self]

theorem view_setWaits_of_modSp (s : State) (i : Nat) (q : Option InstReq) :
    (s.modSp i (fun p => { p with waiting := q })).view = s.view.setWaits i (q.map (·.owner)) := by
  have hv := view_modSp s i (fun p => { p with waiting := q })
  have hc : (s.sp i).cur.map (·.owner) = s.view.cur i := rfl
  have hn : (s.sp i).nxt.map Inst.asks = s.view.nxt i := rfl
  dsimp only [SpliceRec.owners] at hv
  rw [hv, hc, View.setCur_self, hn, View.setNxt_self]

theorem Lawful.placeInst (h : Lawful s) (i : Nat) (q : InstReq) (hq : ∀ n, q.owner = .entry n →
    (s.view.stands n i .active ∨ s.view.stands n i .armed) ∧ s.view.waits i ≠ some (.entry n)) : Lawful (placeInst s i q) := by
  unfold Machine.placeInst
  split
  · exact h
  · split
    · exact h
    · refine Lawful.raiseIf ?_ _ _ _
      unfold Lawful
      rw [view_setNxt_of_modSp]
      refine Laws.setNxt h i _ fun n b hx => ?_
      obtain ⟨ho, hb⟩ := Prod.mk.inj (Option.some.inj hx)
      obtain ⟨hs, hw⟩ := hq n ho
      exact ⟨hs.imp_right fun p => ⟨p, hb.symm⟩, fun _ => hw⟩

/-- An instance is asked for: for the ARMED entry, which waits for none, or for the ACTIVE one into a free role. -/
theorem Lawful.requestNext (h : Lawful s) (i : Nat) (q : InstReq) (hq : ∀ n, q.owner = .entry n → s.view.waits i ≠ some (.entry n)
    ∧ (s.view.stands n i .armed ∨ s.view.stands n i .active ∧ s.view.nxt i = none)) : Lawful (requestNext s i q) := by
  unfold Machine.requestNext
  split
  · exact h.placeInst i q fun n hn => ⟨(hq n hn).2.symm.imp And.left id, (hq n hn).1⟩
  · next y hy =>
    have hnone : s.view.nxt i ≠ none := by rw [view_nxt_of hy]; exact Option.some_ne_none _
    have harmed (n : Nat) (hn : q.owner = .entry n) : s.view.stands n i .armed := (hq n hn).2.resolve_right fun p => hnone p.2
    split
    · have hf := discardRole_fewer s i .next
      exact (h.discardRole i .next).placeInst i q fun n hn =>
        ⟨.inr (hf.stands.2 (harmed n hn)), fun hw => (hq n hn).1 (hf.waits_entry hw)⟩
    · next hp =>
      unfold Lawful
      rw [view_setWaits_of_modSp]
      refine Laws.setWaits h i _ fun n hx => ⟨harmed n (Option.some.inj hx), ?_⟩
      rw [view_nxt_of hy, Option.map_some, Inst.asks_of_not_seeking hp]
      exact fun hx => Bool.false_ne_true (Prod.mk.inj (Option.some.inj hx)).2

/-- An alert record asks for its instance. -/
theorem Lawful.requestAlert (h : Lawful s) (i : Nat) (q : InstReq) (ho : q.owner = .alert r) : Lawful (Machine.requestNext s i q) :=
  h.requestNext i q fun _ hn => nomatch ho.symm.trans hn

/-! ### The return point, and the fields that the laws do not read -/

theorem Lawful.handE (h : Lawful s) (i e : Nat) : Lawful (handE s i e) := by
  unfold Machine.handE
  split
  · exact h
  · exact h.modSp_same i rfl

theorem Lawful.awaitLead (h : Lawful s) (i : Nat) (b : Bool) : Lawful (awaitLead s i b) := by
  cases b
  · exact h.modSp_same i rfl
  · exact h.modSp_same i rfl

theorem Lawful.keepAwaiting (s : State) (i : Nat) (f : State → State) (h : Lawful (f s)) : Lawful (Machine.keepAwaiting s i f) :=
  h.modSp_same i rfl

theorem Lawful.relabel (h : Lawful s) (he : s.entry n = some e) (hn : x.num = e.num) (hv : x.svc = e.svc) (ho : x.origin = e.origin)
    (hs : x.st = e.st) (hc : x.commitment = e.commitment) : Lawful (s.setEntry n (some x)) := Laws.relabel h he hn hv ho hs hc

/-- An entry in the schedule keeps its state, or waits or is due anew. -/
theorem Lawful.setIdle (h : Lawful s) (he : s.entry n = some e) (hidle : e.st.idle) (hn : x.num = e.num) (hs : x.st.idle)
    (hc : x.commitment = e.commitment) : Lawful (s.setEntry n (some x)) := by
  unfold Lawful
  rw [view_setEntry]
  refine Laws.release h (Laws.unowned_idle h he hidle) (some x) fun y hy => ?_
  cases hy
  exact ⟨hn.trans (h.num n e he), hs.1, hs.2, hc.trans (h.charged n e he hidle.1 hidle.2)⟩

theorem Lawful.setE (h : Lawful s) (n e : Nat) : Lawful (setE s n e) := by
  unfold Machine.setE
  split
  · next x hx => exact (h.relabel (x := { x with e := some e }) hx rfl rfl rfl rfl rfl).handE _ _
  · exact h

theorem Lawful.podAdvance (h : Lawful s) (n delta : Nat) (v : Seal) : Lawful (podAdvance s n delta v) := by
  unfold Machine.podAdvance
  split
  · exact h
  · next e he =>
    extract_lets last s1
    have h1 : Lawful s1 := h.relabel he rfl rfl rfl rfl rfl
    split
    · exact h1.setE _ _
    · exact h1

theorem Lawful.podEnd (h : Lawful s) (n delta : Nat) (v : Seal) : Lawful (podEnd s n delta v) := by
  unfold Machine.podEnd
  split
  · next e he =>
    have h1 : Lawful (s.setEntry n (some { e with podEnded := true })) := h.relabel he rfl rfl rfl rfl rfl
    dsimp only
    split
    · exact Lawful.keepAwaiting _ _ (fun s => Machine.setE s n _) (h1.setE n _)
    · exact h1
  · exact h

/-! ### The arming computation (R60, R61) -/

theorem Lawful.yielded (h : Lawful s) (i : Nat) : Lawful (s.yielded i) := by
  unfold State.yielded
  split
  · next l hl => exact h.demote hl
  · exact h

/-- The ARMED entry has yielded: none is ARMED on the service, the others stand as they were, and what it gives back is free. -/
structure Yielded (V W : View) (i back : Nat) : Prop where
  alert : W.alert = V.alert
  laneOf : W.laneOf = V.laneOf
  pool : W.pool = V.pool
  none_armed : ∀ m, ¬W.stands m i .armed
  other : ∀ m, ¬V.stands m i .armed → W.entry m = V.entry m
  sum : ∀ k, V.laneOf i = some k →
    ((Table.vals W.entries).map (W.charge k)).sum + back = ((Table.vals V.entries).map (V.charge k)).sum

theorem Lawful.yields (h : Lawful s) (i : Nat) : Yielded s.view (s.yielded i).view i (s.givenBack i) := by
  unfold State.yielded State.givenBack
  split
  · next l hl =>
    obtain ⟨he, hi, hst⟩ := h.armedEntry_stands hl
    subst hi
    have hf := discardSeeking_fewer s l.svc (.entry l.num)
    have hself : s.view.stands l.num l.svc .armed := ⟨l, he, rfl, hst⟩
    rw [demote_view]
    refine ⟨hf.alert, hf.laneOf, hf.pool, fun m hm => ?_, fun m hm => ?_, fun k hk => ?_⟩
    · by_cases hml : m = l.num
      · subst hml
        exact nomatch (View.stands_set_self.1 hm).2
      · exact hml (h.oneArmed _ _ _ (hf.stands.1 ((View.stands_set_ne hml).1 hm)) hself)
    · rw [View.entry_set, if_neg (by rintro rfl; exact hm hself), hf.entry]
    · have hsum := Laws.sum_set (Lawful.discardSeeking h l.svc (.entry l.num)) (n := l.num)
        (some { l with st := .waiting .held, s := none, commitment := 0 }) k
      have hz : (Machine.discardSeeking s l.svc (.entry l.num)).view.charge k { l with st := .waiting .held, s := none, commitment := 0 } = 0 := by
        simp [View.charge]
      have hc : (Machine.discardSeeking s l.svc (.entry l.num)).view.charge k = s.view.charge k := funext fun e => by
        rw [View.charge, hf.laneOf, View.charge]
      have hl' : s.view.charge k l = l.commitment := if_pos hk
      rw [hf.entry, show s.view.entry l.num = some l from he] at hsum
      simp only [Option.elim, hz, hc, hl', hf.entries, Nat.add_zero] at hsum
      exact hsum
  · next hl => exact ⟨rfl, rfl, rfl, h.not_armed_of_none hl, fun _ _ => rfl, fun _ _ => rfl⟩

/-- What a held level below the entry's own says (R49). -/
theorem Lawful.held_below (h : Lawful s) {p : PortId} (hl : heldLevel s i < levelOf p) : (∀ r, r < 4 → (s.alert r).holds i = false)
    ∧ ∀ m f, s.entry m = some f → f.svc = i → f.st = .active → levelOf f.origin < levelOf p := by
  constructor
  · intro r hr
    cases hh : (s.alert r).holds i with
    | false => rfl
    | true =>
      have hsome : (holdingAlert s i).isSome = true := List.find?_isSome.2 ⟨r, List.mem_range.2 hr, hh⟩
      exact absurd (levelOf_le_heldLevel hsome p) (Nat.not_le.2 hl)
  · intro m f hf hi hst
    obtain ⟨a, ha, -, hf'⟩ := h.activeEntry_of_stands ⟨f, hf, hi, hst⟩
    cases hf.symm.trans hf'
    refine lt_of_le_of_lt ?_ hl
    unfold heldLevel
    rw [ha]
    exact le_max_of_le_right (le_max_left _ _)

/-- An entry arms (R61). -/
theorem Lawful.arming (h : Lawful s) (he : s.entry n = some e) (hidle : e.st.idle) (hlevel : heldLevel s e.svc < levelOf e.origin)
    (hn : x.num = e.num) (hv : x.svc = e.svc) (ho : x.origin = e.origin) (hs : x.st = .armed)
    (hpool : committed s ((s.laneOf e.svc).getD 0) - s.givenBack e.svc + x.commitment ≤ (s.lane ((s.laneOf e.svc).getD 0)).cfg.pool)
    {q : InstReq} (hq : q.owner = .entry n) : Lawful (s.arming e.svc n x q) := by
  have hy := h.yielded e.svc
  have hw := h.yields e.svc
  obtain ⟨hheld, habove⟩ := h.held_below hlevel
  have hkeep : (s.yielded e.svc).view.entry n = some e :=
    (hw.other n fun p => hidle.1 (p.entry he).2).trans he
  have hu := Laws.unowned_idle hy hkeep hidle
  have hstands : (s.yielded e.svc).view.set n (some x) |>.stands n e.svc .armed := View.stands_set_self.2 ⟨hv, hs⟩
  have harm : Lawful ((s.yielded e.svc).setEntry n (some x)) := by
    refine Laws.arm hy hkeep hidle.1 hidle.2 (hn.trans (h.num n e he)) hv hs hw.none_armed (fun m f hf hfi hfs => ?_)
      (fun r hr => by rw [hw.alert]; exact hheld r hr) fun k hk => ?_
    · rw [ho]
      refine habove m f ?_ hfi hfs
      by_cases hm : s.view.stands m e.svc .armed
      · obtain ⟨g, hg, hgi, hgs⟩ := hm
        by_contra hne
        have hna : ¬s.view.stands m e.svc .active := fun p => nomatch hgs.symm.trans (p.entry hg).2
        obtain ⟨l, hl⟩ : ∃ l, armedEntry s e.svc = some l := by
          cases hl : armedEntry s e.svc with
          | none => exact absurd ⟨g, hg, hgi, hgs⟩ (h.not_armed_of_none hl m)
          | some l => exact ⟨l, rfl⟩
        obtain ⟨hle, hli, hls⟩ := h.armedEntry_stands hl
        cases h.oneArmed _ _ e.svc ⟨g, hg, hgi, hgs⟩ ⟨l, hle, hli, hls⟩
        have hy' : (s.yielded e.svc).entry l.num = some { l with st := .waiting .held, s := none, commitment := 0 } := by
          obtain ⟨-, -, -, -, -, hlow, -⟩ := yielded_spec s e.svc
          exact hlow l hl
        cases hf.symm.trans hy'
        cases hfs
      · exact (hw.other m hm).symm.trans hf
    · rw [hw.laneOf] at hk
      have hsum := hw.sum k hk
      have hk' : s.laneOf e.svc = some k := hk
      rw [hk', Option.getD_some, Laws.committed_eq h.charged h.table] at hpool
      have hp : (s.yielded e.svc).view.pool k = (s.lane k).cfg.pool := by rw [hw.pool]; rfl
      omega
  refine harm.requestNext e.svc q fun m hm => ?_
  cases hq.symm.trans hm
  exact ⟨hu.2.2 e.svc, .inl hstands⟩

theorem Lawful.runsKeep : RunsKeep EntryState.idle Lawful := fun t n e h he hidle => by
  have hnum := h.num n e he
  rcases armRun_cases he with ⟨a, r, hu⟩ | ⟨a, c, hu⟩ | ⟨a, sp, b, hlevel, hpool, hu⟩ <;> rw [hu]
  · exact h.endEntry (x := { e with a := a }) (e := e) (by rw [← he, ← hnum]) rfl rfl (fun ha => absurd ha hidle.2) r
  · exact h.setIdle he hidle rfl (EntryState.idle_waiting c) rfl
  · refine Lawful.raiseIf ?_ _ _ _
    exact h.arming (x := { e with st := .armed, a := a, s := some sp, commitment := podRate t e.pod }) he hidle hlevel rfl rfl rfl rfl
      hpool rfl

theorem timeDue_pending (h : timeDue s e = true) : e.st = .pending := by
  unfold timeDue at h
  split at h
  · simpa using (Bool.and_eq_true_iff.1 h).1
  · cases h

namespace Lawful

theorem poolFreed (h : Lawful s) (k : Nat) : Lawful (poolFreed s k) := runsKeep.poolFreed (EntryState.idle_waiting _) k h
theorem reeval (h : Lawful s) (i : Nat) (c : WaitCause) : Lawful (reeval s i c) :=
  runsKeep.reeval (EntryState.idle_waiting _) (EntryState.idle_waiting c) i h
theorem afterEnd (h : Lawful s) (i : Nat) : Lawful (afterEnd s i) :=
  runsKeep.afterEnd (EntryState.idle_waiting _) (EntryState.idle_waiting _) i h
theorem armAndArbitrate (h : Lawful s) (he : s.entry n = some e) (hidle : e.st.idle) : Lawful (armAndArbitrate s n) :=
  runsKeep.armAndArbitrate (EntryState.idle_waiting _) h he hidle

theorem endAndRelease (h : Lawful s) (he : s.entry n = some e) (hu : e.st = .active → s.view.Unowned n) (r : EntryResult) :
    Lawful (endAndRelease s e r) := by
  have hnum := h.num n e he
  have h1 : Lawful (Machine.endEntry s e r) := h.endEntry (by rw [hnum]; exact he) rfl rfl (by rw [hnum]; exact hu) r
  unfold Machine.endAndRelease
  dsimp only
  split
  · exact h1.afterEnd _
  · exact h1

theorem fireDue (h : Lawful s) (i : Nat) : Lawful (fireDue s i) := by
  refine foldl (fun n ht => ?_) _ h
  split
  · next e he =>
    split
    · next hd => exact ht.armAndArbitrate he (by rw [timeDue_pending hd]; exact EntryState.idle_pending)
    · exact ht
  · exact ht

theorem firstLock (h : Lawful s) (i : Nat) : Lawful (firstLock s i) := by
  refine foldl (fun n ht => ?_) _ h
  split
  · next e he =>
    split
    · next hst htr hc =>
      split
      · exact ht.endEntry_self he (by rw [hst]; exact nofun) _
      · split
        · exact ht.armAndArbitrate he (by rw [hst]; exact EntryState.idle_pending)
        · exact ht
    · exact ht
  · exact ht

theorem returnEnded (h : Lawful s) (he : s.entry n = some e) (hu : s.view.Unowned n) (b : Bool) (p : Option Nat) :
    Lawful (returnEnded s e b p) := by
  have hraise (c : Cond) (r : EntryResult) : Lawful (Machine.endAndRelease (Machine.raise s e.svc c) e r) := by
    refine (h.raise e.svc c).endAndRelease (n := n) ?_ (fun _ => ?_) r
    · rw [State.entry, raise_frame]
      exact he
    · rw [view_raise]
      exact hu
  have hplain (r : EntryResult) := h.endAndRelease he (fun _ => hu) r
  unfold Machine.returnEnded
  split
  · exact hplain _
  · split
    · exact hplain _
    · split
      · dsimp only
        split
        · exact hraise _ _
        · split
          · exact hplain _
          · exact hraise _ _
      · exact hraise _ _

end Lawful

end Sys2Proof.Machine
end

section
/-! The laws of the schedule under the alert unit's acts: a service taken or given up, a record that ends (R49, R171, R176, R180). -/

namespace Sys2Proof.Machine

variable {s t u : State} {i j k n r : Nat} {e x l : Entry} {V : View} {a : AlertRec}

/-! ### Records that come to hold no more -/

/-- A change of an alert record to one that holds nothing more, and has cut on nothing more that it holds. -/
structure AlertRec.Weaker (a b : AlertRec) : Prop where
  state : b.st ≠ .idle → a.st ≠ .idle
  targets : ∀ x ∈ b.targets, x.status = .held → ∃ y ∈ a.targets, y.svc = x.svc ∧ y.status = .held ∧ (x.cut = true → y.cut = true)
  nodup : (a.targets.map (·.svc)).Nodup → (b.targets.map (·.svc)).Nodup

theorem AlertRec.holds_iff : a.holds i = true ↔ a.st ≠ .idle ∧ ∃ x ∈ a.targets, x.svc = i ∧ x.status = .held := by
  simp [AlertRec.holds, bne_iff_ne, List.any_eq_true]

theorem AlertRec.modTarget_svcs (a : AlertRec) (i : Nat) {f : Target → Target} (hf : ∀ x, (f x).svc = x.svc) :
    (a.modTarget i f).targets.map (·.svc) = a.targets.map (·.svc) := by
  unfold AlertRec.modTarget
  rw [List.map_map]
  refine List.map_congr_left fun x _ => ?_
  simp only [Function.comp]
  split
  · exact hf x
  · rfl

theorem AlertRec.mem_modTarget {f : Target → Target} {x : Target} (hx : x ∈ (a.modTarget i f).targets) :
    ∃ y ∈ a.targets, x = if y.svc = i then f y else y := by
  obtain ⟨y, hy, rfl⟩ := List.mem_map.1 hx
  exact ⟨y, hy, rfl⟩

theorem AlertRec.Weaker.modTarget (a : AlertRec) (i : Nat) {f : Target → Target} (hv : ∀ x, (f x).svc = x.svc)
    (hs : ∀ x, (f x).status = .held → x.status = .held ∧ ((f x).cut = true → x.cut = true)) : a.Weaker (a.modTarget i f) where
  state hi := hi
  targets x hx hh := by
    obtain ⟨y, hy, rfl⟩ := AlertRec.mem_modTarget hx
    split at hh
    · next hi =>
      rw [if_pos hi]
      exact ⟨y, hy, (hv y).symm, hs y hh⟩
    · next hi =>
      rw [if_neg hi]
      exact ⟨y, hy, rfl, hh, fun hc => hc⟩
  nodup hn := by
    rw [AlertRec.modTarget_svcs a i hv]
    exact hn

theorem Lawful.weaken (h : Lawful s) (r : Nat) (hw : (s.alert r).Weaker a) : Lawful (s.setAlert r a) := by
  unfold Lawful
  rw [view_setAlert]
  refine Laws.setAlert h r a (fun hr n i hh => ?_) (fun hr hi x hx hs hc n => ?_) fun hr => hw.nodup (h.targets r hr)
  · obtain ⟨hi, x, hx, hxi, hs⟩ := AlertRec.holds_iff.1 hh
    obtain ⟨y, hy, hyi, hys, -⟩ := hw.targets x hx hs
    exact h.held r n i hr (AlertRec.holds_iff.2 ⟨hw.state hi, y, hy, hyi.trans hxi, hys⟩)
  · obtain ⟨y, hy, hyi, hys, hyc⟩ := hw.targets x hx hs
    rw [← hyi]
    exact h.cut r n y hr (hw.state hi) hy hys (hyc hc)

theorem Lawful.modTarget (h : Lawful s) (r i : Nat) {f : Target → Target} (hv : ∀ x, (f x).svc = x.svc)
    (hs : ∀ x, (f x).status = .held → x.status = .held ∧ ((f x).cut = true → x.cut = true)) :
    Lawful (s.modAlert r (fun a => a.modTarget i f)) := h.weaken r (.modTarget _ i hv hs)

namespace Lawful

theorem endRecord (h : Lawful s) (r : Nat) (c : EndCause) : Lawful (endRecord s r c) := by
  unfold Machine.endRecord
  extract_lets a s1
  have h1 : Lawful (s1.dropRef a.clip) := h
  exact h1.weaken r ⟨fun hi => absurd rfl hi, nofun, fun _ => List.nodup_nil⟩

theorem testRecord (h : Lawful s) (r : Nat) : Lawful (testRecord s r) := by
  rcases testRecord_cases s r with e | ⟨c, e⟩ <;> rw [e]
  · exact h
  · exact h.endRecord r c

theorem leaveHeld (h : Lawful s) (r i : Nat) (b : Bool) : Lawful (leaveHeld s r i b) := h.modTarget r i (fun _ => rfl) nofun

theorem alertE (h : Lawful s) (r i e : Nat) : Lawful (alertE s r i e) :=
  (h.modTarget r i (f := fun t => { t with e := some e }) (fun _ => rfl) fun _ hs => ⟨hs, fun hc => hc⟩).handE i e

theorem handClipEnd (h : Lawful s) (r i : Nat) (c : Inst) : Lawful (handClipEnd s r i c) :=
  Lawful.keepAwaiting s i (fun s => Machine.alertE s r i _) (h.alertE r i _)

end Lawful

/-! ### A service taken (R64, R176) -/

/-- A record holds a service afresh: no ARMED entry may stand on it. -/
theorem Lawful.hold {W : View} (h : Laws W) (r i : Nat) (hn : ∀ m, ¬W.stands m i .armed) {f : Target → Target}
    (hv : ∀ x, (f x).svc = x.svc) (hc : ∀ x, (f x).cut = false) : Laws (W.setAlert r ((W.alert r).modTarget i f)) := by
  refine Laws.setAlert h r _ (fun hr n j hh => ?_) (fun hr hi x hx hs hc' n => ?_) fun hr => ?_
  · obtain ⟨hi, x, hx, hxj, hs⟩ := AlertRec.holds_iff.1 hh
    obtain ⟨y, hy, rfl⟩ := AlertRec.mem_modTarget hx
    split at hxj
    · next hyi =>
      rw [← hxj, hv, hyi]
      exact hn n
    · next hyi =>
      rw [if_neg hyi] at hs
      exact h.held r n j hr (AlertRec.holds_iff.2 ⟨hi, y, hy, hxj, hs⟩)
  · obtain ⟨y, hy, rfl⟩ := AlertRec.mem_modTarget hx
    split at hc'
    · exact absurd ((hc y).symm.trans hc') Bool.false_ne_true
    · next hyi =>
      rw [if_neg hyi] at hs ⊢
      exact h.cut r n y hr hi hy hs hc'
  · rw [AlertRec.modTarget_svcs _ i hv]
    exact h.targets r hr

/-- A record changes where the service's ARMED entry has been demoted: as if it had been demoted first. -/
theorem Lawful.demoted_under (h : Lawful s) (r : Nat) (a : AlertRec) (hl : armedEntry s i = some l) :
    ∃ W, Laws W ∧ W.alert = s.alert ∧ (∀ m, ¬W.stands m i .armed) ∧ (Machine.demote (s.setAlert r a) l).view = W.setAlert r a := by
  obtain ⟨he, hi, hst⟩ := h.armedEntry_stands hl
  have hf := discardSeeking_fewer (s.setAlert r a) l.svc (.entry l.num)
  have hask := discardSeeking_nothing_asked (s.setAlert r a) l.svc (.entry l.num)
  rw [demote_view]
  generalize (Machine.discardSeeking (s.setAlert r a) l.svc (.entry l.num)).view = D at hf hask ⊢
  have hv := view_setAlert s r a
  have hf0 : s.view.Fewer ({ D with alert := s.alert } : View) := by
    rw [hv] at hf
    exact ⟨hf.entries, rfl, hf.laneOf, hf.pool, hf.cur, hf.nxt, hf.waits⟩
  have hu := Laws.unowned_armed h hf0 he hst hask
  refine ⟨_, (hf0.laws h).release hu (some { l with st := .waiting .held, s := none, commitment := 0 }) fun e hx => ?_, rfl,
    fun m hm => ?_, ?_⟩
  · cases hx
    exact ⟨rfl, nofun, nofun, rfl⟩
  · by_cases hml : m = l.num
    · subst hml
      exact nomatch (View.stands_set_self.1 hm).2
    · exact hml (h.oneArmed _ _ i (hf0.stands.1 ((View.stands_set_ne hml).1 hm)) ⟨l, he, hi, hst⟩)
  · have hd : D.alert = (s.view.setAlert r a).alert := hf.alert.trans (congrArg View.alert hv)
    cases D
    cases hd
    rfl

theorem Lawful.takeService (h : Lawful s) (r i : Nat) : Lawful (takeService s r i) := by
  rw [takeService_eq]
  refine Lawful.requestAlert (r := r) ?_ i _ rfl
  have ha : armedEntry (holdTarget s r i) i = armedEntry s i := rfl
  unfold State.cleared
  rw [ha]
  split
  · next l hl =>
    refine Lawful.poolFreed ?_ _
    obtain ⟨W, hW, hWa, hn, hv⟩ := h.demoted_under r _ hl
    unfold Lawful
    refine (congrArg Laws hv).mpr ?_
    have hold := Lawful.hold hW r i hn (f := fun t => { t with status := .held, s := alertPoint s i (s.alert r).clip, e := none, cut := false })
      (fun _ => rfl) fun _ => rfl
    rw [hWa] at hold
    exact hold
  · next hl =>
    unfold Lawful
    have hold := Lawful.hold h r i (h.not_armed_of_none hl)
      (f := fun t => { t with status := .held, s := alertPoint s i (s.alert r).clip, e := none, cut := false }) (fun _ => rfl) fun _ => rfl
    exact (congrArg Laws (view_setAlert s r _)).mpr hold

namespace Lawful

theorem passOn (h : Lawful s) (i : Nat) : Lawful (passOn s i) := by
  unfold Machine.passOn
  split
  · next r _ =>
    split
    · refine testRecord (reeval ?_ i .held) r
      exact h.modTarget r i (fun _ => rfl) nofun
    · exact h.takeService r i
  · exact h.reeval i .held

theorem depart (h : Lawful s) (r i : Nat) (b : Bool) : Lawful (depart s r i b) := ((h.leaveHeld r i b).passOn i).testRecord r

theorem endTarget (h : Lawful s) (r : Nat) (x : Target) : Lawful (endTarget s r x) := by
  unfold Machine.endTarget
  extract_lets i
  split
  · exact h
  · split
    · exact (h.discardSeeking i (.alert r)).depart r i false
    · split
      · split
        · exact h.alertE r i _
        · exact h.awaitLead i true
      · split
        · exact h
        · split
          · split
            · exact h
            · exact h.alertE r i _
          · exact h
      · exact h

theorem endAlert (h : Lawful s) (hst : (s.alert r).st ≠ .idle) (c : EndCause) (m : Nat) : Lawful (endAlert s r c m) := by
  unfold Machine.endAlert
  extract_lets s1 ts
  refine testRecord (foldl (fun x ht => ht.endTarget r x) ts ?_) r
  refine h.weaken r ⟨fun _ => hst, fun x hx hh => ?_, fun hn => ?_⟩
  · obtain ⟨y, hy, rfl⟩ := List.mem_map.1 hx
    split at hh
    · cases hh
    · next hd =>
      rw [if_neg hd]
      exact ⟨y, hy, rfl, hh, fun hc => hc⟩
  · have hm : (List.map (fun t : Target => if t.status = .deferred then { t with status := .otherAlert } else t) (s.alert r).targets).map (·.svc)
        = (s.alert r).targets.map (·.svc) := by
      rw [List.map_map]
      refine List.map_congr_left fun x _ => ?_
      simp only [Function.comp]
      split <;> rfl
    exact (congrArg List.Nodup hm).mpr hn

end Lawful

end Sys2Proof.Machine
end

section
/-! The laws of the schedule under cuts and returns: an entry becomes ACTIVE as its instance cuts in, the lower one ends (R64, R69, R99). -/

namespace Sys2Proof.Machine

variable {s t u : State} {i j k n m r : Nat} {e x l : Entry} {V W : View} {o : Owner}

/-! ### The cut of an entry's or a record's instance, on the view -/

/-- The view `W` differs from `V` in its entries, and in the owners of service `i`'s instances. -/
structure View.OwnersAt (V W : View) (i : Nat) : Prop where
  laneOf : W.laneOf = V.laneOf
  pool : W.pool = V.pool
  cur : ∀ j, j ≠ i → W.cur j = V.cur j
  nxt : ∀ j, j ≠ i → W.nxt j = V.nxt j
  waits : W.waits = V.waits

/-- Service `i`'s instances are taken from whom they play for, and given back as in another view. -/
theorem View.OwnersAt.eq (h : V.OwnersAt W i) (he : W.entries = V.entries) (ha : W.alert = V.alert) :
    W = (V.setCur i (W.cur i)).setNxt i (W.nxt i) := by
  refine View.ext_of he (fun _ => congrFun ha _) (fun _ => congrFun h.laneOf _) (fun _ => congrFun h.pool _) (fun j => ?_) (fun j => ?_)
    fun _ => congrFun h.waits _
  · refine Eq.trans ?_ (View.setCur_cur V i (W.cur i) j).symm
    split
    · next hj => rw [hj]
    · next hj => exact h.cur j hj
  · refine Eq.trans ?_ (View.setNxt_nxt (V.setCur i (W.cur i)) i (W.nxt i) j).symm
    split
    · next hj => rw [hj]
    · next hj => exact h.nxt j hj

/-- Nobody's instances on a service. -/
def View.bare (V : View) (i : Nat) : View := (V.setCur i none).setNxt i none

theorem View.bare_fewer (V : View) (i : Nat) : V.Fewer (V.bare i) := by
  refine ⟨rfl, rfl, rfl, rfl, fun j => ?_, fun j => ?_, fun _ => .inl rfl⟩
  · rw [show (V.bare i).cur j = _ from View.setCur_cur V i none j]
    split
    · exact .inr nofun
    · exact .inl rfl
  · rw [show (V.bare i).nxt j = _ from View.setNxt_nxt (V.setCur i none) i none j]
    split
    · exact .inr nofun
    · exact .inl rfl

theorem View.bare_cur (V : View) (i : Nat) : (V.bare i).cur i = none := (View.setCur_cur V i none i).trans (if_pos rfl)
theorem View.bare_nxt (V : View) (i : Nat) : (V.bare i).nxt i = none := (View.setNxt_nxt (V.setCur i none) i none i).trans (if_pos rfl)

/-- An ACTIVE entry owns nothing once its service's instances are nobody's. -/
theorem Laws.unowned_bare (h : Laws V) (hs : V.stands n i .active) : (V.bare i).Unowned n := by
  have hf := V.bare_fewer i
  obtain ⟨e, he, hi, hst⟩ := hs
  have hsvc {j : Nat} {st : EntryState} (p : V.stands n j st) : i = j ∧ .active = st := hi ▸ hst ▸ p.entry he
  refine ⟨fun j hc => ?_, fun j b hc => ?_, fun j hc => ?_⟩
  · rw [← (hsvc (h.current j n (hf.cur_entry hc))).1, View.bare_cur] at hc
    cases hc
  · rcases h.next j n b (hf.nxt_entry hc) with p | ⟨p, -⟩
    · rw [← (hsvc p).1, View.bare_nxt] at hc
      cases hc
    · exact nomatch (hsvc p).2
  · exact nomatch (hsvc (h.waits j n (hf.waits_entry hc)).1).2

/-- The entries without an ACTIVE one. -/
def View.without (V : View) : Option Nat → View
  | some m => V.set m none
  | none => V

theorem View.OwnersAt.of_without {lower : Option Nat} (h : (V.without lower).OwnersAt W i) :
    ((V.bare i).without lower).OwnersAt W i := by
  have hc (j : Nat) (hj : j ≠ i) : (V.bare i).cur j = V.cur j := (View.setCur_cur V i none j).trans (if_neg hj)
  have hn (j : Nat) (hj : j ≠ i) : (V.bare i).nxt j = V.nxt j := (View.setNxt_nxt (V.setCur i none) i none j).trans (if_neg hj)
  cases lower with
  | none => exact ⟨h.laneOf, h.pool, fun j hj => (h.cur j hj).trans (hc j hj).symm, fun j hj => (h.nxt j hj).trans (hn j hj).symm, h.waits⟩
  | some m => exact ⟨h.laneOf, h.pool, fun j hj => (h.cur j hj).trans (hc j hj).symm, fun j hj => (h.nxt j hj).trans (hn j hj).symm, h.waits⟩

/-- The service's ACTIVE entry leaves, and no instance is anyone's: nothing is ACTIVE on the service. -/
theorem Laws.without (h : Laws V) {lower : Option Nat} (hl : ∀ m, lower = some m ↔ V.stands m i .active) :
    Laws ((V.bare i).without lower) ∧ (∀ m, ¬((V.bare i).without lower).stands m i .active)
    ∧ ∀ m st, st ≠ .active → (((V.bare i).without lower).stands m i st ↔ V.stands m i st) := by
  have hb := (V.bare_fewer i).laws h
  have hst {m i : Nat} {st : EntryState} : (V.bare i).stands m i st ↔ V.stands m i st := (V.bare_fewer _).stands
  cases lower with
  | none => exact ⟨hb, fun m hm => (nomatch (hl m).2 (hst.1 hm)), fun m st _ => hst⟩
  | some l =>
    have hself : V.stands l i .active := (hl l).1 rfl
    refine ⟨hb.release (h.unowned_bare hself) none (fun _ hx => nomatch hx), fun m hm => ?_, fun m st hne => ?_⟩
    · by_cases hml : m = l
      · obtain ⟨e, he, -⟩ := hm
        rw [View.without, View.entry_set, if_pos hml] at he
        cases he
      · exact hml (Option.some.inj ((hl m).2 (hst.1 ((View.stands_set_ne hml).1 hm)))).symm
    · by_cases hml : m = l
      · subst hml
        constructor
        · rintro ⟨e, he, -⟩
          rw [View.without, View.entry_set, if_pos rfl] at he
          cases he
        · intro hm
          obtain ⟨e, he, hi, ha⟩ := hself
          exact absurd ((hm.entry he).2.symm.trans ha) hne
      · exact (View.stands_set_ne hml).trans hst

/-- An ARMED entry's instance cuts in: it is ACTIVE, a lower ACTIVE entry is gone, and the service's instances are its own or no
entry's (R69). -/
theorem Laws.cutEntry (h : Laws V) (hn : V.nxt i = some (.entry n, true)) (he : V.entry n = some e) (hi : e.svc = i) (hst : e.st = .armed)
    {lower : Option Nat} (hl : ∀ m, lower = some m ↔ V.stands m i .active) (hx : x.num = e.num ∧ x.svc = e.svc ∧ x.st = .active)
    (hc : x.commitment = e.commitment) (hw : (V.without lower).OwnersAt W i) (hent : W.entries = ((V.without lower).set n (some x)).entries)
    (ha : W.alert = V.alert) (hcur : ∀ m, W.cur i = some (.entry m) → m = n) (hnxt : ∀ m b, W.nxt i = some (.entry m, b) → m = n ∧ b = false) :
    Laws W := by
  obtain ⟨h1, hfree, hsame⟩ := h.without hl
  have hself : V.stands n i .armed := ⟨e, he, hi, hst⟩
  obtain ⟨e', he', hi', hst'⟩ := (hsame n .armed nofun).2 hself
  have heq : e' = e := by
    have hne : lower ≠ some n := fun hx => nomatch hst.symm.trans (((hl n).1 hx).entry he).2
    cases lower with
    | none => exact Option.some.inj (he'.symm.trans he)
    | some l =>
      rw [View.without, View.entry_set, if_neg fun hx => hne (congrArg some hx.symm)] at he'
      exact Option.some.inj (he'.symm.trans he)
  subst heq
  have hwaits (j : Nat) : ((V.bare i).without lower).waits j ≠ some (.entry n) := by
    intro hq
    have hq' : V.waits j = some (.entry n) := by
      cases lower <;> exact hq
    obtain ⟨p, q⟩ := h.waits j n hq'
    rw [← (p.entry he).1, hi] at q
    exact q hn
  have h2 := h1.activate he' hst' hx.1 hx.2.1 hx.2.2 hc (fun m hm => hfree m (hi ▸ hm)) hwaits
  have hact : (((V.bare i).without lower).set n (some x)).stands n i .active := View.stands_set_self.2 ⟨hx.2.1.trans hi, hx.2.2⟩
  have hb := hw.of_without
  have hat : (((V.bare i).without lower).set n (some x)).OwnersAt W i := ⟨hb.laneOf, hb.pool, hb.cur, hb.nxt, hb.waits⟩
  rw [hat.eq (by cases lower <;> exact hent) (by cases lower <;> exact ha)]
  refine Laws.setNxt (h2.setCur i _ fun m hm => hcur m hm ▸ hact) i _ fun m b hm => ?_
  obtain ⟨rfl, rfl⟩ := hnxt m b hm
  exact ⟨.inl hact, nofun⟩

/-- A record's instance cuts in: the service's ACTIVE entry is gone, and the service's instances are no entry's (R64). -/
theorem Laws.cutAlert (h : Laws V) {lower : Option Nat} (hl : ∀ m, lower = some m ↔ V.stands m i .active) (r : Nat)
    (hw : (V.without lower).OwnersAt W i) (hent : W.entries = (V.without lower).entries) {f : Target → Target}
    (hv : ∀ x, (f x).svc = x.svc) (hs : ∀ x, (f x).status = x.status)
    (ha : W.alert = (V.setAlert r ((V.alert r).modTarget i f)).alert)
    (hcur : ∀ m, W.cur i ≠ some (.entry m)) (hnxt : ∀ m b, W.nxt i ≠ some (.entry m, b)) : Laws W := by
  obtain ⟨h1, hfree, -⟩ := h.without hl
  have hal : ((V.bare i).without lower).alert = V.alert := by cases lower <;> rfl
  have h2 : Laws (((V.bare i).without lower).setAlert r ((V.alert r).modTarget i f)) := by
    rw [← hal]
    refine h1.setAlert r _ (fun hr n j hh => ?_) (fun hr hst x hx hh hc n => ?_) fun hr => ?_
    · obtain ⟨hst, x, hx, hxj, hxs⟩ := AlertRec.holds_iff.1 hh
      obtain ⟨y, hy, rfl⟩ := AlertRec.mem_modTarget hx
      refine h1.held r n j hr (AlertRec.holds_iff.2 ⟨hst, y, hy, ?_⟩)
      split at hxj
      · next hyi =>
        rw [if_pos hyi] at hxs
        exact ⟨(hv y).symm.trans hxj, (hs y).symm.trans hxs⟩
      · next hyi =>
        rw [if_neg hyi] at hxs
        exact ⟨hxj, hxs⟩
    · obtain ⟨y, hy, rfl⟩ := AlertRec.mem_modTarget hx
      split
      · next hyi =>
        rw [hv, hyi]
        exact hfree n
      · next hyi =>
        rw [if_neg hyi] at hh hc
        exact h1.cut r n y hr hst hy hh hc
    · rw [AlertRec.modTarget_svcs _ i hv]
      exact h1.targets r hr
  have hb := hw.of_without
  have hat : (((V.bare i).without lower).setAlert r ((V.alert r).modTarget i f)).OwnersAt W i :=
    ⟨hb.laneOf, hb.pool, hb.cur, hb.nxt, hb.waits⟩
  rw [hat.eq (by cases lower <;> exact hent) (by rw [ha]; simp only [View.setAlert, hal])]
  exact Laws.setNxt (h2.setCur i _ fun m hm => absurd hm (hcur m)) i _ fun m b hm => absurd hm (hnxt m b)

end Sys2Proof.Machine
end

section
/-! The laws of the schedule under the report of a cut (R64, R69, R79, R94). -/

namespace Sys2Proof.Machine

variable {s t u : State} {i j k n m r : Nat} {e x l : Entry} {V W : View} {o : Owner}

/-- From `s` to `u` an instance of `o` in the next role of service `i` has cut in: it is no longer SEEKING, and what played before
is ENDING. -/
structure CutIn (s : State) (i : Nat) (o : Owner) (u : State) : Prop where
  entries : u.entries = s.entries
  others : s.view.OwnersAt u.view i
  asked : s.view.nxt i = some (o, true)
  kept : u.view.cur i = s.view.cur i ∨ u.view.cur i = some o
  ending : ∀ c, (u.sp i).cur = some c → c.phase = .ending ∨ c.owner = o
  nxt : ∀ p b, u.view.nxt i = some (p, b) → p = o ∧ b = false

/-- The number of a service's ACTIVE entry. -/
def activeNum (s : State) (i : Nat) : Option Nat := (activeEntry s i).map (·.num)

theorem Lawful.activeNum_iff (h : Lawful s) : activeNum s i = some m ↔ s.view.stands m i .active := by
  constructor
  · intro hm
    obtain ⟨l, hl, rfl⟩ := Option.map_eq_some_iff.1 hm
    obtain ⟨hl1, hl2, hl3⟩ := h.activeEntry_stands hl
    exact ⟨l, hl1, hl2, hl3⟩
  · intro hs
    obtain ⟨l, hl, hn, -⟩ := h.activeEntry_of_stands hs
    rw [activeNum, hl, Option.map_some, hn]

/-- The service's ACTIVE entry ends PREEMPTED, and its ENDING instance plays on for no owner (R69, R100). -/
def preempted (s : State) (i : Nat) : State :=
  match activeEntry s i with
  | some l => (endEntry s l .preempted).modSp i SpliceRec.disown
  | none => s

theorem view_disown (s : State) (i : Nat) : (s.modSp i SpliceRec.disown).view = s.view.setCur i ((s.sp i).disown.cur.map (·.owner)) := by
  have hn : (s.sp i).disown.nxt.map Inst.asks = s.view.nxt i := rfl
  have hw : (s.sp i).disown.waiting.map (·.owner) = s.view.waits i := rfl
  have h1 : (s.view.setCur i ((s.sp i).disown.cur.map (·.owner))).setNxt i (s.view.nxt i)
      = s.view.setCur i ((s.sp i).disown.cur.map (·.owner)) := View.setNxt_self _ _
  have h2 : (s.view.setCur i ((s.sp i).disown.cur.map (·.owner))).setWaits i (s.view.waits i)
      = s.view.setCur i ((s.sp i).disown.cur.map (·.owner)) := View.setWaits_self _ _
  rw [view_modSp, SpliceRec.owners, hn, hw, h1, h2]

theorem endEntry_sp_of_active (hst : l.st = .active) (p : EntryResult) (j : Nat) : (endEntry s l p).sp j = s.sp j :=
  congrArg Service.sp (endEntry_svc_idle p (by rw [hst]; exact nofun) j)

namespace CutIn

/-- What plays for an entry after the cut is its own. -/
theorem disowned (h : CutIn s i o u) (hm : (u.sp i).disown.cur.map (·.owner) = some (.entry m)) : o = .entry m := by
  obtain ⟨c, hc, ho⟩ := Option.map_eq_some_iff.1 hm
  obtain ⟨d, hd, rfl⟩ := Option.map_eq_some_iff.1 hc
  rcases h.ending d hd with hp | hp
  · rw [if_pos hp] at ho
    cases ho
  · split at ho
    · cases ho
    · exact hp.symm.trans ho

theorem preempted_spec (h : CutIn s i o u) (hs : Lawful s) : (s.view.without (activeNum s i)).OwnersAt (preempted u i).view i
    ∧ (preempted u i).view.entries = (s.view.without (activeNum s i)).entries ∧ (preempted u i).view.alert = u.view.alert
    ∧ (∀ m, (preempted u i).view.cur i = some (.entry m) → o = .entry m) ∧ (preempted u i).view.nxt i = u.view.nxt i := by
  have ha : activeEntry u i = activeEntry s i := by rw [activeEntry, entriesOf, State.schedule, h.entries]; rfl
  have hv : u.view.entries = s.view.entries := h.entries
  obtain ⟨hl, hp, hc, hn, hw⟩ := h.others
  unfold preempted activeNum
  rw [ha]
  cases hact : activeEntry s i with
  | none =>
    refine ⟨⟨hl, hp, hc, hn, hw⟩, hv, rfl, fun m hm => ?_, rfl⟩
    rcases h.kept with hk | hk
    · exact absurd (hs.current i m (hk.symm.trans hm)) (hs.not_active_of_none hact m)
    · exact Option.some.inj (hk.symm.trans hm)
  | some l =>
    obtain ⟨-, -, hst⟩ := hs.activeEntry_stands hact
    have hsp : (endEntry u l .preempted).sp i = u.sp i := endEntry_sp_of_active hst _ i
    have hview : ((endEntry u l .preempted).modSp i SpliceRec.disown).view
        = (u.view.set l.num none).setCur i ((u.sp i).disown.cur.map (·.owner)) := by
      rw [view_disown, hsp, endEntry_view _ (by rw [hst]; exact nofun)]
    dsimp only
    rw [hview]
    refine ⟨⟨hl, hp, fun j hj => ?_, hn, hw⟩, ?_, rfl, fun m hm => ?_, rfl⟩
    · exact (View.setCur_cur _ i _ j).trans ((if_neg hj).trans (hc j hj))
    · exact congrArg (fun E => Table.set none E l.num none) hv
    · exact h.disowned ((((View.setCur_cur _ i _ i).trans (if_pos rfl)).symm).trans hm)

/-- The cut is lawful as it stands, but for an ARMED entry's. -/
theorem lawful (h : CutIn s i o u) (hs : Lawful s) (ha : u.alerts = s.alerts) (ho : ∀ n, o = .entry n → s.view.stands n i .active) :
    Lawful u := by
  have hal : u.view.alert = s.view.alert := congrArg (fun A r => Table.get AlertRec.idle A r) ha
  unfold Lawful
  rw [h.others.eq h.entries hal]
  refine Laws.setNxt (Laws.setCur hs i _ fun m hm => ?_) i _ fun m b hm => ?_
  · rcases h.kept with hk | hk
    · exact hs.current i m (hk.symm.trans hm)
    · exact ho m (Option.some.inj (hk.symm.trans hm))
  · obtain ⟨rfl, rfl⟩ := h.nxt _ _ hm
    exact ⟨.inl (ho m rfl), nofun⟩

theorem activate (h : CutIn s i (.entry n) u) (hs : Lawful s) (ha : u.alerts = s.alerts) (he : s.entry n = some e) (hi : e.svc = i)
    (hst : e.st = .armed) (sEff delta : Nat) (v : Seal) : Lawful (activate u n sEff delta v) := by
  have hal : u.view.alert = s.view.alert := congrArg (fun A r => Table.get AlertRec.idle A r) ha
  have hue : u.entry n = some e := (congrArg (fun E => Table.get none E n) h.entries).trans he
  obtain ⟨hat, hent, hal', hcur, hnxt⟩ := h.preempted_spec hs
  have hact (x : Entry) (hx : x.num = e.num ∧ x.svc = e.svc ∧ x.st = .active) (hc : x.commitment = e.commitment) :
      Lawful (((preempted u i).modSp i SpliceRec.clearReturn).setEntry n (some x)) := by
    unfold Lawful
    rw [view_setEntry, view_modSp_same (s := preempted u i) (i := i) (f := SpliceRec.clearReturn) rfl]
    refine Laws.cutEntry hs h.asked he hi hst (fun m => hs.activeNum_iff) hx hc ⟨hat.laneOf, hat.pool, hat.cur, hat.nxt, hat.waits⟩ ?_
      (hal'.trans hal) (fun m hm => ?_) fun m b hm => ?_
    · exact congrArg (fun E => Table.set none E n (some x)) hent
    · exact (Owner.entry.inj (hcur m hm)).symm
    · obtain ⟨ho, hb⟩ := h.nxt _ _ (hnxt.symm.trans hm)
      exact ⟨Owner.entry.inj ho, hb⟩
  subst hi
  unfold Machine.activate
  split
  · next hnone => cases hue.symm.trans hnone
  · next e' he' =>
    cases hue.symm.trans he'
    extract_lets i one lower s1 s2 s3 s4
    have h1 : s1 = preempted u e.svc := by
      unfold s1 lower preempted
      cases activeEntry u i <;> exact rfl
    have h3 : Lawful s3 := by
      unfold s3 s2
      rw [h1]
      exact hact _ ⟨rfl, rfl, rfl⟩ rfl
    have h4 : Lawful s4 := by
      unfold s4
      split
      · exact h3.setE _ _
      · split
        · exact h3.setE _ _
        · exact h3
      · split
        · split
          · exact h3.setE _ _
          · exact h3
        · exact h3
    split
    · exact h4.poolFreed _
    · exact h4

theorem alertCut (h : CutIn s i (.alert r) u) (hs : Lawful s) (ha : u.alerts = s.alerts) : Lawful (alertCut u r i) := by
  have hu : Lawful u := h.lawful hs ha fun _ hx => nomatch hx
  have hal : u.alert = s.alert := congrArg (fun A r => Table.get AlertRec.idle A r) ha
  unfold Machine.alertCut
  split
  · next t ht =>
    split
    · exact hu
    · extract_lets s1 s2
      have hsame : s2.view = s1.view := view_modSp_same rfl
      have hs1 : s1.view = u.view.setAlert r ((u.alert r).modTarget i (fun t => { t with cut := true })) := view_setAlert u r _
      have hsp : (s2.sp i).cur = (u.sp i).cur := by
        rw [State.sp_modSp, if_pos rfl]
        exact (rfl : (s1.sp i).cur = (u.sp i).cur)
      have h2 : CutIn s i (.alert r) s2 := by
        have hv := hsame.trans hs1
        refine ⟨h.entries, ?_, h.asked, ?_, fun c hc => h.ending c (hsp.symm.trans hc), fun p b hp => h.nxt p b ?_⟩
        · rw [hv]
          exact ⟨h.others.laneOf, h.others.pool, h.others.cur, h.others.nxt, h.others.waits⟩
        · rw [hv]
          exact h.kept
        · rw [hv] at hp
          exact hp
      obtain ⟨hat, hent, hal', hcur, hnxt⟩ := h2.preempted_spec hs
      have hw : Lawful (preempted s2 i) := by
        refine Laws.cutAlert hs (fun m => hs.activeNum_iff) r hat hent (f := fun t => { t with cut := true }) (fun _ => rfl) (fun _ => rfl) ?_
          (fun m hm => nomatch hcur m hm) fun m b hm => ?_
        · rw [hal', hsame, hs1]
          have hva : u.view.alert = s.view.alert := hal
          simp only [View.setAlert, hva, hal]
          rfl
        · exact nomatch (h2.nxt _ _ (hnxt.symm.trans hm)).1
      have hact : activeEntry s2 i = activeEntry u i := rfl
      unfold preempted at hw
      rw [hact] at hw
      split
      · next l hl =>
        rw [hl] at hw
        exact hw.poolFreed _
      · next hl =>
        rw [hl] at hw
        exact hw
  · exact hu

/-- The report of a cut keeps the laws (R79, R94). -/
theorem reportCut (h : CutIn s i o u) (hs : Lawful s) (ha : u.alerts = s.alerts) (sEff delta : Nat) (v : Seal) :
    Lawful (reportCut u i o sEff delta v) := by
  cases o with
  | ended => exact h.lawful hs ha fun _ hx => nomatch hx
  | alert r => exact h.alertCut hs ha
  | entry n =>
    obtain ⟨e, he, hi, hst⟩ : ∃ e, s.entry n = some e ∧ e.svc = i ∧ (e.st = .active ∨ e.st = .armed) := by
      rcases hs.next i n true h.asked with ⟨e, he, hi, hst⟩ | ⟨⟨e, he, hi, hst⟩, -⟩
      · exact ⟨e, he, hi, .inl hst⟩
      · exact ⟨e, he, hi, .inr hst⟩
    have hue : u.entry n = some e := (congrArg (fun E => Table.get none E n) h.entries).trans he
    unfold Machine.reportCut
    dsimp only
    rw [hue]
    dsimp only
    split
    · next ha' =>
      refine (h.lawful hs ha fun m hm => ?_).podAdvance n delta v
      cases hm
      exact ⟨e, he, hi, ha'⟩
    · next hna => exact h.activate hs ha he hi (hst.resolve_left hna) sEff delta v

end CutIn

end Sys2Proof.Machine
end

section
/-! The laws of the schedule under what happens to a splice: cuts, the begin and the end of a return, emergency returns, damaged clips. -/

namespace Sys2Proof.Machine

variable {s t u : State} {i j k n m r : Nat} {e x l : Entry} {V W : View} {o : Owner} {c : Inst}

/-! ### A splice record whose owners stay, leave or become ACTIVE -/

/-- A splice record changes: its instances' owners are lawful, its waiting request is as before. -/
theorem Lawful.modSp_of (h : Lawful s) (i : Nat) {f : SpliceRec → SpliceRec}
    (hc : ∀ n, (f (s.sp i)).cur.map (·.owner) = some (.entry n) → s.view.stands n i .active)
    (hn : ∀ n b, (f (s.sp i)).nxt.map Inst.asks = some (.entry n, b) →
      (s.view.stands n i .active ∨ s.view.stands n i .armed ∧ b = true) ∧ (b = true → s.view.waits i ≠ some (.entry n)))
    (hw : (f (s.sp i)).waiting.map (·.owner) = (s.sp i).waiting.map (·.owner)) : Lawful (s.modSp i f) := by
  have hv := view_modSp s i f
  have hsame : (f (s.sp i)).owners.2.2 = ((s.view.setCur i (f (s.sp i)).owners.1).setNxt i (f (s.sp i)).owners.2.1).waits i := hw
  rw [hsame, View.setWaits_self] at hv
  unfold Lawful
  rw [hv]
  exact (Laws.setCur h i _ hc).setNxt i _ hn

/-- A splice record changes, and its instances and its request play for whom they did. -/
theorem Lawful.modSp_owners (h : Lawful s) (i : Nat) {f : SpliceRec → SpliceRec}
    (hc : (f (s.sp i)).cur.map (·.owner) = (s.sp i).cur.map (·.owner)) (hn : (f (s.sp i)).nxt.map Inst.asks = (s.sp i).nxt.map Inst.asks)
    (hw : (f (s.sp i)).waiting.map (·.owner) = (s.sp i).waiting.map (·.owner)) : Lawful (s.modSp i f) :=
  h.modSp_same i (by rw [SpliceRec.owners, SpliceRec.owners, hc, hn, hw])

theorem map_asks {f : Inst → Inst} (hf : ∀ n, (f n).asks = n.asks) (p : Option Inst) : (p.map f).map Inst.asks = p.map Inst.asks := by
  cases p with
  | none => rfl
  | some n => exact congrArg some (hf n)

theorem map_owner {f : Inst → Inst} (hf : ∀ n, (f n).owner = n.owner) (p : Option Inst) :
    (p.map f).map (·.owner) = p.map (·.owner) := by
  cases p with
  | none => rfl
  | some n => exact congrArg some (hf n)

theorem Inst.asks_congr {n n' : Inst} (ho : n'.owner = n.owner) (hp : n'.phase = n.phase) : n'.asks = n.asks := by
  rw [Inst.asks, Inst.asks, ho, hp]

theorem Inst.stopMapped_asks (n : Inst) (f : Nat → Bool) :
    (if n.phase = .seeking then n else n.stopMapped f).asks = n.asks := by
  split
  · rfl
  · next hp =>
    refine (Inst.asks_of_not_seeking ?_).trans (Inst.asks_of_not_seeking hp).symm
    unfold Inst.stopMapped
    dsimp only
    split
    · exact hp
    · exact nofun

/-! ### Cuts -/

theorem view_fewer_of_eq (h : t.view = s.view) : s.view.Fewer t.view := h ▸ View.Fewer.refl _

/-- A cut, as an update of the splice record: the SEEKING instance `c` plays, and what played before is ENDING. -/
theorem CutIn.of_modSp {f : SpliceRec → SpliceRec} (hn : (s.sp i).nxt = some c) (hp : c.phase = .seeking)
    (hc : (f (s.sp i)).cur.map (·.owner) = (s.sp i).cur.map (·.owner) ∨ (f (s.sp i)).cur.map (·.owner) = some c.owner)
    (he : ∀ d, (f (s.sp i)).cur = some d → d.phase = .ending ∨ d.owner = c.owner)
    (hx : ∀ d, (f (s.sp i)).nxt = some d → d.owner = c.owner ∧ d.phase ≠ .seeking)
    (hw : (f (s.sp i)).waiting = (s.sp i).waiting) : CutIn s i c.owner (s.modSp i f) := by
  have hv := view_modSp s i f
  have hsp : (s.modSp i f).sp i = f (s.sp i) := by rw [State.sp_modSp, if_pos rfl]
  have hcur : (s.modSp i f).view.cur i = (f (s.sp i)).cur.map (·.owner) := view_cur_of (congrArg SpliceRec.cur hsp)
  have hnxt : (s.modSp i f).view.nxt i = (f (s.sp i)).nxt.map Inst.asks := view_nxt_of (congrArg SpliceRec.nxt hsp)
  refine ⟨rfl, ⟨?_, ?_, fun j hj => ?_, fun j hj => ?_, ?_⟩, ?_, ?_, fun d hd => he d (by rw [← hsp]; exact hd), fun p b hpb => ?_⟩
  · rw [hv]
    rfl
  · rw [hv]
    rfl
  · rw [hv]
    exact (View.setCur_cur s.view i _ j).trans (if_neg hj)
  · rw [hv]
    exact (View.setNxt_nxt (s.view.setCur i _) i _ j).trans (if_neg hj)
  · funext j
    rw [hv, View.setWaits_waits]
    split
    · next hj =>
      rw [hj]
      exact congrArg (Option.map (·.owner)) hw
    · rfl
  · rw [view_nxt_of hn, Option.map_some, Inst.asks_of_seeking hp]
  · rw [hcur]
    exact hc
  · obtain ⟨d, hd, ha⟩ := Option.map_eq_some_iff.1 (hnxt.symm.trans hpb)
    obtain ⟨ho, hs⟩ := hx d hd
    rw [Inst.asks_of_not_seeking hs, ho] at ha
    exact ⟨(congrArg Prod.fst ha).symm, (congrArg Prod.snd ha).symm⟩

/-- What the laws do not read changes after a cut. -/
theorem CutIn.after (h : CutIn s i o u) (hv : t.view = u.view) (he : t.entries = u.entries) (hs : (t.sp i).cur = (u.sp i).cur) :
    CutIn s i o t where
  entries := he.trans h.entries
  others := hv ▸ h.others
  asked := h.asked
  kept := hv ▸ h.kept
  ending c hc := h.ending c (hs ▸ hc)
  nxt := hv ▸ h.nxt

theorem handOverComp_cases (s : State) (i c : Nat) : handOverComp s i c = s ∨ ∃ k q e, handOverComp s i c = s.setLane k ((s.lane k).setPid q e) := by
  unfold handOverComp
  split
  · exact .inr ⟨_, _, _, rfl⟩
  · exact .inl rfl

theorem view_handOverComp (s : State) (i c : Nat) : (handOverComp s i c).view = s.view := by
  rcases handOverComp_cases s i c with e | ⟨k, q, e, h⟩
  · rw [e]
  · rw [h]
    exact view_setLane rfl

theorem handOverComp_same (s : State) (i c : Nat) : (handOverComp s i c).entries = s.entries ∧ (handOverComp s i c).alerts = s.alerts
    ∧ ((handOverComp s i c).sp i).cur = (s.sp i).cur := by
  rcases handOverComp_cases s i c with e | ⟨k, q, e, h⟩
  · rw [e]
    exact ⟨rfl, rfl, rfl⟩
  · rw [h]
    exact ⟨rfl, rfl, rfl⟩

namespace Lawful

theorem clipCut (h : Lawful s) (hn : (s.sp i).nxt = some c) (hp : c.phase = .seeking) (ci sEff w : Nat) :
    Lawful (clipCut s i ci c sEff w) := by
  unfold Machine.clipCut
  dsimp only
  refine CutIn.reportCut (s := s) (.of_modSp hn hp (.inl (map_owner (f := fun o => o.stop ci) (fun _ => rfl) _))
    (fun d hd => ?_) (fun d hd => ?_) rfl) h rfl _ _ _
  · obtain ⟨b, -, rfl⟩ := Option.map_eq_some_iff.1 hd
    exact .inl rfl
  · cases hd
    exact ⟨rfl, nofun⟩

theorem exhaustCut (h : Lawful s) (hn : (s.sp i).nxt = some c) (hp : c.phase = .seeking) (d : Inst) : Lawful (exhaustCut s i d c) := by
  unfold Machine.exhaustCut
  extract_lets fr w sEff s1
  have hw : w.view = s.view ∧ w.alerts = s.alerts ∧ (w.sp i).nxt = (s.sp i).nxt := by
    unfold w
    split
    · exact ⟨rfl, rfl, rfl⟩
    · exact ⟨rfl, rfl, rfl⟩
  refine CutIn.reportCut (s := w) (.of_modSp (hw.2.2.trans hn) hp (.inl (map_owner
    (f := fun o => { o with stopped := o.stopped.map (fun _ => true), phase := .ending }) (fun _ => rfl) _)) (fun d hd => ?_) (fun d hd => ?_) rfl)
    (h.of_view hw.1) rfl _ _ _
  · obtain ⟨b, -, rfl⟩ := Option.map_eq_some_iff.1 hd
    exact .inl rfl
  · cases hd
    exact ⟨rfl, nofun⟩

theorem networkCut (h : Lawful s) (hn : (s.sp i).nxt = some c) (hp : c.phase = .seeking) (j sEff : Nat) :
    Lawful (networkCut s i j c sEff) := by
  unfold Machine.networkCut
  extract_lets v delta d w clk pace n' s1 s2
  have h1 : CutIn s i c.owner s1 := .of_modSp hn hp (.inr rfl) (fun d hd => .inr (by cases hd; rfl)) (fun d hd => nomatch hd) rfl
  obtain ⟨he, ha, hs⟩ := handOverComp_same s2 i j
  exact ((h1.after (t := s2) rfl rfl rfl).after (view_handOverComp s2 i j) he hs).reportCut h ha _ _ _

theorem componentCut (h : Lawful s) (i c : Nat) : Lawful (componentCut s i c) := by
  unfold Machine.componentCut
  refine of_view ?_ (view_handOverComp _ i c)
  exact h.modSp_same i rfl

/-! ### Returns -/

theorem beginReturn_fewer (s : State) (i : Nat) : s.view.Fewer (beginReturn s i).view := by
  unfold Machine.beginReturn
  split
  · exact .refl _
  · extract_lets s1
    have h1 : s.view.Fewer s1.view := by
      unfold s1
      split
      · exact discardSeeking_fewer s i _
      · exact .refl _
    refine h1.trans (view_fewer_of_eq (view_modSp_same ?_))
    dsimp only [SpliceRec.owners]
    rw [map_owner (f := fun n => n.stopMapped _) (fun _ => rfl), map_asks (f := fun n => if n.phase = .seeking then n else n.stopMapped _)
      fun n => n.stopMapped_asks _]

theorem beginReturn (h : Lawful s) (i : Nat) : Lawful (beginReturn s i) := h.fewer (beginReturn_fewer s i)

theorem resumeComp (h : Lawful s) (i c : Nat) : Lawful (resumeComp s i c) := (h.beginReturn i).modSp_same i rfl

/-- The owner whose insertion plays is an entry: the ACTIVE one. -/
theorem playingOwner_entry (h : playingOwner s i = some (.entry n)) : ∃ e, activeEntry s i = some e ∧ e.num = n := by
  have hentry (hx : (activeEntry s i).map (fun e => Owner.entry e.num) = some (.entry n)) : ∃ e, activeEntry s i = some e ∧ e.num = n := by
    obtain ⟨e, he, ho⟩ := Option.map_eq_some_iff.1 hx
    exact ⟨e, he, Owner.entry.inj ho⟩
  unfold playingOwner at h
  dsimp only at h
  split at h
  · split at h
    · split at h
      · cases h
      · exact hentry h
    · exact hentry h
  · exact hentry h

/-- The ACTIVE entry's insertion plays. -/
theorem playingOwner_of_active (h : Lawful s) (hs : s.view.stands n i .active) : playingOwner s i = some (.entry n) := by
  obtain ⟨e, he, hn, -⟩ := h.activeEntry_of_stands hs
  have hentry : (activeEntry s i).map (fun e => Owner.entry e.num) = some (.entry n) := by rw [he, Option.map_some, hn]
  unfold playingOwner
  dsimp only
  split
  · next r hr =>
    split
    · next t ht =>
      split
      · next hc =>
        have hr4 : r < 4 := List.mem_range.1 (List.mem_of_find?_eq_some hr)
        have hholds : (s.alert r).holds i = true := List.find?_some (p := fun r => (s.alert r).holds i) hr
        obtain ⟨hst, y, hy, hyi, hyh⟩ := AlertRec.holds_iff.1 hholds
        have htm : t ∈ (s.alert r).targets := List.mem_of_find?_eq_some ht
        have hti : t.svc = i := by simpa using List.find?_some ht
        have hty : t = y := List.inj_on_of_nodup_map (h.targets r hr4) htm hy (hti.trans hyi.symm)
        refine absurd hs ?_
        rw [← hti]
        exact h.cut r n t hr4 hst htm (hty ▸ hyh) hc
      · exact hentry
    · exact hentry
  · exact hentry

theorem finishReturn (h : Lawful s) (hd : returnDone s i = true) : Lawful (finishReturn s i) := by
  unfold Machine.finishReturn
  extract_lets p emergency point s0 s1
  have h0 : s.view.Fewer s0.view := by
    unfold s0
    split
    · exact discardRole_fewer s i .current
    · exact .refl _
  have h1 : s0.view.Fewer s1.view := modSp_fewer s0 i (.inr nofun) (.inl rfl) (.inl rfl)
  have hf := h0.trans h1
  have hcur : s1.view.cur i = none := by
    have hsp : (s1.sp i).cur = none := by
      rw [State.sp_modSp, if_pos rfl]
      exact rfl
    rw [view_cur_of hsp]
    rfl
  split
  · next n hn =>
    obtain ⟨e, he, hen⟩ := playingOwner_entry hn
    obtain ⟨hen', hei, hest⟩ := h.activeEntry_stands he
    have hs : s.view.entry n = some e := hen ▸ hen'
    split
    · next x hx =>
      have hxe : some x = some e := hx.symm.trans ((hf.entry n).trans hs)
      cases hxe
      have hsvc {j : Nat} {st : EntryState} (q : s.view.stands n j st) : i = j ∧ .active = st := hei ▸ hest ▸ q.entry hs
      refine (h.fewer hf).returnEnded hx ⟨fun j hc => ?_, fun j b hc => ?_, fun j hc => ?_⟩ _ _
      · rw [← (hsvc (h.current j n (hf.cur_entry hc))).1, hcur] at hc
        cases hc
      · rcases h.next j n b (hf.nxt_entry hc) with q | ⟨q, -⟩
        · have hj := (hsvc q).1
          subst hj
          obtain ⟨y, hy, ha⟩ := Option.map_eq_some_iff.1 (hf.nxt_entry hc)
          unfold returnDone at hd
          dsimp only at hd
          rw [hy, hn] at hd
          have hl := (Bool.and_eq_true_iff.1 hd).2
          have ho : y.owner = .entry n := congrArg Prod.fst ha
          simp [ho] at hl
        · exact nomatch (hsvc q).2
      · exact nomatch (hsvc (h.waits j n (hf.waits_entry hc)).1).2
    · exact h.fewer hf
  · exact (h.fewer hf).depart _ i _
  · exact h.fewer hf

theorem startEmergency (h : Lawful s) (i : Nat) (o : Owner) : Lawful (startEmergency s i o) := by
  unfold Machine.startEmergency
  extract_lets s1 s2
  have h1 : Lawful s1 := h.discardRole i .current
  have h2 : Lawful s2 := by
    unfold s2
    split
    · split
      · exact h1
      · exact h1.discardRole i .next
    · exact h1
  refine h2.fewer (modSp_fewer s2 i (.inl rfl) (.inl rfl) ?_)
  dsimp only [SpliceRec.owners]
  split
  · exact .inr nofun
  · exact .inl rfl

theorem instanceFault (h : Lawful s) (i : Nat) (r : Role) (c : Inst) : Lawful (instanceFault s i r c) := by
  have hd : Lawful (Machine.discardRole s i r) := h.discardRole i r
  unfold Machine.instanceFault
  split
  · exact h
  · next hin =>
    obtain ⟨y, hy, hyo⟩ := Option.map_eq_some_iff.1 (Classical.not_not.1 hin)
    split
    · exact h.startEmergency i c.owner
    · next hnp =>
      split
      · exact hd
      · next n ho =>
        split
        · next x hx =>
          refine hd.endAndRelease (n := n) hx (fun ha => absurd ?_ hnp) _
          have howner : y.owner = .entry n := (congrArg Prod.fst hyo).trans ho
          have hown : ∃ st, s.view.stands n i st := by
            cases r with
            | current => exact ⟨_, h.current i n (by rw [view_cur_of hy, Option.map_some, howner])⟩
            | next =>
              rcases h.next i n _ (by rw [view_nxt_of hy, Option.map_some, Inst.asks, howner]) with q | ⟨q, -⟩
              · exact ⟨_, q⟩
              · exact ⟨_, q⟩
          obtain ⟨st, hst⟩ := hown
          have hact : s.view.stands n i .active := ⟨x, hx, (hst.entry hx).1, ha⟩
          rw [ho, playingOwner_of_active h hact]
        · exact hd
      · exact hd.depart _ i false

theorem faultArmed (h : Lawful s) (c : Nat) : Lawful (faultArmed s c) := by
  refine foldl (fun n ht => ?_) _ h
  split
  · next e he =>
    split
    · next ha => exact ht.endAndRelease he (fun hb => nomatch ha.symm.trans hb) _
    · exact ht
  · exact ht

theorem markDamaged (h : Lawful s) (c : Nat) : Lawful (markDamaged s c) := by
  unfold Machine.markDamaged
  split
  · split
    · extract_lets s1 s2
      have h2 : Lawful s2 := h
      exact h2.faultArmed c
    · exact h
  · exact h

end Lawful

end Sys2Proof.Machine
end

section
/-! The laws of the schedule under the emission head and the engine's acts, till the engine is at rest (R76, R77, R84 to R86, R91). -/

namespace Sys2Proof.Machine

variable {s t u : State} {i j k n m r : Nat} {e x l : Entry} {V W : View} {o : Owner} {c : Inst} {b : Pkt}

namespace Lawful

/-! ### The emission head -/

theorem stopCur (h : Lawful s) (i c : Nat) : Lawful (stopCur s i c) :=
  h.modSp_owners i (map_owner (f := fun n => n.stop c) (fun _ => rfl) _) rfl rfl

theorem clipCutOf_next {pts : Option Nat} {d : Nat} {x : Inst × Nat × Bool} (h : clipCutOf s i c d pts = some x) :
    (s.sp i).nxt = some x.1 ∧ x.1.phase = .seeking := by
  unfold clipCutOf at h
  split at h
  · next nx hnx =>
    split at h
    · next hc =>
      obtain ⟨r, -, rfl⟩ := Option.map_eq_some_iff.1 h
      exact ⟨hnx, hc.1⟩
    · cases h
  · cases h

theorem examineCur (h : Lawful s) {due : Nat} (hu : examineCur s i c b due = some u) : Lawful u := by
  unfold Machine.examineCur at hu
  split at hu
  · cases hu
    exact h
  · next ci _ =>
    extract_lets pts at hu
    split at hu
    · cases hu
      exact h
    · split at hu
      · cases hu
        exact (h.beginReturn i).stopCur i ci
      · split at hu
        · next nx sEff forced hcut =>
          cases hu
          obtain ⟨hn, hp⟩ := clipCutOf_next hcut
          exact (h.raiseIf forced i .forced).clipCut (by rw [raiseIf_sp]; exact hn) hp _ _ _
        · split at hu
          · cases hu
            exact (h.raiseIf _ i .forced).stopCur i ci
          · split at hu
            · cases hu
              exact h
            · cases hu

/-- An instance that has cut stops in the next role: it is no longer SEEKING, as before. -/
theorem stopNext (h : Lawful s) (i d : Nat) (hn : ∀ n, s.view.nxt i ≠ some (.entry n, true)) :
    Lawful (s.modSp i (fun p => { p with nxt := p.nxt.map (·.stop d) })) := by
  refine h.modSp_of i (fun n hc => h.current i n hc) (fun n b hx => ?_) rfl
  obtain ⟨y, hy, ha⟩ := Option.map_eq_some_iff.1 hx
  obtain ⟨z, hz, rfl⟩ := Option.map_eq_some_iff.1 hy
  have hb : b = false := (congrArg Prod.snd ha).symm.trans rfl
  have ho : z.owner = .entry n := congrArg Prod.fst ha
  subst hb
  have hv : s.view.nxt i = some (.entry n, z.phase == .seeking) := by rw [view_nxt_of hz, Option.map_some, Inst.asks, ho]
  refine ⟨?_, nofun⟩
  rcases h.next i n _ hv with q | ⟨-, q⟩
  · exact .inl q
  · exact absurd (q ▸ hv) (hn n)

theorem examineNext (h : Lawful s) (hn : ∀ n, s.view.nxt i ≠ some (.entry n, true)) (hu : examineNext s i c b = some u) : Lawful u := by
  unfold Machine.examineNext at hu
  split at hu
  · cases hu
    exact h
  · split at hu
    · cases hu
      exact h
    · split at hu
      · cases hu
        exact (h.beginReturn i).stopNext i _ fun n hx => hn n ((beginReturn_fewer s i).nxt_entry hx)
      · split at hu
        · cases hu
          exact h
        · cases hu

theorem placeHead (h : Lawful s) (i : Nat) (r : Role) (c : Inst) (b : Pkt) (due : Nat) : Lawful (placeHead s i r c b due) := by
  unfold Machine.placeHead
  split
  · exact h
  · split
    · split
      · exact h.raise _ _
      · exact h.modSp_same i rfl
    · exact h

theorem exhaust (h : Lawful s) (i : Nat) : Lawful (exhaust s i) := by
  unfold Machine.exhaust
  split
  · next hn =>
    split
    · next hc => exact h.exhaustCut hn hc.2.1 _
    · exact h
  · exact h

theorem repeatEnd (h : Lawful s) (i : Nat) : Lawful (repeatEnd s i) := by
  unfold Machine.repeatEnd
  split
  · split
    · split
      · exact h.handClipEnd _ _ _
      · exact h
    · exact h
  · exact h

/-- An instance advances in its role. -/
theorem setInst (h : Lawful s) (i : Nat) (r : Role) {d d' : Inst} (hd : (s.sp i).inst r = some d) (ho : d'.owner = d.owner)
    (hp : d'.phase = d.phase) : Lawful (s.modSp i (fun p => p.setInst r (some d'))) := by
  cases r with
  | current =>
    have hd : (s.sp i).cur = some d := hd
    exact h.modSp_owners i (by rw [hd]; exact congrArg some ho) rfl rfl
  | next =>
    have hd : (s.sp i).nxt = some d := hd
    exact h.modSp_owners i rfl (by rw [hd]; exact congrArg some (Inst.asks_congr ho hp)) rfl

theorem takePacket (h : Lawful s) (r : Role) (hc : (s.sp i).inst r = some c) (hp : r = .next → c.phase ≠ .seeking) (b : Pkt) :
    Lawful (takePacket s i r c b) := by
  unfold Machine.takePacket
  extract_lets due wrapped adv n w
  have h1 : Lawful (s.modSp i (fun p => p.setInst r (some n))) := h.setInst i r hc rfl rfl
  have hw : Lawful w := h1.raiseIf _ _ _
  split
  · refine exhaust (repeatEnd ?_ i) i
    split
    · next hu => exact hw.examineCur hu
    · exact hw.placeHead _ _ _ _ _
  · split
    · next hu =>
      refine hw.examineNext (fun m hx => ?_) hu
      have hwn : (w.sp i).nxt = some n := by
        unfold w
        rw [raiseIf_sp, State.sp_modSp, if_pos rfl]
        exact rfl
      rw [view_nxt_of hwn, Option.map_some, Inst.asks_of_not_seeking (n := n) (hp rfl)] at hx
      exact Bool.false_ne_true (congrArg Prod.snd (Option.some.inj hx))
    · exact hw.placeHead _ _ _ _ _

theorem offerCur_inst {x : Inst × Pkt} (h : offerCur (s.sp i) = some x) : (s.sp i).inst .current = some x.1 := by
  obtain ⟨d, hd, hx⟩ := Option.bind_eq_some_iff.1 h
  obtain ⟨q, -, rfl⟩ := Option.map_eq_some_iff.1 hx
  exact hd

theorem offerNext_inst {x : Inst × Pkt} (h : offerNext (s.sp i) = some x) : (s.sp i).inst .next = some x.1 ∧ x.1.phase ≠ .seeking := by
  unfold offerNext at h
  split at h
  · next d hd =>
    split at h
    · next hp =>
      obtain ⟨q, -, hx⟩ := Option.bind_eq_some_iff.1 h
      split at hx
      · cases hx
      · cases hx
        exact ⟨hd, hp⟩
    · cases h
  · cases h

theorem fillHead (h : Lawful s) (hu : fillHead s i = some u) : Lawful u := by
  unfold Machine.fillHead at hu
  extract_lets p at hu
  have hcur {d : Inst} {q : Pkt} (hx : offerCur (s.sp i) = some (d, q)) : Lawful (Machine.takePacket s i .current d q) :=
    h.takePacket .current (offerCur_inst hx) nofun _
  have hnxt {d : Inst} {q : Pkt} (hx : offerNext (s.sp i) = some (d, q)) : Lawful (Machine.takePacket s i .next d q) :=
    h.takePacket .next (offerNext_inst hx).1 (fun _ => (offerNext_inst hx).2) _
  split at hu
  · cases hu
  · split at hu
    · next ho _ => exact Option.some.inj hu ▸ hcur ho
    · next _ ho => exact Option.some.inj hu ▸ hnxt ho
    · next hc hn =>
      split at hu
      · exact Option.some.inj hu ▸ hnxt hn
      · exact Option.some.inj hu ▸ hcur hc
    · cases hu

theorem choose (h : Lawful s) (hu : choose s i = some u) : Lawful u := by
  unfold Machine.choose at hu
  split at hu
  · cases hu
  · split at hu
    · cases hu
    · next q _ =>
      split at hu
      · next g _ =>
        cases hu
        cases hq : q.role with
        | current => exact h.modSp_owners i (map_owner (f := fun n => n.place g) (fun _ => rfl) (s.sp i).cur) rfl rfl
        | next => exact h.modSp_owners i rfl (map_asks (f := fun n => n.place g) (fun _ => rfl) (s.sp i).nxt) rfl
      · cases hu
        exact h.modSp_same i rfl

/-! ### The engine's acts -/

theorem serveWaiting (h : Lawful s) (hu : serveWaiting s i = some u) : Lawful u := by
  unfold Machine.serveWaiting at hu
  split at hu
  · next q hq hn =>
    cases hu
    have h1 : s.view.Fewer (s.modSp i (fun p => { p with waiting := none })).view := modSp_fewer s i (.inl rfl) (.inl rfl) (.inr nofun)
    refine (h.fewer h1).placeInst i q fun n ho => ⟨.inr (h1.stands.2 (h.waits i n ?_).1), ?_⟩
    · rw [view_waits_of hq, Option.map_some, ho]
    · rw [view_waits_of (x := none) (by rw [State.sp_modSp, if_pos rfl])]
      exact nofun
  · cases hu

/-- A request of the ACTIVE entry, or of a record, into a free role. -/
theorem requestFree (h : Lawful s) (hfree : (s.sp i).nextFree = true) (q : InstReq)
    (ho : ∀ n, q.owner = .entry n → s.view.stands n i .active) : Lawful (Machine.requestNext s i q) := by
  obtain ⟨hn, hw⟩ := Bool.and_eq_true_iff.1 hfree
  have hn := view_nxt_of (Option.isNone_iff_eq_none.1 hn)
  have hw := view_waits_of (Option.isNone_iff_eq_none.1 hw)
  exact h.requestNext i q fun n hx => ⟨by rw [hw]; exact nofun, .inr ⟨ho n hx, hn⟩⟩

theorem podStep (h : Lawful s) (ho : c.owner = .entry n) (hs : s.view.stands n i .active) (hu : podStep s i c e = some u) : Lawful u := by
  unfold Machine.podStep at hu
  extract_lets p delta at hu
  split at hu
  · split at hu
    · next hc =>
      split at hu
      · cases hu
        exact h.startEmergency _ _
      · split at hu
        · cases hu
          refine h.requestFree hc.1 _ fun m hm => ?_
          cases ho.symm.trans hm
          exact hs
        · cases hu
    · cases hu
  · split at hu
    · cases hu
      exact h.podEnd _ _ _
    · cases hu

theorem loopStep (h : Lawful s) (ho : c.owner = .alert r) (hu : loopStep s i c r = some u) : Lawful u := by
  unfold Machine.loopStep at hu
  extract_lets p at hu
  split at hu
  · cases hu
  · split at hu
    · split at hu
      · cases hu
        exact h.handClipEnd _ _ _
      · cases hu
    · split at hu
      · cases hu
        exact h.requestAlert i _ ho
      · cases hu

theorem ownerStep (h : Lawful s) (hs : ∀ n e, c.owner = .entry n → s.entry n = some e → e.st = .active → e.svc = i)
    (hu : ownerStep s i c = some u) : Lawful u := by
  unfold Machine.ownerStep at hu
  split at hu
  · next n ho =>
    split at hu
    · next e he =>
      split at hu
      · next ha => exact h.podStep ho ⟨e, he, hs n e ho he ha, ha⟩ hu
      · cases hu
    · cases hu
  · next r ho => exact h.loopStep ho hu
  · cases hu

/-- An ACTIVE entry whose instance plays on a service is the service's own. -/
theorem owner_svc (h : Lawful s) (hc : (s.sp i).cur = some c ∨ (s.sp i).nxt = some c) (ho : c.owner = .entry n) (he : s.entry n = some e) :
    e.svc = i := by
  rcases hc with hc | hc
  · exact ((h.current i n (by rw [view_cur_of hc, Option.map_some, ho])).entry he).1
  · rcases h.next i n _ (by rw [view_nxt_of hc, Option.map_some, Inst.asks, ho]) with q | ⟨q, -⟩
    · exact (q.entry he).1
    · exact (q.entry he).1

theorem clipEndStep (h : Lawful s) (hu : clipEndStep s i = some u) : Lawful u := by
  unfold Machine.clipEndStep at hu
  extract_lets p at hu
  split at hu
  · next hc hn =>
    split at hu
    · exact h.ownerStep (fun n e ho he _ => h.owner_svc (.inr hn) ho he) hu
    · split at hu
      · exact h.ownerStep (fun n e ho he _ => h.owner_svc (.inl hc) ho he) hu
      · cases hu
  · next hc hn => exact h.ownerStep (fun n e ho he _ => h.owner_svc (.inl hc) ho he) hu
  · cases hu

theorem lateExhaust (h : Lawful s) (hu : lateExhaust s i = some u) : Lawful u := by
  unfold Machine.lateExhaust at hu
  split at hu
  · next hn =>
    split at hu
    · next hc =>
      cases hu
      exact h.exhaustCut hn hc.2.1 _
    · cases hu
  · cases hu

theorem finishOrPromote (h : Lawful s) (hu : finishOrPromote s i = some u) : Lawful u := by
  unfold Machine.finishOrPromote at hu
  extract_lets p at hu
  split at hu
  · split at hu
    · cases hu
      exact h.discardRole _ _
    · split at hu
      · cases hu
        exact h.discardRole _ _
      · cases hu
  · split at hu
    · next c hc =>
      split at hu
      · next hp =>
        cases hu
        have hpc : (s.sp i).nxt = some c := hc
        have hm : Lawful (s.modSp i SpliceRec.toCurrent) := by
          refine h.modSp_of i (fun n hx => ?_) nofun rfl
          have ho : c.owner = .entry n := by
            have hcur : (s.sp i).nxt.map (·.owner) = some (.entry n) := hx
            rw [hpc] at hcur
            exact Option.some.inj hcur
          have hv : s.view.nxt i = some (.entry n, false) := by
            rw [view_nxt_of hpc, Option.map_some, Inst.asks_of_not_seeking hp, ho]
          exact (h.next i n false hv).elim id fun q => nomatch q.2
        exact hm
      · cases hu
    · cases hu

theorem svcStep (h : Lawful s) (hu : svcStep s i = some u) : Lawful u := by
  unfold Machine.svcStep at hu
  simp only [Option.or_eq_some_iff] at hu
  rcases hu with hu | ⟨-, hu | ⟨-, hu | ⟨-, hu | ⟨-, hu | ⟨-, hu | ⟨-, hu⟩⟩⟩⟩⟩⟩
  · exact h.serveWaiting hu
  · exact h.clipEndStep hu
  · exact h.lateExhaust hu
  · exact h.finishOrPromote hu
  · split at hu
    · next hd =>
      cases hu
      exact h.finishReturn hd
    · cases hu
  · exact h.fillHead hu
  · exact h.choose hu

theorem anyStep (h : Lawful s) {l : List Nat} (hu : anyStep s l = some u) : Lawful u := by
  induction l with
  | nil => cases hu
  | cons i r ih =>
    unfold Machine.anyStep at hu
    split at hu
    · next hs =>
      cases hu
      exact h.svcStep hs
    · exact ih hu

theorem settleLoop (h : Lawful s) (f : Nat) : Lawful (settleLoop f s) := by
  induction f generalizing s with
  | zero => exact h
  | succ f ih =>
    unfold Machine.settleLoop
    split
    · next hu => exact ih (h.anyStep hu)
    · exact h

theorem settle (h : Lawful s) : Lawful (settle s) := h.settleLoop _

end Lawful

end Sys2Proof.Machine
end

section
/-! The laws of the schedule under the flash channel's acts, and of the part at rest. -/

namespace Sys2Proof.Machine

variable {s t u : State} {i j k n m r : Nat} {e x l : Entry} {o : FlashOp} {p : PortId}

namespace Lawful

/-! ### Registers that the laws do not read -/

theorem congr (h : Lawful s) (hl : t.lanes = s.lanes) (hs : t.services = s.services) (he : t.entries = s.entries)
    (ha : t.alerts = s.alerts) : Lawful t := h.of_view (view_congr hl hs he ha)

theorem fresh (h : Lawful s) : Lawful s.fresh.2 := h
theorem push (h : Lawful s) (p : PortId) (v : Event) : Lawful (s.push p v) := h
theorem pushAll (h : Lawful s) (v : Event) : Lawful (s.pushAll v) := ((h.push _ v).push _ v).push _ v
theorem setClip (h : Lawful s) (c : Nat) (r : Option ClipRec) : Lawful (s.setClip c r) := h
theorem addRef (h : Lawful s) (c : Nat) : Lawful (s.addRef c) := h
theorem dropRef (h : Lawful s) (c : Nat) : Lawful (s.dropRef c) := h
theorem setIngest (h : Lawful s) (p : PortId) (g : Ingest) : Lawful (s.setIngest p g) := h
theorem setPreload (h : Lawful s) (j : Nat) (q : Preload) : Lawful (s.setPreload j q) := h
theorem setCheck (h : Lawful s) (p : PortId) (c : Option Check) : Lawful (s.setCheck p c) := h
theorem setLink (h : Lawful s) (p : PortId) (l : Link) : Lawful (s.setLink p l) := h
theorem setBox (h : Lawful s) (p : PortId) (b : Box) : Lawful (s.setBox p b) := h
theorem withFlash (h : Lawful s) (f : Flash) : Lawful (s.withFlash f) := h
theorem modFlash (h : Lawful s) (f : Flash → Flash) : Lawful (s.modFlash f) := h
theorem answer (h : Lawful s) (p : PortId) (st : Status) (b : List Byte) : Lawful (answer s p st b) := h
theorem removeClip (h : Lawful s) (r : ClipRec) (b : List Nat) (j : Option Nat) : Lawful (s.removeClip r b j) := h

/-! ### Ingest units, markers and protection -/

theorem clearIngest (h : Lawful s) (p : PortId) : Lawful (clearIngest s p) := h

theorem endIngest (h : Lawful s) (p : PortId) (b : Option Nat) : Lawful (endIngest s p b) := by
  unfold Machine.endIngest
  split
  · exact (h.removeClip _ _ _).clearIngest p
  · exact h.clearIngest p

theorem ingestFailed (h : Lawful s) (p : PortId) (b : Nat) (bad : Bool) : Lawful (ingestFailed s p b bad) := by
  unfold Machine.ingestFailed
  extract_lets g s2 fr s3
  have h2 : Lawful s2 := by
    unfold s2
    split
    · exact (h.modFlash _).endIngest p _
    · exact h.endIngest p _
  have h3 : Lawful s3 := h2.fresh.push p _
  split
  · exact h
  · exact h2.answer p _ _
  · split
    · exact h3.answer p _ _
    · exact h3

theorem retestHeld (h : Lawful s) (p : PortId) : Lawful (retestHeld s p) := by
  unfold Machine.retestHeld
  extract_lets g
  split
  · split
    · exact (h.setIngest p _).answer p _ _
    · exact h
  · exact h

theorem sealDone (h : Lawful s) (p : PortId) (v : Seal) : Lawful (sealDone s p v) := by
  unfold Machine.sealDone
  extract_lets g
  split
  · exact (((h.setClip _ _).modFlash _).push p _).clearIngest p
  · exact h

theorem ingestPassed (h : Lawful s) (p : PortId) (k : ProgKind) : Lawful (ingestPassed s p k) := by
  unfold Machine.ingestPassed
  extract_lets g
  split
  · exact h
  · exact (h.endIngest p none).answer p _ _
  · split
    · exact h.sealDone p _
    · exact (h.setIngest p _).retestHeld p

theorem markerDone (h : Lawful s) (o : FlashOp) (r : OpEnd) : Lawful (markerDone s o r) := by
  unfold Machine.markerDone
  split
  · split
    · exact h.setClip _ _
    · exact h
  · exact h

theorem protectionDone (h : Lawful s) (a b : Bool) (r : OpEnd) : Lawful (protectionDone s a b r) :=
  (h.modFlash _).fresh.push .ap _

theorem programEnded (h : Lawful s) (o : FlashOp) (k : ProgKind) (r : OpEnd) (b : Bool) : Lawful (programEnded s o k r b) := by
  unfold Machine.programEnded
  extract_lets w
  have hw : Lawful w := by
    unfold w
    split
    · split
      · exact h.modFlash _
      · exact h
    · exact h
  split
  · exact hw
  · split
    · split
      · exact hw.ingestPassed _ _
      · exact hw.ingestFailed _ _ _
      · exact hw.ingestFailed _ _ _
    · exact hw.markerDone _ _
    · exact hw.protectionDone _ _ _
    · exact hw

/-! ### The arbiter -/

theorem consumeRequest (h : Lawful s) (q : Requester) : Lawful (consumeRequest s q) := by
  unfold Machine.consumeRequest
  split
  · exact h.modSp_same _ rfl
  · exact h.modFlash _
  · exact h.modFlash _
  · exact h

theorem grant (h : Lawful s) (c j : Nat) (o : FlashOp) : Lawful (grant s c j o).1 := by
  unfold Machine.grant
  extract_lets s1
  have h1 : Lawful s1 := (h.consumeRequest o.req).modFlash _
  split
  · split
    · exact h1.modFlash _
    · exact h1.programEnded _ _ _ _
  · exact h1.modFlash _

theorem arbLoop (h : Lawful s) (k : Option Nat) (f : Nat) : Lawful (arbLoop k f s) := by
  induction f generalizing s with
  | zero => exact h
  | succ f ih =>
    unfold Machine.arbLoop
    split
    · exact h
    · split
      · exact h
      · dsimp only
        split
        · exact ih (h.grant _ _ _).settle
        · exact h.grant _ _ _

theorem rest (h : Lawful s) : Lawful (rest s) := h.settle.arbLoop _ _

theorem restAfter (h : Lawful s) (o : FlashOp) : Lawful (restAfter o s) := by
  unfold Machine.restAfter
  split
  · exact (h.settle.arbLoop _ _).arbLoop _ _
  · exact h.rest

/-! ### Erases -/

theorem checkRelease (h : Lawful s) : Lawful (checkRelease s) := by
  unfold Machine.checkRelease
  split
  · split
    · split
      · exact (h.modFlash _).push .ap _
      · exact h
    · exact h
  · exact h

theorem jobBlock (h : Lawful s) (job : Option Nat) (b : Bool) : Lawful (jobBlock s job b) := by
  unfold Machine.jobBlock
  split
  · exact h
  · extract_lets upd f jobs s1
    split
    · exact h.withFlash _
    · split
      · exact (h.withFlash _).push _ _
      · exact h.withFlash _

theorem eraseEnded (h : Lawful s) (r : Region) (b : Nat) (e : OpEnd) : Lawful (eraseEnded s r b e) := by
  unfold Machine.eraseEnded
  extract_lets f job f1
  split
  · exact h
  · exact ((h.withFlash _).jobBlock job true).checkRelease
  · exact ((h.withFlash _).jobBlock job false).checkRelease

theorem block0Ended (h : Lawful s) (e : OpEnd) : Lawful (block0Ended s e) := by
  unfold Machine.block0Ended
  split
  · exact h
  · exact (h.modFlash _).checkRelease
  · exact (h.modFlash _).checkRelease

theorem erased (h : Lawful s) (o : FlashOp) (e : OpEnd) : Lawful (erased s o e) := by
  unfold Machine.erased
  split
  · exact h.eraseEnded _ _ _
  · exact h.block0Ended _
  · exact h

theorem opOver (h : Lawful s) : Lawful (opOver s) := h.modFlash _

theorem supplyAbort (h : Lawful s) : Lawful (supplyAbort s) := by
  unfold Machine.supplyAbort
  split
  · split
    · exact h
    · exact h.opOver.programEnded _ _ _ _
    · exact h.opOver.erased _ _
  · exact h

/-! ### Reads -/

theorem scanComplete (h : Lawful s) : Lawful (scanComplete s) := by
  refine pushAll (foldl (fun r hr => hr.setClip _ _) _ ?_) _
  exact h.congr rfl rfl rfl rfl

theorem scanRead (h : Lawful s) (b : Nat) (r : ReadOutcome) (m : Byte) : Lawful (scanRead s b r m) := by
  have hf : Lawful (if b = 0 ∧ r = .uncorrectable then s.fresh.2 else s) := by
    split
    · exact h.fresh
    · exact h
  unfold Machine.scanRead
  extract_lets f d f1 w
  split
  · exact (hf.withFlash f1).scanComplete
  · exact hf.withFlash f1

theorem clearPreload (h : Lawful s) (j : Nat) : Lawful (clearPreload s j) := by
  unfold Machine.clearPreload
  extract_lets q s1
  have h1 : Lawful s1 := (h.setPreload j _).modFlash _
  split
  · exact h1
  · exact h1.dropRef _

theorem preloadDone (h : Lawful s) (o : FlashOp) (j : Nat) (r : ReadOutcome) : Lawful (preloadDone s o j r) := by
  unfold Machine.preloadDone
  extract_lets q
  split
  · split
    · extract_lets pages fr
      split
      · exact (h.setPreload j _).fresh.push .ap _
      · exact h.setPreload j _
    · exact ((h.markDamaged _).clearPreload j).push .ap _
  · exact h

theorem checksumDone (h : Lawful s) (o : FlashOp) (p : PortId) (r : ReadOutcome) : Lawful (checksumDone s o p r) := by
  unfold Machine.checksumDone
  split
  · exact h
  · split
    · split
      · extract_lets sum fr
        split
        · exact ((h.setCheck p _).dropRef _).fresh.push p _
        · exact h.setCheck p _
      · exact (((h.markDamaged _).setCheck p _).dropRef _).fresh.push p _
    · exact h

theorem readAheadDone (h : Lawful s) (o : FlashOp) (i : Nat) (role : Role) (r : ReadOutcome) : Lawful (readAheadDone s o i role r) := by
  unfold Machine.readAheadDone
  split
  · next n hn =>
    split
    · exact h.setInst i role hn rfl rfl
    · exact ((h.raise i .lost).markDamaged _).instanceFault i role n
  · exact h

theorem readEnded (h : Lawful s) (o : FlashOp) (r : ReadOutcome) (m : Byte) : Lawful (readEnded s o r m) := by
  unfold Machine.readEnded
  split
  · unfold orphanRead
    split
    · split
      · exact h.markDamaged _
      · exact h
    · exact h
  · split
    · exact h.readAheadDone _ _ _ _
    · exact h.preloadDone _ _ _
    · exact h.checksumDone _ _ _
    · exact h.scanRead _ _ _
    · exact h

end Lawful

end Sys2Proof.Machine
end

section
/-! The laws of the schedule under the rows of the stream, of time, of the pins and of the flash channel. -/

namespace Sys2Proof.Machine

variable {s t u : State} {i j k n m r : Nat} {e x l : Entry} {o : FlashOp} {p : PortId} {b : Pkt}

namespace Lawful

theorem setLane_same (h : Lawful s) (k : Nat) {l : Lane} (hp : l.cfg = (s.lane k).cfg) : Lawful (s.setLane k l) :=
  h.setLane k (by rw [hp])

theorem modSvc_same (h : Lawful s) (i : Nat) {f : Service → Service} (hd : (f (s.svc i)).defn = (s.svc i).defn)
    (hs : (f (s.svc i)).sp.owners = (s.sp i).owners) : Lawful (s.modSvc i f) := h.of_view (view_modSvc (by rw [hd]) hs)

theorem advanceTo (h : Lawful s) (x : Nat) : Lawful (advanceTo s x) := by
  unfold Machine.advanceTo
  split
  · exact h
  · exact h.congr rfl rfl rfl rfl

/-! ### PACKET_ARRIVAL -/

theorem acceptInput (h : Lawful s) (k : Nat) : Lawful (acceptInput s k) := by
  unfold Machine.acceptInput
  extract_lets l s1
  have h1 : Lawful s1 := h.setLane_same k rfl
  split
  · exact h1
  · exact h1.pushAll _

theorem observePcr (h : Lawful s) (i : Nat) (b : Pkt) : Lawful (observePcr s i b) := by
  unfold Machine.observePcr
  split
  · exact h
  · split
    · exact h
    · dsimp only
      have h1 (c : ClockRec) (q : Option Nat) :
          Lawful (s.modSvc i (fun v => { v with clk := c, sp := { v.sp with sigmaP := q } })) := h.modSvc_same i rfl rfl
      split
      · exact (h1 _ _).firstLock i
      · split
        · exact (h1 _ _).fireDue i
        · exact h1 _ _

theorem leadSample (h : Lawful s) (i pts : Nat) : Lawful (leadSample s i pts) := by
  unfold Machine.leadSample
  split
  · exact h
  · extract_lets x old leads s1
    have h1 : Lawful s1 := h.modSvc_same i rfl rfl
    split
    · exact h1.reeval i .clock
    · exact h1

theorem observeComp (h : Lawful s) (i j : Nat) (b : Pkt) : Lawful (observeComp s i j b) := by
  unfold Machine.observeComp
  extract_lets v s1
  have h1 : Lawful s1 := by
    unfold s1
    split
    · exact h.observePcr i b
    · exact h
  split
  · split
    · exact h1.leadSample i _
    · exact h1
  · exact h1

theorem latchSearches (h : Lawful s) (i : Nat) : Lawful (latchSearches s i) := by
  refine h.modSp_owners i rfl ?_ rfl
  dsimp only
  rw [Option.map_map]
  exact congrArg (fun g => Option.map g (s.sp i).nxt) (funext fun n => Inst.asks_congr rfl rfl)

theorem syncTimers (h : Lawful s) (i : Nat) : Lawful (syncTimers s i) := by
  refine h.modSp_owners i rfl (map_asks (f := fun n =>
    if n.phase = .seeking ∧ n.s.isNone then n else { n with seekTimer := syncTimer s i n.seekTimer }) (fun n => ?_) _) rfl
  split
  · rfl
  · exact Inst.asks_congr rfl rfl

theorem observePacket (h : Lawful s) (i j : Nat) (b : Pkt) : Lawful (observePacket s i j b) := by
  unfold Machine.observePacket
  extract_lets s1
  have h1 : Lawful s1 := h.latchSearches i
  split
  · exact h1
  · exact (h1.observeComp i j b).syncTimers i

theorem fixReturn (h : Lawful s) (i pts : Nat) : Lawful (fixReturn s i pts) := by
  unfold Machine.fixReturn
  split
  · exact h.setE _ _
  · exact h.alertE _ _ _
  · exact h

theorem networkCutOf_next {pts : Option Nat} {c : Inst} {y : Nat} {f : Bool} (h : networkCutOf s i pts = some (c, y, f)) :
    (s.sp i).nxt = some c ∧ c.phase = .seeking := by
  unfold networkCutOf at h
  split at h
  · next n hn =>
    split at h
    · next hc =>
      obtain ⟨q, -, hq⟩ := Option.map_eq_some_iff.1 h
      cases hq
      exact ⟨hn, hc.1⟩
    · cases h
  · cases h

theorem decide_ (h : Lawful s) (i j : Nat) (pts : Option Nat) : Lawful (decide_ s i j pts).1 := by
  unfold Machine.decide_
  extract_lets lead w
  have hw : Lawful w := by
    unfold w
    split
    · split
      · exact h.fixReturn i _
      · exact h
    · exact h
  split
  · exact hw
  · split
    · exact (hw.resumeComp i j).modSp_same i rfl
    · split
      · next c y f hcut =>
        split at hcut
        · obtain ⟨hn, hp⟩ := networkCutOf_next hcut
          exact (hw.raiseIf f i .forced).networkCut (by rw [raiseIf_sp]; exact hn) hp j y
        · cases hcut
      · split
        · exact (hw.raiseIf _ i .forced).componentCut i j
        · exact hw

theorem enterFifo (h : Lawful s) (k : Nat) (b : Pkt) (f : Bool) : Lawful (enterFifo s k b f).1 := by
  unfold Machine.enterFifo
  extract_lets l s1
  have h1 : Lawful s1 := h.setLane_same k rfl
  split
  · exact h.setLane_same k rfl
  · dsimp only
    split
    · exact h1
    · exact h1.pushAll _

theorem enterComponent (h : Lawful s) (k i j : Nat) (b : Pkt) : Lawful (enterComponent s k i j b) := by
  unfold Machine.enterComponent
  extract_lets f r
  have hr : Lawful r.1 := h.enterFifo k b f
  split
  · exact hr.modSp_same i rfl
  · exact hr

theorem componentPacket (h : Lawful s) (k i j : Nat) (b : Pkt) : Lawful (componentPacket s k i j b) := by
  unfold Machine.componentPacket
  extract_lets r
  have hr : Lawful r.1 := (h.observePacket i j b).decide_ i j _
  split
  · exact hr.enterComponent k i j b
  · exact hr

/-! ### Cues -/

theorem awaitsTag_pending {tag : Nat} (h : e.awaitsTag tag = true) : e.st = .pending := by
  simpa using (Bool.and_eq_true_iff.1 h).1

theorem modEntry (h : Lawful s) (n : Nat) {f : Entry → Entry} (hf : ∀ e, (f e).num = e.num ∧ (f e).svc = e.svc
    ∧ (f e).origin = e.origin ∧ (f e).st = e.st ∧ (f e).commitment = e.commitment) : Lawful (s.modEntry n f) := by
  unfold State.modEntry
  cases he : s.entry n with
  | some e =>
    obtain ⟨h1, h2, h3, h4, h5⟩ := hf e
    exact h.relabel he h1 h2 h3 h4 h5
  | none =>
    have hno {i : Nat} {st : EntryState} : ¬s.view.stands n i st := fun ⟨e, he', _⟩ => nomatch he.symm.trans he'
    exact Laws.release h (Laws.unowned h (fun _ => hno) fun _ => hno) none fun _ hx => nomatch hx

theorem outCue (h : Lawful s) (i : Nat) (c : CueRec) (f : Byte) : Lawful (outCue s i c f) := by
  unfold Machine.outCue
  split
  · exact h
  · next n tl hl =>
    extract_lets bind s1
    have hin : n ∈ byLevel ((entriesOf s i).filter (fun e => e.awaitsTag c.content.tag)) := hl ▸ List.mem_cons_self
    obtain ⟨e, he, -, hq⟩ := (mem_byLevel_entriesOf h.numbered).1 hin
    have h1 : Lawful s1 := by
      have hm : Lawful (s.modEntry n (fun e => { e with a := c.content.splice, binding := some bind })) :=
        h.modEntry n fun _ => ⟨rfl, rfl, rfl, rfl, rfl⟩
      refine hm.armAndArbitrate (n := n) (e := { e with a := c.content.splice, binding := some bind }) ?_ ?_
      · rw [State.modEntry, he, State.entry_setEntry, if_pos rfl]
        exact rfl
      · exact (awaitsTag_pending hq).symm ▸ EntryState.idle_pending
    refine foldl (fun m hm => ?_) _ h1
    split
    · next y hy =>
      split
      · next ht => exact hm.endEntry_self hy (by rw [awaitsTag_pending ht]; exact nofun) _
      · exact hm
    · exact hm

theorem inCue (h : Lawful s) (i : Nat) (c : CueRec) : Lawful (inCue s i c) := by
  unfold Machine.inCue
  split
  · split
    · split
      · exact h.setE _ _
      · split
        · exact h.setE _ _
        · exact h.awaitLead i false
    · exact h
  · exact h

/-- Entries end one after the other: an ACTIVE one among them owns no instance. -/
theorem endAll (h : Lawful s) (q : EntryResult) {es : List Entry} (hnd : (es.map (·.num)).Nodup) (hst : ∀ e ∈ es, s.entry e.num = some e)
    (hu : ∀ e ∈ es, e.st = .active → s.view.Unowned e.num) : Lawful (s.endAll q es) := by
  induction es generalizing s with
  | nil => exact h
  | cons e es ih =>
    obtain ⟨hne, hnd⟩ := List.nodup_cons.1 hnd
    have he := hst e List.mem_cons_self
    rw [endAll_cons]
    refine ih (h.endEntry he rfl rfl (hu e List.mem_cons_self) q) hnd (fun x hx => ?_) fun x hx ha => ?_
    · rw [endEntry_entry_any, if_neg fun hn => hne (List.mem_map.2 ⟨x, hx, hn⟩)]
      exact hst x (List.mem_cons_of_mem _ hx)
    · have hux := hu x (List.mem_cons_of_mem _ hx) ha
      by_cases hst' : e.st = .armed
      · rw [endEntry_view_armed q hst']
        exact (discardSeeking_fewer s e.svc _).unowned hux
      · rw [endEntry_view q hst']
        exact hux

theorem cancelCue (h : Lawful s) (i : Nat) (c : CueRec) : Lawful (cancelCue s i c) := by
  unfold Machine.cancelCue
  extract_lets es s1
  have hmem {x : Entry} (hx : x ∈ es) : x ∈ entriesOf s i ∧ x.waitsOrArmed = true := by
    obtain ⟨hx, hq⟩ := List.mem_filter.1 hx
    exact ⟨hx, (Bool.and_eq_true_iff.1 hq).2⟩
  have h1 : Lawful s1 := by
    refine h.endAll .cancelled ?_ (fun x hx => (h.numbered.mem_entriesOf.1 (hmem hx).1).1) fun x hx ha => ?_
    · have hnd := h.numbered.nums_ascend
      have hsub : (es.map (·.num)).Sublist (s.schedule.map (·.num)) := (List.filter_sublist.trans List.filter_sublist).map _
      exact hsub.nodup (List.pairwise_map.2 (hnd.imp fun hlt => ne_of_lt hlt))
    · have hw := (hmem hx).2
      unfold Entry.waitsOrArmed at hw
      rw [ha] at hw
      cases hw
  split
  · exact h1.afterEnd i
  · exact h1

theorem cuePacket (h : Lawful s) (i : Nat) (b : Pkt) : Lawful (cuePacket s i b) := by
  unfold Machine.cuePacket
  split
  · split
    · exact h.raise _ _
    · extract_lets q s1
      have h1 : Lawful s1 := h.modSvc_same i rfl rfl
      split
      · split
        · split
          · exact h1
          · exact h1.outCue _ _ _
        · exact h1.inCue _ _
        · exact h1.cancelCue _ _
      · exact h1
  · exact h

theorem cuePidPacket (h : Lawful s) (k i : Nat) (b : Pkt) : Lawful (cuePidPacket s k i b) := by
  unfold Machine.cuePidPacket
  extract_lets s1
  have h1 : Lawful s1 := by
    unfold s1
    split
    · exact h
    · exact h.cuePacket i b
  split
  · split
    · exact h1
    · exact h1.enterFifo k b false
  · exact h1

theorem classifyPacket (h : Lawful s) (k : Nat) (b : Pkt) : Lawful (classifyPacket s k b) := by
  unfold Machine.classifyPacket
  extract_lets q
  split
  · exact h
  · split
    · split
      · exact h.componentPacket _ _ _ _
      · exact h.cuePidPacket _ _ _
    · exact h.enterFifo _ _ _

theorem packetArrival (h : Lawful s) (k : Nat) (b : Pkt) : Lawful (packetArrival s k b) := by
  unfold Machine.packetArrival
  split
  · exact h
  · extract_lets s1
    have h1 : Lawful s1 := h.acceptInput k
    split
    · exact h1.setLane_same k rfl
    · exact (h1.classifyPacket k b).rest

theorem advanceTo_lane (x : Nat) : (Machine.advanceTo s x).lane k = s.lane k := by
  unfold Machine.advanceTo
  split
  · exact rfl
  · exact rfl

theorem inputLost (h : Lawful s) (k : Nat) : Lawful (inputLost s k) := by
  unfold Machine.inputLost
  extract_lets l
  split
  · split
    · exact h
    · refine ((h.advanceTo _).setLane_same k ?_).pushAll _
      rw [advanceTo_lane]
  · exact h

theorem pcrLossTimeout (h : Lawful s) (i : Nat) : Lawful (pcrLossTimeout s i) := by
  unfold Machine.pcrLossTimeout
  split
  · split
    · exact h
    · extract_lets s1
      exact ((h.advanceTo _).modSvc_same i rfl rfl).raise i .hold
  · exact h

/-! ### SLOT -/

theorem dropHead (h : Lawful s) (i : Nat) : Lawful (dropHead s i) := (h.modSp_same i rfl).raise i .drop

theorem lateTests (h : Lawful s) (f k i x : Nat) : Lawful (lateTests f s k i x) := by
  induction f generalizing s with
  | zero => exact h
  | succ f ih =>
    unfold Machine.lateTests
    split
    · split
      · exact ih (h.dropHead i).settle
      · exact h
    · exact h

theorem handBack (h : Lawful s) (k q : Nat) : Lawful (handBack s k q) := by
  unfold Machine.handBack
  split
  · exact h
  · split
    · exact h
    · extract_lets s1
      have h1 : Lawful s1 := h.modSp_same _ rfl
      split
      · split
        · exact h1.dropHead _
        · exact h1
      · exact h1

theorem sendChoice (h : Lawful s) (k : Nat) (c : Choice) : Lawful (sendChoice s k c) := by
  unfold Machine.sendChoice
  split
  · unfold sendNetwork
    extract_lets l
    split
    · exact h
    · extract_lets q pe y s1
      have h1 : Lawful s1 := h.setLane_same k rfl
      split
      · exact h1.handBack k _
      · exact h1
  · unfold sendClip
    split
    · exact h
    · extract_lets l y s1
      have h1 : Lawful s1 := h.setLane_same k rfl
      exact h1.modSp_same _ rfl
  · exact h.setLane_same k rfl

theorem slot (h : Lawful s) (k : Nat) : Lawful (slot s k) := by
  unfold Machine.slot
  split
  · exact h
  · extract_lets x s1 s2 s3
    have h2 : Lawful s2 := foldl (fun i hi => hi.lateTests _ _ _ _) _ (h.advanceTo x)
    have h3 : Lawful s3 := h2.sendChoice k _
    clear_value s3
    exact (h3.setLane_same k (l := (s3.lane k).nextSlot) rfl).rest

/-! ### The rows of passing time -/

theorem timeTrigger (h : Lawful s) (n : Nat) : Lawful (timeTrigger s n) := by
  unfold Machine.timeTrigger
  split
  · exact h
  · next e he =>
    split
    · next hst _ _ =>
      split
      · exact h
      · extract_lets fire
        refine ((h.advanceTo fire).armAndArbitrate (n := n) (e := e) ?_ (hst.symm ▸ EntryState.idle_pending)).rest
        rw [advanceTo_eq]
        exact he
    · exact h

theorem searchOverdue (h : Lawful s) (i : Nat) : Lawful (searchOverdue s i) := by
  unfold Machine.searchOverdue
  split
  · exact h
  · split
    · exact ((h.advanceTo _).latchSearches i).rest
    · exact h

theorem latchReturn (h : Lawful s) (i : Nat) : Lawful (latchReturn s i) := by
  unfold Machine.latchReturn
  extract_lets q
  split
  · exact h
  · exact (h.modSp_same i rfl).raiseIf _ i .forced

theorem seekTimerExpiry (h : Lawful s) (i : Nat) : Lawful (seekTimerExpiry s i) := by
  unfold Machine.seekTimerExpiry
  split
  · exact h
  · split
    · extract_lets s1 q
      have h1 : Lawful s1 := (h.advanceTo _).latchSearches i
      split
      · exact (h1.latchReturn i).rest
      · exact h1.rest
    · exact h

theorem returnOverdue (h : Lawful s) (i : Nat) : Lawful (returnOverdue s i) := by
  unfold Machine.returnOverdue
  extract_lets q
  split
  · split
    · exact h
    · split
      · exact ((h.advanceTo _).latchReturn i).rest
      · exact h
  · exact h

theorem alertExpiry (h : Lawful s) (r : Nat) : Lawful (alertExpiry s r) := by
  unfold Machine.alertExpiry
  extract_lets a
  split
  · next t hst _ =>
    split
    · exact h
    · refine ((h.advanceTo _).endAlert ?_ _ _).rest
      have ha : (Machine.advanceTo s (addMod nClk t a.remTicks)).alert r = s.alert r := by
        rw [advanceTo_eq]
        rfl
      rw [ha]
      exact fun hx => nomatch hst.symm.trans hx
  · exact h

/-! ### The pins, the clock monitor and the flash channel's completions -/

theorem resetnAssert (h : Lawful s) : Lawful (resetnAssert s) :=
  foldl (fun p hp => hp.setLink p _) _ (h.congr rfl rfl rfl rfl)

theorem resetnRelease (s : State) : Lawful (resetnRelease s) := by
  have hr : Lawful State.afterReset := by
    have hno {n i : Nat} {st : EntryState} : ¬State.afterReset.view.stands n i st := fun ⟨_, he, _⟩ => nomatch he
    refine ⟨rfl, fun _ _ he => (nomatch he), fun _ _ he => (nomatch he), fun _ _ _ p => absurd p hno, fun _ _ _ p => absurd p hno,
      fun _ _ _ _ he => (nomatch he), fun _ _ _ _ _ => hno, fun _ _ _ _ _ _ _ _ => hno, fun _ _ => List.nodup_nil,
      fun _ => Nat.zero_le _, nofun, nofun, nofun⟩
  unfold Machine.resetnRelease
  have hrest (u : State) (hu : Lawful u) : Lawful (Machine.rest (if s.lowsupply = true then u.pushAll .supplyAsserted else u)) := by
    split
    · exact (hu.pushAll _).rest
    · exact hu.rest
  exact hrest _ (hr.congr rfl rfl rfl rfl)

theorem lowsupplyAssert (h : Lawful s) : Lawful (lowsupplyAssert s) := by
  unfold Machine.lowsupplyAssert
  split
  · exact h
  · split
    · exact h.congr rfl rfl rfl rfl
    · extract_lets f s1
      have h1 : Lawful s1 := h.congr rfl rfl rfl rfl
      exact (h1.pushAll _).supplyAbort.rest

theorem lowsupplyRelease (h : Lawful s) : Lawful (lowsupplyRelease s) := by
  unfold Machine.lowsupplyRelease
  split
  · exact h
  · split
    · exact h.congr rfl rfl rfl rfl
    · extract_lets f s1
      have h1 : Lawful s1 := h.congr rfl rfl rfl rfl
      exact (h1.pushAll _).rest

theorem holdLocked (h : Lawful s) (l : List Nat) : Lawful (holdLocked l s) := by
  induction l generalizing s with
  | nil => exact h
  | cons i r ih => exact ih (h.raiseIf _ i .hold)

theorem refLost (h : Lawful s) : Lawful (refLost s) := by
  unfold Machine.refLost
  split
  · exact h
  · extract_lets s1
    have h1 : Lawful s1 := h.congr rfl rfl rfl rfl
    exact (h1.pushAll _).holdLocked _

theorem refRestored (h : Lawful s) : Lawful (refRestored s) := by
  unfold Machine.refRestored
  split
  · exact h
  · have h1 : Lawful (edgesCome s) := h.congr rfl rfl rfl rfl
    unfold restored
    split
    · exact pushAll (h1.congr rfl rfl rfl rfl) .refRestored
    · exact h1

theorem restoreCountGap (h : Lawful s) : Lawful (restoreCountGap s) := by
  unfold Machine.restoreCountGap
  split
  · exact h
  · exact h.congr rfl rfl rfl rfl

theorem pageReadComplete (h : Lawful s) (o : ReadOutcome) (m : Byte) : Lawful (pageReadComplete s o m) := by
  unfold Machine.pageReadComplete
  split
  · split
    · exact (h.opOver.readEnded _ _ _).restAfter _
    · exact h
  · exact h

theorem programComplete (h : Lawful s) (b : Bool) : Lawful (programComplete s b) := by
  unfold Machine.programComplete
  split
  · split
    · exact (h.opOver.programEnded _ _ _ _).rest
    · exact h
  · exact h

theorem eraseComplete (h : Lawful s) (b : Bool) : Lawful (eraseComplete s b) := by
  unfold Machine.eraseComplete
  split
  · split
    · exact (h.opOver.eraseEnded _ _ _).rest
    · exact h
  · exact h

theorem block0EraseComplete (h : Lawful s) (b : Bool) : Lawful (block0EraseComplete s b) := by
  unfold Machine.block0EraseComplete
  split
  · split
    · exact (h.opOver.block0Ended _).rest
    · exact h
  · exact h

theorem flashOpTimeout (h : Lawful s) : Lawful (flashOpTimeout s) := by
  unfold Machine.flashOpTimeout
  split
  · next o ho =>
    have ha := h.advanceTo (addMod nClk o.started o.kind.limit)
    refine restAfter ?_ o
    unfold opTimedOut
    split
    · split
      · exact ha.fresh.opOver.readEnded _ _ _
      · exact ha.opOver.readEnded _ _ _
    · exact ha.opOver.programEnded _ _ _ _
    · exact ha.opOver.erased _ _
  · exact h

end Lawful

end Sys2Proof.Machine
end

section
/-! The laws of the schedule where lanes and services are configured and cleared, and entries and records are commanded (R2 to R9,
R50, R74, R112, R175). -/

namespace Sys2Proof.Machine

variable {s t u : State} {i j k n m r : Nat} {e x l : Entry} {p : PortId} {V W : View}

/-! ### New pools and new definitions -/

/-- A lane takes a new pool while nothing is ARMED or ACTIVE on it (R2, R65). -/
theorem Lawful.repool (h : Lawful s) (k : Nat) (l : Lane) (hno : ∀ n e, s.entry n = some e → s.laneOf e.svc = some k → e.st.idle) :
    Lawful (s.setLane k l) := by
  have hp (j : Nat) : (s.setLane k l).view.pool j = if j = k then l.cfg.pool else s.view.pool j := by
    have hj : (s.setLane k l).lane j = if j = k then l else s.lane j := State.lane_setLane s k l j
    change ((s.setLane k l).lane j).cfg.pool = _
    rw [hj]
    split <;> rfl
  have hv : (s.setLane k l).view = { s.view with laneOf := s.view.laneOf, pool := (s.setLane k l).view.pool } := rfl
  unfold Lawful
  rw [hv]
  refine Laws.lanes h s.view.laneOf _ fun j => ?_
  have hc : View.charge { s.view with laneOf := s.view.laneOf, pool := (s.setLane k l).view.pool } j = s.view.charge j := rfl
  rw [hc, hp]
  split
  · next hj =>
    subst hj
    have hz : ((Table.vals s.view.entries).map (s.view.charge j)).sum = 0 := by
      refine List.sum_eq_zero fun x hx => ?_
      obtain ⟨e, he, rfl⟩ := List.mem_map.1 hx
      obtain ⟨n, hn⟩ := (mem_schedule_iff h.table e).1 he
      unfold View.charge
      split
      · next hl =>
        obtain ⟨ha, hb⟩ := hno n e hn hl
        exact h.charged n e hn ha hb
      · rfl
    rw [hz]
    exact Nat.zero_le _
  · exact h.pool j

/-- A service without entries is defined anew, its splice record empty (R8, R9). -/
theorem Lawful.redefine (h : Lawful s) (i : Nat) (v : Service) (hno : ∀ n e, s.entry n = some e → e.svc ≠ i)
    (ho : v.sp.owners = (none, none, none)) : Lawful (s.setSvc i v) := by
  have hsvc (j : Nat) : (s.setSvc i v).svc j = if j = i then v else s.svc j := State.svc_setSvc s i v j
  have hc (j : Nat) : (s.setSvc i v).view.cur j = if j = i then none else s.view.cur j := by
    change ((s.setSvc i v).svc j).sp.cur.map _ = _
    rw [hsvc]
    split
    · exact congrArg (·.1) ho
    · rfl
  have hn (j : Nat) : (s.setSvc i v).view.nxt j = if j = i then none else s.view.nxt j := by
    change ((s.setSvc i v).svc j).sp.nxt.map _ = _
    rw [hsvc]
    split
    · exact congrArg (·.2.1) ho
    · rfl
  have hw (j : Nat) : (s.setSvc i v).view.waits j = if j = i then none else s.view.waits j := by
    change ((s.setSvc i v).svc j).sp.waiting.map _ = _
    rw [hsvc]
    split
    · exact congrArg (·.2.2) ho
    · rfl
  have hf : s.view.Fewer { (s.setSvc i v).view with laneOf := s.view.laneOf } := by
    refine ⟨rfl, rfl, rfl, rfl, fun j => ?_, fun j => ?_, fun j => ?_⟩
    · rw [hc]
      split
      · exact .inr nofun
      · exact .inl rfl
    · rw [hn]
      split
      · exact .inr nofun
      · exact .inl rfl
    · rw [hw]
      split
      · exact .inr nofun
      · exact .inl rfl
  refine Laws.lanes (hf.laws h) (s.setSvc i v).view.laneOf s.view.pool fun k => ?_
  have hsame : (Table.vals s.view.entries).map ((s.setSvc i v).view.charge k) = (Table.vals s.view.entries).map (s.view.charge k) := by
    refine List.map_congr_left fun e he => ?_
    obtain ⟨n, hn⟩ := (mem_schedule_iff h.table e).1 he
    have hl : (s.setSvc i v).view.laneOf e.svc = s.view.laneOf e.svc := by
      change ((s.setSvc i v).svc e.svc).defn.map _ = _
      rw [hsvc, if_neg (hno n e hn)]
      rfl
    rw [View.charge, hl, View.charge]
  exact (congrArg List.sum hsame).trans_le (h.pool k)

theorem mem_servicesOf_of_laneOf (h : s.laneOf i = some k) : i ∈ s.servicesOf k := by
  refine List.mem_filter.2 ⟨?_, by rw [h]; exact beq_self_eq_true _⟩
  have hne : s.svc i ≠ Service.reset := by
    intro e
    rw [State.laneOf, e] at h
    cases h
  exact List.mem_map.2 ⟨_, Table.mem_of_get rfl hne, rfl⟩

theorem Lawful.idle_of_not_engaged (h : Lawful s) (hne : (s.servicesOf k).any (engaged s) = false) (he : s.entry n = some e)
    (hl : s.laneOf e.svc = some k) : e.st.idle := by
  have hmem := mem_servicesOf_of_laneOf hl
  have heng : ¬engaged s e.svc = true := fun hx => Bool.false_ne_true (hne.symm.trans (List.any_eq_true.2 ⟨_, hmem, hx⟩))
  have hnone : armedEntry s e.svc = none ∧ activeEntry s e.svc = none := by
    simp only [engaged, Bool.or_eq_true, not_or, Option.not_isSome_iff_eq_none] at heng
    exact heng.1
  exact ⟨fun ha => h.not_armed_of_none hnone.1 n ⟨e, he, rfl, ha⟩, fun ha => h.not_active_of_none hnone.2 n ⟨e, he, rfl, ha⟩⟩

namespace Lawful

/-! ### Configure Lane -/

theorem unmark (h : Lawful s) (i : Nat) (c : ClockRec) : Lawful (s.modSvc i (fun v => { v.unmark with clk := c })) :=
  h.modSvc_same i rfl rfl

theorem startLane (h : Lawful s) (c : LaneSettings) (hne : (s.servicesOf k).any (engaged s) = false) : Lawful (startLane s k c) := by
  unfold Machine.startLane
  extract_lets l s1 s2
  have h1 : Lawful s1 := h.repool k _ fun n e he hl => h.idle_of_not_engaged hne he hl
  have h2 : Lawful s2 := foldl (fun i hi => hi.unmark i _) _ h1
  exact h2.poolFreed k

theorem adjustLane (h : Lawful s) (c : LaneSettings) (hne : (s.servicesOf k).any (engaged s) = false) : Lawful (adjustLane s k c) := by
  unfold Machine.adjustLane
  extract_lets l base l1 s1
  have h1 : Lawful s1 := (h.repool k l1 fun n e he hl => h.idle_of_not_engaged hne he hl).poolFreed k
  split
  · exact h
  · split
    · exact h1
    · exact foldl (fun i hi => hi.fireDue i) _ h1

theorem entriesOf_nums_nodup (h : Lawful s) (i : Nat) : ((entriesOf s i).map (·.num)).Nodup := Machine.entriesOf_nums_nodup h.table h.num

/-- The entries of a service end: an ACTIVE one owns no instance. -/
theorem cancelAll (h : Lawful s) (i : Nat) (hu : ∀ n, s.view.stands n i .active → s.view.Unowned n) : Lawful (cancelAll s i) := by
  rw [cancelAll_eq h.numbered]
  refine h.endAll .cancelled (h.entriesOf_nums_nodup i) (fun e he => (h.numbered.mem_entriesOf.1 he).1) fun e he ha => ?_
  obtain ⟨hs, hi⟩ := h.numbered.mem_entriesOf.1 he
  exact hu e.num ⟨e, hs, hi, ha⟩

theorem cancelAll_entry (h : Lawful s) (he : (Machine.cancelAll s i).entry n = some e) : s.entry n = some e := by
  rw [cancelAll_eq h.numbered, endAll_entry] at he
  split at he
  · cases he
  · exact he

theorem stopLane (h : Lawful s) (c : LaneSettings) (hne : (s.servicesOf k).any (engaged s) = false) : Lawful (stopLane s k c) := by
  have hidle (n : Nat) (e : Entry) (he : s.entry n = some e) (hi : e.svc ∈ s.servicesOf k) : e.st.idle :=
    h.idle_of_not_engaged hne he (by simpa using (List.mem_filter.1 hi).2)
  unfold Machine.stopLane
  extract_lets l s1
  have h1 : Lawful s1 := h.repool k _ fun n e he hl => h.idle_of_not_engaged hne he hl
  have hfold (l : List Nat) (hl : ∀ i ∈ l, i ∈ s.servicesOf k) (t : State) (ht : Lawful t)
      (hsub : ∀ n e, t.entry n = some e → s.entry n = some e) : Lawful (l.foldl (fun s i =>
        (Machine.cancelAll s i).modSvc i (fun v => { v.unmark with clk := ClockRec.reset, cues := [] })) t) := by
    induction l generalizing t with
    | nil => exact ht
    | cons i r ih =>
      have hc : Lawful (Machine.cancelAll t i) := ht.cancelAll i fun n ⟨e, he, hi, ha⟩ =>
        absurd ha (hidle n e (hsub n e he) (hi ▸ hl i List.mem_cons_self)).2
      refine ih (fun j hj => hl j (List.mem_cons_of_mem _ hj)) _ (hc.modSvc_same i rfl rfl) fun n e he => ?_
      exact hsub n e (ht.cancelAll_entry he)
  exact hfold _ (fun _ hi => hi) s1 h1 fun _ _ he => he

theorem runConfigureLane (h : Lawful s) (a : LaneArgs) : Lawful (runConfigureLane a s).s := by
  unfold Machine.runConfigureLane
  split
  · exact h
  · split
    · exact h
    · next hne =>
      have hne := Bool.not_eq_true _ ▸ hne
      extract_lets c
      split
      · split
        · exact h
        · exact (h.startLane c hne).rest
      · split
        · exact (h.stopLane c hne).rest
        · exact (h.adjustLane c hne).rest

/-! ### Configure Service and Clear Service -/

theorem restoreOld (h : Lawful s) (i : Nat) : Lawful (restoreOld s i) := by
  unfold Machine.restoreOld
  split
  · exact h.setLane_same _ (LaneKept.restorePids (LaneKept.refl _) _).cfg
  · exact h

theorem restoreOld_entries (s : State) (i : Nat) : (Machine.restoreOld s i).entries = s.entries := by
  unfold Machine.restoreOld
  split
  · exact rfl
  · exact rfl

theorem not_claimed (h : Lawful s) (hc : ¬claimed s i = true) (he : s.entry n = some e) : e.svc ≠ i := by
  intro hi
  have hm : e ∈ entriesOf s i := h.numbered.mem_entriesOf.2 ⟨by rw [h.num n e he]; exact he, hi⟩
  refine hc (Bool.or_eq_true_iff.2 (.inl ?_))
  rw [Bool.not_eq_true']
  exact List.isEmpty_eq_false_iff_exists_mem.2 ⟨e, hm⟩

theorem defined (h : Lawful s) (hc : ¬claimed s i = true) {v : Service} (ho : v.sp.owners = (none, none, none)) :
    Lawful ((Machine.restoreOld s i).setSvc i v) := by
  refine (h.restoreOld i).redefine i v (fun n e he => h.not_claimed (n := n) hc ?_) ho
  rw [State.entry, restoreOld_entries] at he
  exact he

theorem removeService (h : Lawful s) (a : ServiceArgs) : Lawful (removeService a s).s := by
  unfold Machine.removeService
  split
  · exact h
  · split
    · exact h
    · next hc =>
      extract_lets fr
      have hf : Lawful fr.2 := h
      exact (hf.defined (i := a.svc) (v := Service.reset) hc rfl).rest

theorem runConfigureService (h : Lawful s) (a : ServiceArgs) : Lawful (runConfigureService a s).s := by
  unfold Machine.runConfigureService
  split
  · exact h.removeService a
  · split
    · exact h
    · split
      · exact h
      · extract_lets d
        split
        · exact h
        · split
          · exact h
          · split
            · exact h
            · next hc =>
              split
              · exact h
              · exact (h.defined hc rfl).rest

theorem forcedReset (h : Lawful s) (i : Nat) : Lawful (forcedReset s i) := by
  unfold Machine.forcedReset
  split
  · exact h
  · exact (h.setLane_same _ (LaneKept.restorePids (LaneKept.refl _) _).cfg).modSvc_same i rfl rfl

/-- A forced clear leaves the service's instances and request no one's. -/
theorem stopSplice_fewer (s : State) (i : Nat) : s.view.Fewer (stopSplice s i).view ∧ (stopSplice s i).view.cur i = none
    ∧ (stopSplice s i).view.nxt i = none := by
  have hsp := (stopSplice_spec s i).2
  refine ⟨?_, view_cur_of (x := none) (by rw [hsp]; exact rfl), view_nxt_of (x := none) (by rw [hsp]; exact rfl)⟩
  unfold stopSplice
  exact ((discardRole_fewer s i .current).trans (discardRole_fewer _ i .next)).trans
    (modSp_fewer _ i (.inr nofun) (.inr nofun) (.inr nofun))

theorem forcedClear (h : Lawful s) (i : Nat) : Lawful (forcedClear s i) := by
  unfold Machine.forcedClear
  extract_lets s1 s2 s3 s4 s5
  obtain ⟨hf, hcur, hnxt⟩ := stopSplice_fewer s i
  have h1 : Lawful s1 := h.fewer hf
  have h2 : Lawful s2 ∧ RecordFrame s1 s2 := by
    unfold s2
    split
    · exact ⟨(h1.leaveHeld _ i false).testRecord _, ((RecordFrame.refl s1).leaveHeld _ i false).testRecord _⟩
    · exact ⟨h1, RecordFrame.refl s1⟩
  have hcur2 : s2.view.cur i = none := (congrArg (fun q : SpliceRec => q.cur.map Inst.owner) (h2.2.sp i)).trans hcur
  have hnxt2 : s2.view.nxt i = none := (congrArg (fun q : SpliceRec => q.nxt.map Inst.asks) (h2.2.sp i)).trans hnxt
  have h3 : Lawful s3 := h2.1.cancelAll i fun n hs => by
    have hl : Laws s2.view := h2.1
    obtain ⟨e, he, hi, hst⟩ := hs
    have hsvc {j : Nat} {st : EntryState} (q : s2.view.stands n j st) : i = j ∧ .active = st := hi ▸ hst ▸ q.entry he
    refine ⟨fun j hc => ?_, fun j b hc => ?_, fun j hc => ?_⟩
    · rw [← (hsvc (hl.current j n hc)).1, hcur2] at hc
      cases hc
    · rcases hl.next j n b hc with q | ⟨q, -⟩
      · rw [← (hsvc q).1, hnxt2] at hc
        cases hc
      · exact nomatch (hsvc q).2
    · exact nomatch (hsvc (hl.waits j n hc).1).2
  have h4 : Lawful s4 := by
    unfold s4
    split
    · exact h3.poolFreed _
    · exact h3
  have h5 : Lawful s5 := h4.forcedReset i
  split
  · exact h5.passOn i
  · exact h5

theorem runClearService (h : Lawful s) (p : PortId) (i f res : Nat) : Lawful (runClearService p i f res s).s := by
  unfold Machine.runClearService
  split
  · exact h
  · split
    · exact h
    · split
      · exact h
      · extract_lets q
        split
        · split
          · exact h
          · exact h.modSvc_same i rfl rfl
        · exact (h.forcedClear i).rest

/-! ### Add Entry and Cancel Entry -/

theorem addRefs (h : Lawful s) (pod : List Nat) : Lawful (pod.foldl State.addRef s) := foldl (fun c hc => hc.addRef c) _ h

/-- A new entry joins the schedule PENDING (R51). -/
theorem join (h : Lawful s) (hn : s.entry n = none) (p : PortId) (a : EntryArgs) : Lawful (s.setEntry n (some (newEntry p a n))) := by
  have hno {i : Nat} {st : EntryState} : ¬s.view.stands n i st := fun ⟨e, he, _⟩ => nomatch hn.symm.trans he
  unfold Lawful
  rw [view_setEntry]
  refine Laws.release h (Laws.unowned h (fun _ => hno) fun _ => hno) _ fun e he => ?_
  cases he
  exact ⟨rfl, nofun, nofun, rfl⟩

theorem applyTrigger (h : Lawful s) (he : s.entry n = some e) (hidle : e.st.idle) : Lawful (applyTrigger s n) := by
  unfold Machine.applyTrigger
  rw [he]
  dsimp only
  split
  · exact h.armAndArbitrate he hidle
  · split
    · exact h.armAndArbitrate he hidle
    · exact h
  · exact h

theorem runAddEntry (h : Lawful s) (p : PortId) (a : EntryArgs) : Lawful (runAddEntry p a s).s := by
  unfold Machine.runAddEntry
  extract_lets pod
  split
  · exact h
  · split
    · exact h
    · split
      · exact h
      · split
        · exact h
        · split
          · exact h
          · split
            · exact h
            · next n hn =>
              extract_lets s1 s2
              have hnone : s.entry n = none := by simpa using List.find?_some hn
              have h0 := h.addRefs pod
              have he0 : (pod.foldl State.addRef s).entry n = none := by rw [foldl_addRef_frame]; exact hnone
              have h1 : Lawful s1 := h0.join he0 p a
              have he : s1.entry n = some (newEntry p a n) := by
                unfold s1
                rw [State.entry_setEntry, if_pos rfl]
              exact (h1.applyTrigger he EntryState.idle_pending).rest

theorem cancelActive (h : Lawful s) (he : s.entry e.num = some e) : Lawful (cancelActive s e) := by
  unfold Machine.cancelActive
  split
  · exact h
  · extract_lets s1
    have h1 : Lawful s1 := h.relabel he rfl rfl rfl rfl rfl
    have he1 : s1.entry e.num = some { e with cancelled := true } := by
      unfold s1
      rw [State.entry_setEntry, if_pos rfl]
    split
    · exact h1
    · split
      · split
        · split
          · exact h1
          · exact h1.setE _ _
        · exact h1.setE _ _
      · have h2 : Lawful (s1.setEntry e.num (some { e with cancelled := true, e := none })) := h1.relabel he1 rfl rfl rfl rfl rfl
        exact h2.awaitLead _ true

theorem runCancelEntry (h : Lawful s) (p : PortId) (n res : Nat) : Lawful (runCancelEntry p n res s).s := by
  unfold Machine.runCancelEntry
  split
  · exact h
  · split
    · exact h
    · next e he =>
      split
      · exact h
      · extract_lets s1
        have h1 : Lawful s1 := by
          unfold s1
          split
          · exact h.cancelActive (by rw [h.num n e he]; exact he)
          · next hna => exact h.endAndRelease he (fun ha => absurd ha hna) _
        exact h1.rest

/-! ### Alert Activate and Alert Cancel -/

theorem placeTarget (h : Lawful s) (r i : Nat) : Lawful (placeTarget s r i) := by
  unfold Machine.placeTarget
  extract_lets st
  split
  · exact h.takeService r i
  · next hne => exact h.modTarget r i (fun _ => rfl) fun _ hx => absurd hx hne

theorem activateAlert (h : Lawful s) (r : Nat) (a : AlertArgs) (hnd : (a.targets.take a.count).Nodup) : Lawful (activateAlert s r a) := by
  unfold Machine.activateAlert
  refine foldl (fun i hi => hi.placeTarget r i) _ ?_
  have hsvcs : ((a.targets.take a.count).map newTarget).map (·.svc) = a.targets.take a.count := by
    rw [List.map_map]
    exact List.map_id _
  have hno (y : Target) (hy : y ∈ (newAlert s a).targets) : y.status ≠ .held := by
    obtain ⟨i, -, rfl⟩ := List.mem_map.1 hy
    exact nofun
  have ha : Lawful (s.addRef a.clip) := h.addRef a.clip
  unfold Lawful
  rw [view_setAlert]
  refine Laws.setAlert ha r _ (fun _ n i hh => ?_) (fun _ _ y hy hh => absurd hh (hno y hy)) fun _ => ?_
  · obtain ⟨-, y, hy, -, hs⟩ := AlertRec.holds_iff.1 hh
    exact absurd hs (hno y hy)
  · exact (congrArg List.Nodup hsvcs).mpr hnd

theorem alertArgsOk_nodup {a : AlertArgs} (h : alertArgsOk a = true) : (a.targets.take a.count).Nodup := by
  unfold alertArgsOk at h
  simp only [Bool.and_eq_true, decide_eq_true_eq] at h
  obtain ⟨⟨⟨⟨⟨⟨⟨-, hnd⟩, -⟩, -⟩, -⟩, -⟩, -⟩, -⟩ := h
  exact hnd

theorem runAlertActivate (h : Lawful s) (a : AlertArgs) : Lawful (runAlertActivate a s).s := by
  unfold Machine.runAlertActivate
  extract_lets ts
  split
  · exact h
  · next hargs =>
    have hnd := alertArgsOk_nodup (by simpa using hargs)
    split
    · exact h
    · split
      · exact h
      · split
        · exact h
        · split
          · exact h
          · exact (h.activateAlert _ a hnd).rest

theorem runAlertCancel (h : Lawful s) (id res : Nat) : Lawful (runAlertCancel id res s).s := by
  unfold Machine.runAlertCancel
  split
  · exact h
  · split
    · exact h
    · next r hr =>
      extract_lets a rem reply
      split
      · next hst => exact (h.endAlert (fun hx => nomatch hst.symm.trans hx) _ _).rest
      · exact h

end Lawful

end Sys2Proof.Machine
end

section
/-! The laws of the schedule under every row and every step (R48, R49, R65). -/

namespace Sys2Proof.Machine

variable {s t u : State} {p : PortId}

namespace Lawful

/-! ### Commands that touch nothing the laws read -/

theorem runIdentify (h : Lawful s) (p : PortId) (res : Nat) : Lawful (runIdentify p res s).s := by
  unfold Machine.runIdentify
  split
  · exact h
  · exact h

theorem clearOverrun (h : Lawful s) (k : Nat) : Lawful (clearOverrun s k) := h.setLane_same k rfl

theorem runReadStatus (h : Lawful s) (p : PortId) (res : Nat) : Lawful (runReadStatus p res s).s := by
  unfold Machine.runReadStatus
  split
  · exact h
  · exact (((h.clearOverrun 0).clearOverrun 1).clearOverrun 2).clearOverrun 3

theorem runPortRate (h : Lawful s) (p : PortId) (r res : Nat) : Lawful (runPortRate p r res s).s := by
  unfold Machine.runPortRate
  split
  · exact h
  · exact h.setLink p _

theorem runReadEvents (h : Lawful s) (p : PortId) (n res : Nat) : Lawful (runReadEvents p n res s).s := by
  unfold Machine.runReadEvents
  split
  · exact h
  · exact h.setBox p _

theorem runWatch (h : Lawful s) (p : PortId) (m : BitVec 48) (res : Nat) : Lawful (runWatch p m res s).s := by
  unfold Machine.runWatch
  split
  · exact h
  · exact h.setBox p _

theorem runSetMasks (h : Lawful s) (i : Nat) (m : BitVec 16) (res : Nat) : Lawful (runSetMasks i m res s).s := by
  unfold Machine.runSetMasks
  split
  · exact h
  · exact h.modSvc_same i rfl rfl

theorem runClearConditions (h : Lawful s) (i : Nat) (m : BitVec 16) (res : Nat) : Lawful (runClearConditions i m res s).s := by
  unfold Machine.runClearConditions
  split
  · exact h
  · exact h.modSvc_same i rfl rfl

theorem runReadService (h : Lawful s) (i res : Nat) : Lawful (runReadService i res s).s := by
  unfold Machine.runReadService
  split
  · exact h
  · exact h

theorem runReadEntry (h : Lawful s) (n res : Nat) : Lawful (runReadEntry n res s).s := by
  unfold Machine.runReadEntry
  split
  · exact h
  · split
    · exact h
    · exact h

/-! ### Ingest, clips and protection -/

theorem openIngest (h : Lawful s) (p : PortId) (a : IngestArgs) (cs : List Comp) : Lawful (openIngest s p a cs) :=
  ((h.modFlash _).setClip _ _).setIngest p _

theorem runIngestOpen (h : Lawful s) (p : PortId) (a : IngestArgs) : Lawful (runIngestOpen p a s).s := by
  unfold Machine.runIngestOpen
  split
  · exact h
  · split
    · exact h
    · split
      · exact h
      · split
        · exact h
        · exact (h.openIngest p a _).rest

theorem takeData (h : Lawful s) (p : PortId) (d : List Byte) : Lawful (takeData p d s).s := by
  unfold Machine.takeData
  extract_lets g m
  split
  · exact (h.endIngest p none).rest
  · split
    · exact h
    · split
      · exact (h.setIngest p _).rest
      · exact h.setIngest p _

theorem runIngestData (h : Lawful s) (p : PortId) (d : List Byte) : Lawful (runIngestData p d s).s := by
  unfold Machine.runIngestData
  split
  · exact h
  · exact h.takeData p d
  · exact h

theorem closeIngest (h : Lawful s) (p : PortId) (c d : Nat) : Lawful (closeIngest p c d s).s := by
  unfold Machine.closeIngest
  extract_lets g cause
  split
  · exact (h.endIngest p none).rest
  · exact (h.setIngest p _).rest

theorem runIngestClose (h : Lawful s) (p : PortId) (c d res : Nat) : Lawful (runIngestClose p c d res s).s := by
  unfold Machine.runIngestClose
  split
  · exact h
  · split
    · exact h
    · exact h.closeIngest p c d
    · exact h

theorem runIngestAbort (h : Lawful s) (p : PortId) (res : Nat) : Lawful (runIngestAbort p res s).s := by
  unfold Machine.runIngestAbort
  split
  · exact h
  · split
    · exact h
    · exact h
    · split
      · exact h.setIngest p _
      · exact (h.endIngest p none).rest

theorem eraseClip (h : Lawful s) (p : PortId) (r : ClipRec) : Lawful (eraseClip s p r) := by
  unfold Machine.eraseClip
  exact (h.removeClip _ _ _).modFlash _

/-- A check of a command: refused, nothing has changed. -/
theorem refusedOr (h : Lawful s) {c : Prop} [Decidable c] {st : Status} {a : Ans} (ha : Lawful a.s) :
    Lawful (if c then err s st else a).s := by
  split
  · exact h
  · exact ha

theorem runClipErase (h : Lawful s) (p : PortId) (c res : Nat) : Lawful (runClipErase p c res s).s := by
  unfold Machine.runClipErase
  refine h.refusedOr ?_
  split
  · exact h
  · next r _ =>
    have he : Lawful (Machine.rest (Machine.eraseClip s p r)) := (h.eraseClip p r).rest
    exact h.refusedOr (h.refusedOr (h.refusedOr he))

theorem runClipChecksum (h : Lawful s) (p : PortId) (c res : Nat) : Lawful (runClipChecksum p c res s).s := by
  unfold Machine.runClipChecksum
  refine h.refusedOr ?_
  split
  · exact h
  · exact h.refusedOr (h.refusedOr ((h.addRef c).setCheck p _).rest)

theorem runListDirectory (h : Lawful s) (c res : Nat) : Lawful (runListDirectory c res s).s := by
  unfold Machine.runListDirectory
  split
  · exact h
  · exact h.fresh

theorem runReadClip (h : Lawful s) (c res : Nat) : Lawful (runReadClip c res s).s := by
  unfold Machine.runReadClip
  refine h.refusedOr ?_
  split
  · exact h
  · exact h.fresh

theorem setPreloadClip (h : Lawful s) (j : Nat) (c : Option Nat) : Lawful (setPreloadClip s j c) := by
  unfold Machine.setPreloadClip
  extract_lets q
  split
  · split
    · exact h
    · exact h.clearPreload j
  · split
    · exact h
    · exact ((h.clearPreload j).setPreload j _).addRef _

theorem runAlertPreload (h : Lawful s) (j n c res : Nat) : Lawful (runAlertPreload j n c res s).s := by
  unfold Machine.runAlertPreload
  split
  · exact h
  · split
    · exact h
    · split
      · exact h
      · exact (h.setPreloadClip j _).rest

theorem runProtectionSet (h : Lawful s) (l : BitVec 8) (res : Nat) : Lawful (runProtectionSet l res s).s := by
  unfold Machine.runProtectionSet
  refine h.refusedOr (h.refusedOr (h.refusedOr (h.refusedOr ?_)))
  dsimp only
  split
  · exact h
  · exact (h.modFlash _).rest

theorem startRelease (h : Lawful s) : Lawful (startRelease s) := modFlash (foldl (fun r hr => hr.removeClip r _ _) _ h) _

theorem runProtectionRelease (h : Lawful s) (res : Nat) : Lawful (runProtectionRelease res s).s := by
  unfold Machine.runProtectionRelease
  exact h.refusedOr (h.refusedOr (h.refusedOr (h.refusedOr (h.refusedOr h.startRelease.rest))))

theorem runReadProtection (h : Lawful s) (res : Nat) : Lawful (runReadProtection res s).s := by
  unfold Machine.runReadProtection
  extract_lets f
  split
  · exact h
  · exact h

/-! ### The links -/

theorem refuseFrame (h : Lawful s) (p : PortId) (c : Byte) (st : Status) : Lawful (refuseFrame s p c st) := by
  unfold Machine.refuseFrame
  dsimp only
  split
  · exact (h.setLink _ _).setLink _ _
  · exact (h.setLink _ _).setLink _ _

theorem openExchange (h : Lawful s) (p : PortId) (c : Nat) : Lawful (openExchange s p c) := by
  rw [openExchange_eq]
  exact h.setLink _ _

theorem done {a : Ans} (h : Lawful a.s) (p : PortId) : Lawful (a.done p) := by
  unfold Ans.done
  split
  · exact h.answer _ _ _
  · exact h

/-- A command keeps what its owning rule keeps. -/
theorem command (h : Lawful s) (p : PortId) (c : Nat) {run : State → Ans} (hr : ∀ {u}, Lawful u → Lawful (run u).s) :
    Lawful (command p c s run) := by
  rcases command_cases s p c run with ⟨-, e⟩ | ⟨-, st, -, e⟩ | ⟨-, -, e⟩ <;> rw [e]
  · exact h
  · exact h.refuseFrame _ _ _
  · exact (hr (h.openExchange p c)).done p

theorem runTaken (h : Lawful s) (c : Instr) : Lawful (runTaken c s).s := by
  cases c
  case configureLane => exact h.runConfigureLane _
  case identify => exact h.runIdentify _ _
  case readStatus => exact h.runReadStatus _ _
  case portRate => exact h.runPortRate _ _ _
  case readEvents => exact h.runReadEvents _ _ _
  case watch => exact h.runWatch _ _ _
  case configureService => exact h.runConfigureService _
  case setMasks => exact h.runSetMasks _ _ _
  case clearConditions => exact h.runClearConditions _ _ _
  case readService => exact h.runReadService _ _
  case clearService => exact h.runClearService _ _ _ _
  case addEntry => exact h.runAddEntry _ _
  case cancelEntry => exact h.runCancelEntry _ _ _
  case readEntry => exact h.runReadEntry _ _
  case ingestOpen => exact h.runIngestOpen _ _
  case ingestData => exact h.runIngestData _ _
  case ingestClose => exact h.runIngestClose _ _ _ _
  case ingestAbort => exact h.runIngestAbort _ _
  case clipErase => exact h.runClipErase _ _ _
  case clipChecksum => exact h.runClipChecksum _ _ _
  case listDirectory => exact h.runListDirectory _ _
  case readClip => exact h.runReadClip _ _
  case alertPreload => exact h.runAlertPreload _ _ _ _
  case alertActivate => exact h.runAlertActivate _
  case alertCancel => exact h.runAlertCancel _ _
  case protectionSet => exact h.runProtectionSet _ _
  case protectionRelease => exact h.runProtectionRelease _
  case readProtection => exact h.runReadProtection _
  all_goals exact h

theorem receiveByte (h : Lawful s) (p : PortId) (b : Byte) : Lawful (receiveByte s p b) := by
  unfold Machine.receiveByte
  split
  · exact h
  · extract_lets l
    split
    · unfold completeFrame
      extract_lets code
      split
      · exact h.refuseFrame _ _ _
      · split
        · exact ((h.openExchange _ _).runTaken _).done p
        · exact h
    · exact h.setLink p _

theorem toHunt (h : Lawful s) (p : PortId) : Lawful (toHunt s p) := h.setLink _ _

theorem frameGap (h : Lawful s) (p : PortId) : Lawful (frameGap s p) := by
  unfold Machine.frameGap
  extract_lets l
  split
  · exact h
  · exact (h.advanceTo _).toHunt p

theorem framingError (h : Lawful s) (p : PortId) : Lawful (framingError s p) := by
  unfold Machine.framingError
  split
  · exact h
  · exact h.toHunt p

theorem frameRefused (h : Lawful s) (p : PortId) (b : List Byte) (c : Byte) : Lawful (frameRefused s p b c) := by
  unfold Machine.frameRefused
  split
  · exact h
  · split
    · exact h.refuseFrame _ _ _
    · exact h

theorem replySent (h : Lawful s) (p : PortId) : Lawful (replySent s p) := by
  unfold Machine.replySent
  split
  · exact h
  · exact h.setLink p _

/-! ### Every row, every step -/

theorem exec (h : Lawful s) (c : Instr) (hc : exec c s = .next t) : Lawful t := by
  cases c <;> cases hc
  case resetnAssert => exact h.resetnAssert
  case resetnRelease => exact resetnRelease s
  case lowsupplyAssert => exact h.lowsupplyAssert
  case lowsupplyRelease => exact h.lowsupplyRelease
  case refLost => exact h.refLost
  case refRestored => exact h.refRestored
  case restoreCountGap => exact h.restoreCountGap
  case packetArrival => exact h.packetArrival _ _
  case inputLost => exact h.inputLost _
  case pcrLossTimeout => exact h.pcrLossTimeout _
  case slot => exact h.slot _
  case timeTrigger => exact h.timeTrigger _
  case searchOverdue => exact h.searchOverdue _
  case seekTimerExpiry => exact h.seekTimerExpiry _
  case returnOverdue => exact h.returnOverdue _
  case alertExpiry => exact h.alertExpiry _
  case pageReadComplete => exact h.pageReadComplete _ _
  case programComplete => exact h.programComplete _
  case eraseComplete => exact h.eraseComplete _
  case block0EraseComplete => exact h.block0EraseComplete _
  case flashOpTimeout => exact h.flashOpTimeout
  case receiveByte => exact h.receiveByte _ _
  case frameRefused => exact h.frameRefused _ _ _
  case frameGap => exact h.frameGap _
  case framingError => exact h.framingError _
  case replySent => exact h.replySent _
  case configureLane => exact h.command _ _ fun h => h.runConfigureLane _
  case identify => exact h.command _ _ fun h => h.runIdentify _ _
  case readStatus => exact h.command _ _ fun h => h.runReadStatus _ _
  case portRate => exact h.command _ _ fun h => h.runPortRate _ _ _
  case readEvents => exact h.command _ _ fun h => h.runReadEvents _ _ _
  case watch => exact h.command _ _ fun h => h.runWatch _ _ _
  case configureService => exact h.command _ _ fun h => h.runConfigureService _
  case setMasks => exact h.command _ _ fun h => h.runSetMasks _ _ _
  case clearConditions => exact h.command _ _ fun h => h.runClearConditions _ _ _
  case readService => exact h.command _ _ fun h => h.runReadService _ _
  case clearService => exact h.command _ _ fun h => h.runClearService _ _ _ _
  case addEntry => exact h.command _ _ fun h => h.runAddEntry _ _
  case cancelEntry => exact h.command _ _ fun h => h.runCancelEntry _ _ _
  case readEntry => exact h.command _ _ fun h => h.runReadEntry _ _
  case ingestOpen => exact h.command _ _ fun h => h.runIngestOpen _ _
  case ingestData => exact h.command _ _ fun h => h.runIngestData _ _
  case ingestClose => exact h.command _ _ fun h => h.runIngestClose _ _ _ _
  case ingestAbort => exact h.command _ _ fun h => h.runIngestAbort _ _
  case clipErase => exact h.command _ _ fun h => h.runClipErase _ _ _
  case clipChecksum => exact h.command _ _ fun h => h.runClipChecksum _ _ _
  case listDirectory => exact h.command _ _ fun h => h.runListDirectory _ _
  case readClip => exact h.command _ _ fun h => h.runReadClip _ _
  case alertPreload => exact h.command _ _ fun h => h.runAlertPreload _ _ _ _
  case alertActivate => exact h.command _ _ fun h => h.runAlertActivate _
  case alertCancel => exact h.command _ _ fun h => h.runAlertCancel _ _
  case protectionSet => exact h.command _ _ fun h => h.runProtectionSet _ _
  case protectionRelease => exact h.command _ _ fun h => h.runProtectionRelease _
  case readProtection => exact h.command _ _ fun h => h.runReadProtection _

theorem clockCycle (h : Lawful s) : Lawful (clockCycle s) := by
  have he : Lawful (edgeReturns s) := by
    unfold edgeReturns
    split
    · exact h
    · exact h.congr rfl rfl rfl rfl
  unfold Machine.clockCycle
  dsimp only
  split
  · split
    · exact he.congr rfl rfl rfl rfl
    · exact he.congr rfl rfl rfl rfl
  · split
    · exact he.congr rfl rfl rfl rfl
    · exact he.congr rfl rfl rfl rfl

theorem step (h : Lawful s) (ht : step s = .next t) : Lawful t := by
  rcases step_cases s ht with ⟨d, r, -, hd⟩ | ⟨-, rfl⟩
  · exact Lawful.exec (s := { s with pending := r }) (h.congr rfl rfl rfl rfl) d hd
  · exact tick_keeps s h.clockCycle (fun _ d _ hu hd => hu.exec d hd) h

end Lawful

/-- Settles O5: every act keeps the laws on what they read of the state, an instance's owner and its entry's state changing together. -/
theorem scheduleLawsKeptByEveryStep : Obligations.ScheduleLawsKeptByEveryStep := fun s t hs h =>
  (lawful_iff t).1 (((lawful_iff s).2 hs).step h)

end Sys2Proof.Machine
end
